-- ==== Sys2Proof/Word.lean ====
section
/-! DEFINITION. The word types: what the manual treats as bits (bytes, 32-bit registers). Counts, positions, identifiers
and times are natural numbers. -/
namespace Sys2Proof

/-- One byte of a packet, an image or a text. -/
abbrev Byte := BitVec 8

/-- One 32-bit register or DWORD (R34, R472). -/
abbrev Word := BitVec 32

/-- A byte string. -/
abbrev Bytes := List Byte

end Sys2Proof
end

