-- ==== Sys2Proof/Syntax.lean ====
section
/-! DEFINITION. The commands of the block: one constructor of Instr for each row of spec/opcode_table.json, in the
table's order. Every command carries dt, the nanoseconds of time base since the previous command (log 1). A packet's
own command names the aperture and the position of a consumed packet; its bytes were written by apertureWrite. -/
namespace Sys2Proof

/-- One DWORD of a host write; whole is clear when it came with partial byte enables (R34). -/
structure Dword where
  val : Word
  whole : Bool
  deriving DecidableEq, Repr

/-- What a RING_FAULT reports: an egress ring or an aperture's credit word (R67). -/
inductive PortFault where
  | ring (n : Nat)
  | credit (ap : Nat)
  deriving DecidableEq, Repr

/-- A burst of R250: header fields and the logits as raw encodings of the format. -/
structure Burst where
  step : Nat
  slot : Nat
  node : Nat
  format : Nat
  pane : Nat
  logits : List Nat
  deriving DecidableEq, Repr

/-- The header of a group message (R429). crcOk tells whether CRC holds over the header and the payload. -/
structure MsgHdr where
  source : Nat
  epoch : Nat
  crcOk : Bool
  deriving DecidableEq, Repr

/-- The figures of grp.query subject 1 that a member reports (R430, R452). -/
structure Figures where
  imgGen : Nat
  profiles : Nat
  freeSlots : Nat
  personality : Nat
  freePages : Nat
  deriving DecidableEq, Repr

/-- The payload of bud.set (R325), also carried by BUD_FWD. -/
structure BudSet where
  tenant : Nat
  rate : Nat
  burst : Nat
  wPrompt : Nat
  wGen : Nat
  remove : Bool
  fill : Bool
  deriving DecidableEq, Repr

/-- The change that a LEDGER message carries (R430, R441): a record created or changed, with the level for the deputy,
or removed; or the whole ledger, as a master hands it over with grp.handover (R438). The deputy's acknowledgement is its own
command. -/
inductive LedgerChange where
  | put (b : BudSet) (level : Int)
  | remove (tenant : Nat)
  | final (records : List (BudSet × Int))
  deriving DecidableEq, Repr

/-- The record fields of CHAIN_ANS (R430). -/
structure ChainRec where
  length : Nat
  pages : Nat
  modelGen : Nat
  profile : Nat
  canonCrc : Nat
  attach : Nat
  deriving DecidableEq, Repr

/-- A migration package (R346): the header fields, what the destination rebuilds a stream from of the entry and the sections, and the pause
record's header. Token lists are canonical IDs, the bias list is in model IDs, times of the entry are in its units. isSealed tells
that the package left before the verdict of its seal's step, resume that a str.resume with DEST_VALID sent it, abandon that it is the
source's word that a migration is abandoned (R351) and no package: the manual gives the receiver these facts and names no field for them.
docSeen, lastCommit, stalledSince and sumRelease travel in the entry's firmware-private bytes (R306, R350). -/
structure PkgBody where
  oldHandle : Nat
  isSealed : Bool
  resume : Bool
  abandon : Bool
  paused : Bool
  ap : Nat
  modelGen : Nat
  canonCrc : Nat
  grammarCrc : Nat
  sealId : Nat
  tenant : Nat
  priority : Nat
  policy : Nat
  profile : Nat
  mode : Nat
  state : Nat
  ring : Nat
  epoch : Nat
  specialOut : Nat
  outInvalid : Nat
  pmode : Nat
  promptDone : Bool
  gid : Nat
  gstate : Nat
  bcause : Nat
  lex : Nat
  stack : List Nat
  length : Nat
  prompt : Nat
  generated : Nat
  maxGen : Nat
  readyTime : Nat
  deadline : Nat
  ttft : Nat
  tbt : Nat
  lateCount : Nat
  stallLintel : Nat
  stallHold : Nat
  stallRing : Nat
  tbtMax : Nat
  carry : Bytes
  hold : Nat
  window : Bytes
  heal : Option Bytes
  stops : List (Nat × Bytes)
  rt : Nat
  topP : Nat
  minP : Nat
  topK : Nat
  bias : List (Nat × Nat)
  queue : List Nat
  ends : List Nat
  openTime : Nat
  expiry : Nat
  sumHandle : Nat
  sumSize : Nat
  sumLoc : Nat
  recPmode : Nat
  returnState : Nat
  tierAddr : Nat
  tierPages : Nat
  lastStep : Nat
  docSeen : Bool
  lastCommit : Option Nat
  stalledSince : Nat
  sumRelease : Nat
  deriving DecidableEq, Repr

/-- A Beryl search request (R283): KEY and MASK as 256-bit numbers. -/
structure SearchReq where
  key : Nat
  mask : Nat
  select : Nat
  kw : Nat
  tag : Nat
  tagEn : Bool
  channel : Nat
  deriving DecidableEq, Repr

/-- A Beryl entry to insert (R278): key units, care bytes and data of each row, tag and priority of the head row. -/
structure BerylEntry where
  key : List Nat
  care : List Nat
  data : List Nat
  tag : Nat
  prio : Nat
  matchEn : Bool
  deriving DecidableEq, Repr

/-- A cell of the match arrays that a soft error has flipped since the last command: physical bank, row and bit (R288, R290). -/
structure Upset where
  bank : Nat
  row : Nat
  bit : Nat
  deriving DecidableEq, Repr

/-- What a search meets in the arrays (R288, R289): the cells flipped by now, the row of the winner's entry whose shadow word is
uncorrectable, if any, and whether a rewrite of the winner's rows does not hold. -/
structure SearchFound where
  upsets : List Upset
  badWord : Option Nat
  stuck : Bool
  deriving DecidableEq, Repr

/-- An update of Beryl by key (R294 to R297): change is the three-step change of an entry in its place. -/
inductive BerylUpdate where
  | insert (e : BerylEntry)
  | remove (key : List Nat) (tag : Nat)
  | change (key : List Nat) (tag : Nat) (e : BerylEntry)
  deriving DecidableEq, Repr

/-- What a word of memory belongs to, where its address alone does not tell: a profile version by its handle, a grammar by its ID, a
shutter cache entry, a stream by its slot, a parked row. -/
inductive MemOwner where
  | nothing
  | version (handle : Nat)
  | grammar (id : Nat)
  | cacheEntry (num : Nat)
  | stream (slot : Nat)
  | row (step slot node : Nat)
  deriving DecidableEq, Repr

/-- What a read of a word found (R383 to R385): recurring tells that the same bit was wrong after a rewrite (R463); merged is an
uncorrectable word read for a write of fewer than 8 bytes, which puts it right. -/
inductive ReadFound where
  | clean
  | corrected (bit : Nat) (recurring : Bool)
  | uncorrectable (owner : MemOwner)
  | merged
  deriving DecidableEq, Repr

/-- A failing cell found by a march (R387): bank, row and bit column of the unit under test; rows and columns beyond the last stand for the
spare ones (R397). -/
structure Cell where
  bank : Nat
  row : Nat
  column : Nat
  deriving DecidableEq, Repr

/-- What became of a borrow of the march engine (R391 to R393). -/
inductive Borrow where
  | tested (fails : List Cell)
  | yielded
  | notBorrowed
  deriving DecidableEq, Repr

/-- A delivery of the management controller at start-up (R321, R85, R108, R426, R464). -/
inductive Delivery where
  | history (bytes : Bytes)
  | firmware (keys : List (Option (Nat × Nat))) (stackMap : Bytes)
  | bootImage (bytes : Bytes)
  deriving DecidableEq, Repr

/-- The destination's answer to a migration (R349). -/
inductive MigAnswer where
  | accepted (newHandle : Nat)
  | refused (status : Nat)
  deriving DecidableEq, Repr

/-- The work item that a faulting unit held (R456). -/
inductive FaultWork where
  | none
  | packet (ap pos : Nat)
  | stream (slot : Nat)
  | row (step slot node : Nat)
  deriving DecidableEq, Repr

/-- A packet, by its position, whose firmware writes a stream through port A: clash is the 64-bit word of the stream's record, if any, that
the scheduler writes through port B in the same clock (R307). -/
structure StreamPkt where
  pos : Nat
  clash : Option Nat
  deriving DecidableEq, Repr

/-- A str.pause, by its position: areaOk tells that the pause area slot can be written (R334), clash is as in StreamPkt. -/
structure PausePkt where
  pos : Nat
  areaOk : Bool
  clash : Option Nat
  deriving DecidableEq, Repr

/-- A segment of the enc.text at a position: upTo counts the items of the packet that it takes, none for
all that are left (R146, log 32). -/
structure SegmentEnd where
  pos : Nat
  upTo : Option Nat
  deriving DecidableEq, Repr

/-- What the fabric reports as written (R374): the chunk of a slot, or with release given the release of that summary handle. -/
structure KvReport where
  slot : Nat
  release : Option Nat
  deriving DecidableEq, Repr

/-- What of a node's shutter build is done (R236): one casement unit's share, or with none the build. -/
structure BuildPart where
  node : Nat
  unit : Option Nat
  deriving DecidableEq, Repr

/-- A search, and what it meets in the arrays. -/
structure SearchIn where
  req : SearchReq
  found : SearchFound
  deriving DecidableEq, Repr

/-- A three-step update (R296): all its steps at once, or the next one of them. -/
structure UpdateSteps where
  update : BerylUpdate
  whole : Bool
  deriving DecidableEq, Repr

/-- A scrub of the next row of a physical bank (R290): the cells flipped by now, and whether a rewrite does not hold. -/
structure ScrubIn where
  bank : Nat
  upsets : List Upset
  stuck : Bool
  deriving DecidableEq, Repr

/-- What a read of an array's word finds (R383 to R385): the patrol scrubber's next word, or the word that another master reads. -/
structure PatrolIn where
  found : ReadFound
  read : Option Nat
  deriving DecidableEq, Repr

/-- The commands of the block, one constructor for each row of the operation table. -/
inductive Instr where
  | apertureWrite (dt : Nat) (port : Bool) (offset : Nat) (data : List Dword)
  | apertureRead (dt : Nat) (port : Bool) (offset : Nat) (size : Nat)
  | packetConsume (dt : Nat) (ap : Nat)
  | creditWordTimer (dt : Nat) (ap : Nat)
  | sysHello (dt : Nat) (ap pos : Nat)
  | sysHelloApertureReset (dt : Nat) (ap pos : Nat)
  | sysRingEnable (dt : Nat) (ap pos : Nat)
  | sysRingDisable (dt : Nat) (ap pos : Nat)
  | sysTime (dt : Nat) (ap pos : Nat)
  | imgLoad (dt : Nat) (ap pos : Nat)
  | imageStaged (dt : Nat) (slot : Nat)
  | imgCommit (dt : Nat) (ap pos : Nat)
  | commitTakesEffect (dt : Nat)
  | imgDropSlot (dt : Nat) (ap pos : Nat)
  | imgDropGrammar (dt : Nat) (ap pos : Nat)
  | imgQuery (dt : Nat) (ap pos : Nat)
  | strOpen (dt : Nat) (ap pos : Nat)
  | strClose (dt : Nat) (ap : Nat) (pkt : StreamPkt)
  | strCancel (dt : Nat) (ap : Nat) (pkt : StreamPkt)
  | streamRelease (dt : Nat) (slot : Nat)
  | quarantineEnd (dt : Nat) (slot : Nat)
  | strPause (dt : Nat) (ap : Nat) (pkt : PausePkt)
  | pauseTakesEffect (dt : Nat) (slot : Nat)
  | pauseExpired (dt : Nat) (slot : Nat)
  | strResume (dt : Nat) (ap pos : Nat)
  | strPin (dt : Nat) (ap : Nat) (pkt : StreamPkt)
  | strMigrate (dt : Nat) (ap : Nat) (pkt : StreamPkt)
  | migrationSend (dt : Nat) (slot : Nat)
  | migrationAnswer (dt : Nat) (slot : Nat) (answer : MigAnswer)
  | encText (dt : Nat) (ap pos : Nat)
  | encRaw (dt : Nat) (ap pos : Nat)
  | segmentDone (dt : Nat) (ap : Nat) (seg : SegmentEnd)
  | transomPieceDone (dt : Nat) (ap pos : Nat)
  | decTok (dt : Nat) (ap pos : Nat)
  | tokChoose (dt : Nat) (ap pos : Nat)
  | choiceGrant (dt : Nat) (slot : Nat)
  | commitDecodeDone (dt : Nat) (slot : Nat)
  | specTree (dt : Nat) (ap pos : Nat)
  | specTreeReply (dt : Nat) (ap pos : Nat)
  | treeResolveAck (dt : Nat) (slot : Nat)
  | pfxBind (dt : Nat) (ap pos : Nat)
  | pfxFind (dt : Nat) (ap pos : Nat)
  | pfxDrop (dt : Nat) (ap pos : Nat)
  | budSet (dt : Nat) (ap pos : Nat)
  | lintelRaise (dt : Nat) (ap pos : Nat)
  | lintelLower (dt : Nat) (ap pos : Nat)
  | grpQuery (dt : Nat) (ap pos : Nat)
  | grpLocate (dt : Nat) (ap pos : Nat)
  | grpLeave (dt : Nat) (ap pos : Nat)
  | grpHandover (dt : Nat) (ap pos : Nat)
  | grpJoin (dt : Nat) (ap pos : Nat)
  | testMarchPreserving (dt : Nat) (ap pos : Nat)
  | testMarchDestructive (dt : Nat) (ap pos : Nat)
  | testMarchAbort (dt : Nat) (ap pos : Nat)
  | destructiveMarchStart (dt : Nat) (array : Nat)
  | destructiveMarchTimeout (dt : Nat) (array : Nat)
  | marchBorrow (dt : Nat) (array : Nat) (found : Borrow)
  | marchEnd (dt : Nat) (fails : List (Nat × Cell))
  | testLane (dt : Nat) (ap pos : Nat)
  | ringHeadPoll (dt : Nat) (ring value : Nat)
  | ringStall (dt : Nat) (ring : Nat)
  | recordsLost (dt : Nat) (ring : Nat)
  | modTimeExpiry (dt : Nat) (ring : Nat)
  | ringFault (dt : Nat) (target : PortFault)
  | stepIssue (dt : Nat) (entries tokens : Nat)
  | idleBoundary (dt : Nat)
  | logitBurst (dt : Nat) (facet : Nat) (burst : Burst)
  | rowShaped (dt : Nat) (step slot node : Nat)
  | verdictPass (dt : Nat) (step : Nat)
  | verdictFail (dt : Nat) (step : Nat)
  | verdictTimeout (dt : Nat) (step : Nat)
  | chunkKvWritten (dt : Nat) (step : Nat) (what : KvReport)
  | pageRetire (dt : Nat) (page : Nat)
  | pageSummary (dt : Nat) (slot handle size loc : Nat)
  | pageMoved (dt : Nat) (slot : Nat)
  | pageRestored (dt : Nat) (slot : Nat)
  | backgroundBuild (dt : Nat) (slot : Nat)
  | shutterBuildDone (dt : Nat) (slot : Nat) (part : BuildPart)
  | stackRefillDone (dt : Nat) (slot : Nat)
  | deadlinePolicy (dt : Nat) (slot : Nat)
  | sealNotice (dt : Nat) (hdr : MsgHdr) (sealId kind : Nat)
  | package (dt : Nat) (hdr : MsgHdr) (body : PkgBody)
  | join (dt : Nat) (hdr : MsgHdr) (frameCrc time : Nat)
  | joinTimer (dt : Nat)
  | formTimeout (dt : Nat)
  | welcome (dt : Nat) (hdr : MsgHdr) (newEpoch live asleep master deputy time : Nat) (tenants : List BudSet)
  | beatTimer (dt : Nat)
  | beat (dt : Nat) (hdr : MsgHdr) (time live deputy delay : Nat) (figures : List (Nat × Figures))
  | beatAck (dt : Nat) (hdr : MsgHdr) (echo received turnaround : Nat) (figures : Figures)
  | memberDepartTimeout (dt : Nat) (member : Nat)
  | quorumLossTimeout (dt : Nat)
  | deputyPollTimeout (dt : Nat)
  | poll (dt : Nat) (hdr : MsgHdr)
  | pollAns (dt : Nat) (hdr : MsgHdr) (recent : Bool)
  | takeover (dt : Nat) (hdr : MsgHdr) (newEpoch newDeputy : Nat)
  | orphanTimeout (dt : Nat)
  | timeSlewTick (dt : Nat)
  | grantReq (dt : Nat) (hdr : MsgHdr) (tenant units : Nat)
  | grant (dt : Nat) (hdr : MsgHdr) (tenant units : Nat)
  | ledger (dt : Nat) (hdr : MsgHdr) (change : LedgerChange)
  | budFwd (dt : Nat) (hdr : MsgHdr) (set : BudSet) (tag : Nat)
  | budDone (dt : Nat) (hdr : MsgHdr) (tag status : Nat) (level : Int)
  | chainFind (dt : Nat) (hdr : MsgHdr) (handle tenant request : Nat)
  | chainAns (dt : Nat) (hdr : MsgHdr) (request : Nat) (hit : Option ChainRec)
  | chainFindTimeout (dt : Nat) (request : Nat)
  | pfxCopy (dt : Nat) (hdr : MsgHdr) (handle tenant : Nat) (pages : List Nat)
  | pfxCopyDone (dt : Nat) (handle tenant : Nat)
  | leave (dt : Nat) (hdr : MsgHdr) (sleep : Bool) (units : List (Nat × Nat))
  | down (dt : Nat) (hdr : MsgHdr) (lost : Nat)
  | rescue (dt : Nat) (hdr : MsgHdr) (lost : Nat) (streams : List PkgBody)
  | linkUnreachable (dt : Nat) (member : Nat)
  | berylSearch (dt : Nat) (search : SearchIn)
  | slotStealingUpdate (dt : Nat) (channel bank : Nat) (update : BerylUpdate)
  | threeStepUpdate (dt : Nat) (channel bank : Nat) (steps : UpdateSteps)
  | berylMoveDone (dt : Nat) (bank : Nat)
  | compactor (dt : Nat) (bank : Nat)
  | camScrub (dt : Nat) (scrub : ScrubIn)
  | bankReload (dt : Nat) (bank : Nat)
  | bankReloadDone (dt : Nat) (bank : Nat)
  | patrolScrub (dt : Nat) (array : Nat) (scrub : PatrolIn)
  | unitFault (dt : Nat) (kind inst : Nat) (work : FaultWork)
  | lockstepMismatch (dt : Nat)
  | sillResume (dt : Nat) (passed : Bool)
  | infieldTestDue (dt : Nat) (kind inst : Nat)
  | infieldTestDone (dt : Nat) (kind inst : Nat) (passed agreed : Bool)
  | suspectAgeExpiry (dt : Nat) (kind inst : Nat)
  | historyWriteback (dt : Nat)
  | mcDelivery (dt : Nat) (delivery : Delivery)
  | coldStart (dt : Nat) (fails : List (Nat × Cell))
  | warmStart (dt : Nat) (fails : List (Nat × Cell))
  | railLoss (dt : Nat) (aonKept : Bool)
  | sleepEntry (dt : Nat)
  | wakeTimerExpiry (dt : Nat)
  | fullWake (dt : Nat)
  | domainWake (dt : Nat) (domain : Nat)
  | domainPark (dt : Nat) (domain : Nat)
  | domainOff (dt : Nat) (domain : Nat)
  | droopTrip (dt : Nat) (sensor : Nat) (deep : Bool)
  | droopRelease (dt : Nat) (sensor : Nat)
  | sleepRequest (dt : Nat) (vset : Nat) (autoGate : Bool)
  | sleepClear (dt : Nat) (vset : Nat) (autoGate : Bool)
  | warmReset (dt : Nat) (vset : Nat) (autoGate sleep : Bool)
  | vsetWrite (dt : Nat) (vset : Nat) (autoGate sleep : Bool)
  | causeClear (dt : Nat) (word hardware : Word)
  | causeMaskWrite (dt : Nat) (word : Word)
  | apertureCtlReset (dt : Nat) (ap : Nat)
  | apertureViolClear (dt : Nat) (ap : Nat) (credit port : Bool) (hardware : Word)
  | marchCtlPreserving (dt : Nat) (target : Bool) (first last : Nat)
  | marchCtlDestructive (dt : Nat) (target : Bool) (first last : Nat)
  | marchCtlAbort (dt : Nat) (target : Bool) (first last : Nat)
  | repairMapReadLo (dt : Nat) (port : Bool)
  | repairMapReadHi (dt : Nat) (port : Bool)
  | loReadLatch (dt : Nat) (port : Bool) (offset : Nat)
  | rcRead (dt : Nat) (port : Bool) (offset size : Nat)
  | camDbgSearch (dt : Nat)
  | camDbgReadRow (dt : Nat)
  | camCorrClear (dt : Nat) (hardware : Bool)
  | registerWrite (dt : Nat) (port : Bool) (offset size : Nat) (data : Nat)
  | ledgerAcknowledgement (dt : Nat) (hdr : MsgHdr)
  | kvTierPauseComplete (dt : Nat) (slot : Nat)
  | waitingGrantRequest (dt : Nat) (tenant : Nat)
  | grpLocateAnswer (dt : Nat) (hdr : MsgHdr) (tag : Nat) (answer : Option (Nat × Nat))
  deriving DecidableEq, Repr

end Sys2Proof
end

