-- ==== Sys2Proof/Decode.lean ====
section
/-! DEFINITION. The command that a table word spells. The operation table gives its rows no bits (every row has an empty
field list), so no word spells a command. -/
namespace Sys2Proof

/-- The command that the low nbits bits of w spell by the table's bits: none, since no row has bits. -/
def decodeTableWord (_nbits _w : Nat) : Option Instr := none

end Sys2Proof
end

