-- ==== Sys2Proof/Config.lean ====
section
/-! DEFINITION. What the manual leaves open and the model keeps free. -/
namespace Sys2Proof

/-- A free 64-bit value (log 2): the value of a field whose contents the manual does not state. The argument is the
draw counter of State, so two draws are unrelated. It has no body: nothing can be proved about its value. -/
opaque Config.freeValue : Nat → BitVec 64

/-- The bytes that the block's own lookup structures add to a section of this body once built (R82, R126; log 21). Free. -/
opaque Config.builtExtra : Bytes → Nat

/-- Bytes of consumed packets that the block can stage for one aperture before it stops consuming it (R78; log 8). Free. -/
opaque Config.ingressRoom : Nat

end Sys2Proof
end

