-- ==== Sys2Proof/Machine/Bits.lean ====
section
/-! DEFINITION. Byte order, bit fields, the CRC-32C of R44 and small list helpers. -/
namespace Sys2Proof.Machine

/-- Bits msb..lsb of a number (R3). -/
def bits (v msb lsb : Nat) : Nat := (v >>> lsb) % 2 ^ (msb + 1 - lsb)

/-- Bit n of a number. -/
def bit (v n : Nat) : Bool := v.testBit n

/-- A flag as a bit at a place. -/
def flag (b : Bool) (n : Nat) : Nat := if b then 2 ^ n else 0

/-- The little-endian value of a byte string (R4). -/
def le : Bytes → Nat
  | [] => 0
  | b :: bs => b.toNat + 256 * le bs

/-- The n bytes of a value, little-endian (R4). -/
def leBytes : Nat → Nat → Bytes
  | 0, _ => []
  | n + 1, v => BitVec.ofNat 8 v :: leBytes n (v / 256)

/-- The n bytes from an offset. -/
def slice (bs : Bytes) (off n : Nat) : Bytes := (bs.drop off).take n

/-- The little-endian field of n bytes at an offset. -/
def rd (bs : Bytes) (off n : Nat) : Nat := le (slice bs off n)

/-- k consecutive fields of n bytes each. -/
def fields (n : Nat) : Nat → Bytes → List Nat
  | 0, _ => []
  | k + 1, bs => le (bs.take n) :: fields n k (bs.drop n)

/-- Whether every byte is zero (R7). -/
def allZero (bs : Bytes) : Bool := bs.all (· == 0#8)

/-- One bit of the reflected CRC-32C. -/
def crcBit (c : Nat) : Nat := if c % 2 == 1 then (c / 2) ^^^ 0x82F63B78 else c / 2

/-- One byte of the reflected CRC-32C. -/
def crcByte (c : Nat) (b : Byte) : Nat :=
  crcBit (crcBit (crcBit (crcBit (crcBit (crcBit (crcBit (crcBit (c ^^^ b.toNat))))))))

/-- CRC-32C, Castagnoli polynomial in reflected form (R44). -/
def crc32c (bs : Bytes) : Nat := (bs.foldl crcByte 0xFFFFFFFF) ^^^ 0xFFFFFFFF

/-- Rounded-up quotient. -/
def ceilDiv (a b : Nat) : Nat := (a + b - 1) / b

/-- A saturating counter of w bits after one more event (R471). -/
def satInc (w c : Nat) : Nat := if c + 1 < 2 ^ w then c + 1 else 2 ^ w - 1

/-- A saturating counter of w bits after k more events. -/
def satAdd (w c k : Nat) : Nat := min (c + k) (2 ^ w - 1)

/-- The list with one place changed. -/
def modifyAt {α : Type} : List α → Nat → (α → α) → List α
  | [], _, _ => []
  | x :: xs, 0, f => f x :: xs
  | x :: xs, n + 1, f => x :: modifyAt xs n f

/-- Insertion before the first element that is not less, for lists kept in ascending order. -/
def insertBy {α : Type} (lt : α → α → Bool) (x : α) : List α → List α
  | [] => [x]
  | y :: ys => if lt y x then y :: insertBy lt x ys else x :: y :: ys

/-- Insertion sort; equal elements keep their order. -/
def sortBy {α : Type} (lt : α → α → Bool) (l : List α) : List α :=
  l.foldr (fun x acc => insertBy lt x acc) []

/-- Whether a list is strictly ascending under a key. -/
def ascending (l : List Nat) : Bool :=
  match l with
  | [] => true
  | x :: xs => (xs.zip (x :: xs)).all (fun p => decide (p.2 < p.1))

/-- The value that a key has in an association list. -/
def assoc {β : Type} (l : List (Nat × β)) (k : Nat) : Option β :=
  (l.find? (fun p => p.1 == k)).map (·.2)

/-- An association list, ascending by key, with one key set. -/
def assocSet {β : Type} (l : List (Nat × β)) (k : Nat) (v : β) : List (Nat × β) :=
  insertBy (fun a b => decide (a.1 < b.1)) (k, v) (l.filter (fun p => p.1 != k))

/-- An association list without a key. -/
def assocDel {β : Type} (l : List (Nat × β)) (k : Nat) : List (Nat × β) := l.filter (fun p => p.1 != k)

/-- The numbers of the bits set in a bit map, ascending. -/
def bitList (width m : Nat) : List Nat := (List.range width).filter (fun i => m.testBit i)

/-- The bit map of a list of bit numbers. -/
def bitMap (l : List Nat) : Nat := l.foldl (fun m i => m ||| 2 ^ i) 0

/-- The least element under a measure, the first of equals. -/
def minBy {α : Type} (f : α → Nat) : List α → Option α
  | [] => none
  | x :: xs =>
    match minBy f xs with
    | none => some x
    | some y => if f y < f x then some y else some x

/-- A list cut into runs of at most n + 1. -/
def chunksAux {α : Type} (n : Nat) : Nat → List α → List (List α)
  | 0, _ => []
  | k + 1, l => if l.isEmpty then [] else l.take (n + 1) :: chunksAux n k (l.drop (n + 1))

/-- A list cut into runs of at most n. -/
def chunksOf {α : Type} (n : Nat) (l : List α) : List (List α) := chunksAux (n - 1) l.length l

/-- A signed 32-bit reading of a field. -/
def signed32 (v : Nat) : Int := if v < 2 ^ 31 then (v : Int) else (v : Int) - 2 ^ 32

end Sys2Proof.Machine
end

