-- ==== Sys2Proof/Machine/State.lean ====
section
/-! DEFINITION. The state of the block: plain data, grouped by the chapter that owns it. Each field's docstring names its
rule and, where it is not the obvious zero, its value at reset. Identifiers, positions, times and counts are natural
numbers; words that software reads or writes whole are bit vectors. -/
namespace Sys2Proof.Machine

/-! ## Packets and records (02) -/

/-- A packet in staging (R35, R43): its place, its header fields and its payload. -/
structure Pkt where
  ap : Nat := 0
  pos : Nat := 0
  opcode : Nat := 0
  flags : Nat := 0
  stream : Nat := 0
  tag : Nat := 0
  imgGen : Nat := 0
  ring : Nat := 0
  arg : Nat := 0
  payload : Bytes := []
  deriving DecidableEq, Repr

/-- A cmp record (R68). -/
structure CmpRec where
  stream : Nat
  tag : Nat
  opcode : Nat
  status : Nat
  state : Nat
  ap : Nat
  info : Nat
  imgGen : Nat
  count : Nat
  pos : Nat
  time : Nat
  r0 : BitVec 64
  r1 : BitVec 64
  r2 : BitVec 64
  deriving DecidableEq, Repr

/-- A txt record (R71). -/
structure TxtRec where
  stream : Nat
  cont : Bool
  step : Nat
  index : Nat
  tflags : Nat
  time : Nat
  data : Bytes
  deriving DecidableEq, Repr

/-- A cand record (R72); entries are model IDs with their shaped logits. -/
structure CandRec where
  stream : Nat
  provisional : Bool
  step : Nat
  node : Nat
  epoch : Nat
  allowed : Nat
  lse : Nat
  mass : Nat
  toppN : Nat
  minpN : Nat
  cflags : Nat
  time : Nat
  entries : List (Nat × Nat)
  deriving DecidableEq, Repr

/-- An evt record (R73). -/
structure EvtRec where
  stream : Nat
  event : Nat
  unit : Nat
  time : Nat
  arg0 : Nat
  arg1 : Nat
  arg2 : Nat
  deriving DecidableEq, Repr

/-- A record of an egress ring (R62). -/
inductive Rec where
  | pad (slots : Nat)
  | cmp (r : CmpRec)
  | txt (r : TxtRec)
  | cand (r : CandRec)
  | evt (r : EvtRec)
  deriving DecidableEq, Repr

/-! ## What leaves the block -/

/-- An entry of a step descriptor (R318, R363). -/
structure StepEntry where
  slot : Nat
  handle : Nat
  kind : Nat
  facets : List Nat
  row : Bool
  profile : Nat
  nodes : Nat
  position : Nat
  tokens : List Nat
  pages : List Nat
  newPages : Nat
  summary : Nat
  parents : List Nat
  epoch : Nat
  depth : Nat
  deriving DecidableEq, Repr

/-- A step descriptor (R318). -/
structure StepDesc where
  step : Nat
  imgGen : Nat
  modelGen : Nat
  sealId : Nat
  time : Nat
  entries : List StepEntry
  deriving DecidableEq, Repr

/-- The payload of a group message that the block sends (R430). -/
inductive GMsg where
  | join (frameCrc time : Nat) (profiles : List (Nat × Nat))
  | welcome (epoch live asleep master deputy time : Nat) (tenants : List BudSet)
  | beat (time live deputy delay : Nat) (figures : List (Nat × Figures))
  | beatAck (echo received : Nat) (figures : Figures)
  | poll
  | pollAns (recent : Bool)
  | takeover (newEpoch newDeputy : Nat)
  | grantReq (tenant units : Nat)
  | grant (tenant units : Nat)
  | ledger (c : LedgerChange)
  | budFwd (b : BudSet) (tag : Nat)
  | budDone (tag status : Nat) (level : Int)
  | chainFind (handle tenant request : Nat)
  | chainAns (request : Nat) (hit : Option ChainRec)
  | pfxCopy (handle tenant : Nat) (pages : List Nat)
  | package (b : PkgBody)
  | sealNotice (sealId kind : Nat)
  | leave (sleep : Bool) (units : List (Nat × Nat))
  | down (lost : Nat)
  | rescue (lost : Nat) (streams : List PkgBody)
  | locate (tag handle group : Nat)
  | located (tag : Nat) (answer : Option (Nat × Nat))
  | migAnswer (oldHandle : Nat) (a : MigAnswer)
  | ledgerAck
  | abandon (oldHandle : Nat)
  deriving DecidableEq, Repr

/-- A location of the fault history (R464): kind 0 SRAM cell, 1 CAM row, 2 KV page. -/
structure Loc where
  kind : Nat
  cls : Nat
  unit : Nat
  bank : Nat
  index : Nat
  fails : Nat
  deriving DecidableEq, Repr

/-- The PCIe attributes of a write to host memory (R32). -/
structure WAttr where
  noSnoop : Bool
  relaxed : Bool
  deriving DecidableEq, Repr

/-- One thing that left the block through one of its boundaries, or was returned to a reader. -/
inductive Out where
  /-- A record written to a ring at a running count and host address, with its PHASE bit (R62); attr are the attributes of the write
  that carries its first 8 bytes, the last of the record (R32, R63). -/
  | record (ring at_ addr : Nat) (attr : WAttr) (phase : Bool) (r : Rec)
  /-- A credit word (R38), with the attributes of its write (R32). -/
  | credit (ap addr value : Nat) (attr : WAttr)
  /-- A read of a ring's head word (R65). -/
  | headRead (ring addr : Nat)
  /-- An MSI-X signal (R75, R481). -/
  | msix (vector : Nat)
  /-- Data returned to a host read (R30, R472). -/
  | readData (port : Bool) (offset size value : Nat)
  /-- A step descriptor (R318). -/
  | step (d : StepDesc)
  /-- A row release or a row resend request (R253). -/
  | rowRelease (step slot node : Nat)
  | rowResend (step slot node : Nat)
  /-- A void request (R375). -/
  | voidRequest (step : Nat)
  /-- A tree resolve: slots and the positions their KV takes (R370). -/
  | treeResolve (step slot : Nat) (moves : List (Nat × Nat))
  /-- Shipping of KV or copying of pages that the block asks of the fabric (R346, R446). -/
  | shipKv (slot dest : Nat)
  | copyKv (handle dest : Nat) (pages : List Nat)
  /-- Pages moved to or from host memory in chain order (R335, R339). -/
  | tierWrite (slot addr : Nat) (pages : List Nat)
  | tierRead (slot addr : Nat) (pages : List Nat)
  /-- A group message under the sender's epoch (R429). -/
  | msg (dest epoch : Nat) (m : GMsg)
  /-- Unit classes and locations written back to the management controller (R465). -/
  | historyWrite (units : List (Nat × Nat)) (locs : List Loc)
  /-- A request to the power manager for VBX_ARR: true asks for 0.80 V (R412, R413). -/
  | arrRail (high : Bool)
  /-- A request for a delivery of the management controller: 0 history, 1 firmware, 2 boot image (R426). -/
  | mcRequest (what : Nat)
  deriving DecidableEq, Repr

/-! ## Always-on domain, clocks and start (13, 16) -/

/-- The state of a fast domain (R406, R409). -/
inductive DomState where
  | off | parked | gated | running
  deriving DecidableEq, Repr

/-- A droop sensor: its two counters (R482), the level it demands (R423: 0 none, 1 halved, 2 quartered). -/
structure Sensor where
  half : Nat := 0
  quarter : Nat := 0
  level : Nat := 0
  deriving DecidableEq, Repr

/-- The block's power phase (R410, R415, R418, R426). -/
inductive Phase where
  | isolated | starting | run | sleep | aonOnly
  deriving DecidableEq, Repr

/-- The always-on domain: time base (R404), step counter (R405, R496), causes (R479, R480), cause signals that wait for
the request domain (R481), power control (R421), droop
(R422 to R424, R482), domains (R406), wake timer (R412). -/
structure Aon where
  time : Nat := 0
  stepCounter : Nat := 0
  cause : Word := 0#32
  lostSrc : Nat := 0
  lostCount : Nat := 0
  causeOwed : Nat := 0
  causeMask : Word := 0#32
  causeVec : Nat := 0xFFFF
  sleepReq : Bool := false
  autoGate : Bool := true
  vset : Nat := 14
  deep : Nat := 1
  thresh : Nat := 5
  sensors : List Sensor := List.replicate 24 {}
  domains : List (DomState × Nat) := List.replicate 7 (.off, 0)
  garnet : Nat := 0
  wakeTimer : Option Nat := none
  deriving DecidableEq, Repr

/-- The stack map (R321). -/
structure StackMap where
  kvBase : Nat := 0
  kvCount : Nat := 0
  ovfBase : Nat := 0
  pauseBase : Nat := 0
  handleBase : Nat := 0
  deriving DecidableEq, Repr

/-- Start-up: the phase, BX_STATUS's start fields (R478), the fails of the start-up march, what the management controller delivered (R85, R321, R426). -/
structure Start where
  phase : Phase := .starting
  step : Nat := 2
  failed : Bool := false
  ready : Bool := false
  warm : Bool := false
  down : Bool := false
  keys : List (Option (Nat × Nat)) := [none, none, none, none]
  fails : List (Nat × Cell) := []
  stackMap : StackMap := {}
  deriving DecidableEq, Repr

/-! ## Ingress (02) -/

/-- A written, not yet consumed DWORD at its aperture position (R34). -/
structure WDword where
  pos : Nat
  val : Word
  whole : Bool
  deriving DecidableEq, Repr

/-- An ingress aperture (R29 to R41, R487). -/
structure Aperture where
  consumed : Nat := 0
  boundTo : Option Bool := none
  halted : Bool := false
  haltPos : Nat := 0
  creditViol : Bool := false
  portViol : Bool := false
  discarded : Nat := 0
  reads : Nat := 0
  creditAddr : Nat := 0
  creditOn : Bool := true
  creditWritten : Nat := 0
  dwords : List WDword := []
  deriving DecidableEq, Repr

/-- A packet that the block has taken up and whose cmp record is still to be written (R68, R152), with the result fields gathered so far; for
enc.text the sash lane that has its segment (R146), and the version that a standalone one is encoded under (R151). For enc.text r1 counts the
transom pieces outstanding, and r2 the tokens of a standalone packet whose segments are finished. -/
structure Work where
  pkt : Pkt
  r0 : Nat := 0
  r1 : Nat := 0
  r2 : Nat := 0
  info : Nat := 0
  lane : Option Nat := none
  vuid : Nat := 0
  deriving DecidableEq, Repr

/-- Ingress: the 64 apertures, staging in order of consumption, the packets at work, and the cmp records that wait for
those of earlier packets of their stream (R55). -/
structure Ingress where
  aps : List Aperture := List.replicate 64 {}
  staged : List Pkt := []
  working : List Work := []
  cmpWait : List (Pkt × CmpRec) := []
  deriving DecidableEq, Repr

/-! ## Egress (02) -/

/-- A cmp record kept back for coalescing (R70): the stream that it holds back while it waits, the position of the packet that may join it,
and since when it is kept. -/
structure Coal where
  rec_ : CmpRec
  who : Option Nat
  next : Nat
  since : Nat
  deriving DecidableEq, Repr

/-- An egress ring (R58 to R67, R75). coal is the cmp record being coalesced; waiting holds each record with the stream it holds back, if any (R66); closing: a
sys.ring that disables the ring waits for its own cmp record to be written (R61). -/
structure Ring where
  enabled : Bool := false
  events : Bool := false
  coalesce : Bool := false
  vector : Nat := 0
  sizeLog2 : Nat := 0
  base : Nat := 0
  headAddr : Nat := 0
  modCount : Nat := 0
  modTime : Nat := 0
  tail : Nat := 0
  head : Nat := 0
  coal : Option Coal := none
  waiting : List (Option Nat × Rec) := []
  closing : Bool := false
  waitSince : Option Nat := none
  stallSent : Bool := false
  lost : Nat := 0
  lastLost : Option Nat := none
  unsig : Nat := 0
  oldest : Option Nat := none
  deriving DecidableEq, Repr

/-- Egress: the 64 rings, the staged evt records and the count of those discarded (R60). -/
structure Egress where
  rings : List Ring := List.replicate 64 {}
  evStaged : List EvtRec := []
  evLost : Nat := 0
  deriving DecidableEq, Repr

/-! ## Images (03, 04, 05, 06) -/

/-- The committed frame (R87). -/
structure Frame where
  personality : Nat := 0
  sigPolicy : Nat := 0
  inGroup : Bool := false
  groupNum : Nat := 0
  master : Nat := 0
  deputy : Nat := 0
  members : Nat := 0
  pools : List Nat := [0, 0, 0, 0, 0, 0]
  beryl : List Nat := List.replicate 32 0
  partition : List (Nat × Nat × Nat × Nat) := List.replicate 16 (0, 0, 0, 0)
  deriving DecidableEq, Repr

/-- A merge entry (R126). -/
structure Merge where
  left : Nat
  right : Nat
  result : Nat
  rank : Nat
  deriving DecidableEq, Repr

/-- A special token (R96): its canonical ID, literal bytes and SPFL. -/
structure Special where
  canon : Nat
  lit : Bytes
  spfl : Nat
  deriving DecidableEq, Repr

/-- A stop entry (R95). -/
structure StopEnt where
  mode : Nat
  bytes : Bytes
  deriving DecidableEq, Repr

/-- The parsed PROFILE body (R93, R98, R122 to R126, R160). -/
structure Profile where
  vocab : Nat := 0
  algo : Nat := 0
  pflags : Nat := 0
  splitStates : Nat := 0
  canonCrc : Nat := 0
  c2m : List Nat := []
  m2c : List Nat := []
  wsflags : Nat := 0
  invalid : Nat := 0
  ucd : Nat := 0
  unkId : Nat := 0
  byteIds : List Nat := []
  splitHdrStates : Nat := 0
  maxBack : Nat := 0
  split : List Nat := []
  offs : List Nat := []
  tokens : List Bytes := []
  merges : List Merge := []
  unkScore : Int := 0
  scores : List Nat := []
  contLen : Nat := 0
  lmflags : Nat := 0
  cont : Bytes := []
  dflags : Nat := 0
  outInvalid : Nat := 0
  deriving DecidableEq, Repr

/-- A piece of a version that occupies space: the KIND of its section, the model's name for it, POOL and NEED (R81, R97). -/
structure Piece where
  kind : Nat
  uid : Nat
  pool : Nat
  need : Nat
  deriving DecidableEq, Repr

/-- A resident profile version (R97, R112, R144, R280): uid is the model's name for it; a derived version shares pieces of its
base. -/
structure Version where
  uid : Nat
  handle : Nat
  litHandle : Nat
  number : Nat
  gen : Nat
  prof : Profile
  special : List Special
  stops : List StopEnt
  bankMap : List Nat
  pieces : List Piece
  inSet : Bool
  faulted : Bool := false
  deriving DecidableEq, Repr

/-- A pane record (R219 to R221): a 2-bit code per pane and one 1,024-bit leaf per mixed pane. -/
structure PaneSet where
  off : Nat := 0
  panes : Nat := 0
  count : Nat := 0
  codes : List Nat := []
  leaves : List Nat := []
  deriving DecidableEq, Repr

/-- An entry of a CD list with its trace (R204). -/
structure CdEnt where
  token : Nat
  cost : Nat
  traceOff : Nat
  finalLex : Nat
  sets : List Nat
  deriving DecidableEq, Repr

/-- A configuration (R203). -/
structure GConfig where
  lex : Nat
  top : Nat
  pane : Nat
  guard : Nat
  cd : List CdEnt
  eclass : Nat
  cost : Nat
  index : Nat
  deriving DecidableEq, Repr

/-- An action entry (R202). kind: 1 shift, 2 reduce, 3 accept. -/
structure ActEnt where
  term : Nat
  kind : Nat
  target : Nat
  deriving DecidableEq, Repr

/-- The Garnet tables (R199 to R204). -/
structure GTables where
  lexStates : Nat := 0
  classes : Nat := 0
  terminals : Nat := 0
  symbols : Nat := 0
  nonterms : Nat := 0
  configs : Nat := 0
  ctSlots : Nat := 0
  popLimit : Nat := 0
  pushLimit : Nat := 0
  cdCost : Nat := 0
  byteClass : List Nat := []
  lexInfo : List (Nat × Nat) := []
  trans : List Nat := []
  tsets : List (List (Bool × Nat)) := []
  action : List (List ActEnt) := []
  gotos : List (List (Nat × Nat)) := []
  rules : List (Nat × Nat) := []
  config : List (Option GConfig) := []
  panes : List PaneSet := []
  ends : List Nat := []
  deriving DecidableEq, Repr

/-- A parsed GRAMMAR body (R94, R199). -/
structure GramBody where
  profile : Nat := 0
  carry : Bool := false
  canonCrc : Nat := 0
  carryFrom : Nat := 0
  cdLimit : Nat := 0
  tab : GTables := {}
  deriving DecidableEq, Repr

/-- A resident grammar (R103, R112 to R117): uid is the model's name for it, need its POOL and NEED. -/
structure Gram where
  uid : Nat
  id : Nat
  body : GramBody
  additive : Bool
  pinned : Bool
  dirCrc : Nat
  gen : Nat
  need : Nat × Nat
  inSet : Bool
  faulted : Bool := false
  lastUse : Nat := 0
  deriving DecidableEq, Repr

/-- A section of a staged image, parsed and checked (R87, R93 to R97), with its POOL and NEED. -/
inductive Section where
  | frame (f : Frame)
  | profile (n pool need : Nat) (p : Profile)
  | grammar (id pool need dirCrc : Nat) (g : GramBody)
  | stop (n pool need : Nat) (l : List StopEnt)
  | special (n pool need : Nat) (l : List Special)
  | remove (isGrammar : Bool) (target : Nat)
  deriving DecidableEq, Repr

/-- State of a load slot (03 "Loading"). -/
inductive SlotState where
  | empty | receiving | staged | committing
  deriving DecidableEq, Repr

/-- A load slot (R101 to R107, R117). vhandles are the version handles it reserved by profile; bases names the version that each
derived version started from (R97); reserved is the space its NEEDs take in the vocabulary and Garnet pools; literals lists for a
Beryl bank the profile of each literal entry reserved there (R280); waitPkt is the packet whose cmp record waits for the slot. -/
structure LoadSlot where
  state : SlotState := .empty
  bytes : Bytes := []
  ap : Nat := 0
  gid : Option Nat := none
  additive : Bool := false
  pinned : Bool := false
  gen : Nat := 0
  total : Nat := 0
  vhandles : List (Nat × Nat) := []
  bases : List (Nat × Nat) := []
  reserved : Nat × Nat := (0, 0)
  literals : List (Nat × List Nat) := []
  entered : Bool := false
  sections : List Section := []
  since : Nat := 0
  waitPkt : Option Pkt := none
  order : Nat := 0
  deriving DecidableEq, Repr

/-- An entry of the Opal memo (04 "The Opal memo"). -/
structure MemoEnt where
  set : Nat
  word : Bytes
  version : Nat
  tokens : List Nat
  age : Nat
  deriving DecidableEq, Repr

/-- A string of the stop-string store (R172). coll: it is in the collision list and not in Beryl. -/
structure StopStr where
  index : Nat
  bytes : Bytes
  refs : Nat
  coll : Bool
  deriving DecidableEq, Repr

/-- The image side of the block. -/
structure Images where
  slots : List LoadSlot := List.replicate 16 {}
  gen : Nat := 0
  frame : Frame := {}
  lastAdditive : Nat := 4095
  nextUid : Nat := 0
  commitSeq : Nat := 0
  versions : List Version := []
  grams : List Gram := []
  memo : List MemoEnt := []
  stopStore : List StopStr := []
  deriving DecidableEq, Repr

/-! ## Streams (10, 11) -/

/-- The stream states of R69, with their codes. -/
inductive SState where
  | opening | prompt | ready | stepping | await | paused | draining | closed
  deriving DecidableEq, Repr

/-- The grammar state of a parse state (R210). -/
inductive GState where
  | none | active | complete | broken
  deriving DecidableEq, Repr

/-- A parse state (R210): the stack is kept bottom first; spilled counts its deepest entries in the overflow slot, and chunks are the pool
indices of the chunks that hold the others, deepest first, so that the last is TOP_CHUNK (R211). -/
structure Parse where
  gid : Nat := 0
  guid : Nat := 0
  gstate : GState := .none
  bcause : Nat := 0
  lex : Nat := 1
  stack : List Nat := []
  spilled : Nat := 0
  chunks : List Nat := []
  refill : Bool := false
  deriving DecidableEq, Repr

/-- The kind of a shutter descriptor (R224). -/
inductive SKind where
  | open | pending | building | ready | heal
  deriving DecidableEq, Repr

/-- What RESULT of a shutter descriptor names: nothing, a cache entry, a private result, a heal list. -/
inductive SResult where
  | none
  | cached (entry : Nat)
  | priv (bits : List Bool) (blocks : List Nat)
  | heal (tokens blocks : List Nat)
  deriving DecidableEq, Repr

/-- A shutter descriptor (R224): base is the offset of the pane record, none for the empty base; guid names the
grammar that base and configuration belong to. -/
structure Shutter where
  kind : SKind := .open
  base : Option Nat := none
  guid : Nat := 0
  result : SResult := .none
  config : Nat := 0
  guard : Bool := false
  endOk : Bool := false
  deriving DecidableEq, Repr

/-- A node of a draft tree (R361). -/
structure TNode where
  token : Nat
  parent : Nat
  depth : Nat
  broken : Bool
  parse : Parse
  shutter : Shutter
  deriving DecidableEq, Repr

/-- A held draft tree (R358 to R362): nodes 1 to COUNT in order. -/
structure Tree where
  record : Nat
  nodes : List TNode
  inStep : Bool
  deriving DecidableEq, Repr

/-- A choice or reply held for its verdict, for credit, or at work (R22, R235, R368): tokens are canonical. -/
structure Choice where
  pkt : Pkt
  token : Nat
  node : Nat
  reply : Bool
  outside : Bool
  arrived : Nat
  deriving DecidableEq, Repr

/-- A commit whose text the louvre slice still has to release (R174): the tokens committed, the count generated before
them, whether generation ends with them, the heal text that the first of them supplies, and what the cmp record reports. -/
structure Commit where
  pkt : Pkt
  step : Nat
  tokens : List Nat
  index : Nat
  ended : Bool
  cut : Bool
  heal : Bytes
  r0 : Nat
  flags : Nat
  waited : Nat
  slice : Option Nat := none
  deriving DecidableEq, Repr

/-- A pause request waiting to take effect (R334, R335, R345). -/
inductive PauseReq where
  | summary (ttl : Nat)
  | tier (ttl addr len : Nat)
  | migrate (dest : Nat)
  deriving DecidableEq, Repr

/-- A pause record (R336): pmode 0 summary, 1 KV tier, 2 KV held by the lintel; then the window, the heal text with the tokens it withholds,
the shaping block with its bias list in model IDs, and the input queue. -/
structure PauseRec where
  pmode : Nat
  ret : SState
  sumSize : Nat
  sumHandle : Nat
  sumLoc : Nat
  expiry : Nat
  tierAddr : Nat
  tierPages : Nat
  window : Bytes := []
  heal : Option (Bytes × List Nat) := none
  rt : Nat := 0
  topP : Nat := 0
  minP : Nat := 0
  topK : Nat := 0
  bias : List (Nat × Nat) := []
  input : List Nat := []
  deriving DecidableEq, Repr

/-- What a stream's outstanding long work is waiting for (R335, R339, R346, R376, R446). -/
inductive Wait where
  | none
  | summaryStep | summaryEvent
  | tierWrites
  | restored
  | migAnswer
  | sealedKv
  | replicaCopy
  deriving DecidableEq, Repr

/-- Identity and settings of a stream (R303, R306, R308, R311). -/
structure Ident where
  slot : Nat
  gen : Nat
  tenant : Nat := 0
  priority : Nat := 0
  policy : Nat := 0
  profile : Nat := 0
  vuid : Nat := 0
  ap : Nat := 0
  ring : Nat := 0
  modelGen : Nat := 0
  pin : Bool := false
  gang : Bool := false
  force : Bool := false
  autoMigrate : Bool := false
  dest : Nat := 0
  specialOut : Nat := 0
  outInvalid : Nat := 0
  pmode : Nat := 0
  maxGen : Nat := 0
  ends : List Nat := []
  rt : Nat := 0
  topP : Nat := 0
  minP : Nat := 0
  topK : Nat := 0
  bias : List (Nat × Nat) := []
  biasHeld : Bool := false
  stops : List (Nat × Nat) := []
  openTime : Nat := 0
  deriving DecidableEq, Repr

/-- Open document and prompt side of a stream (R118 to R121, R149 to R158, R313): the bytes of the open document, the raw
INVALID and NO_SPECIAL bits of its first packet, the tokens of it already appended; heal is the heal text with the tokens it
withholds; times says how many queued tokens arrived when (R319). -/
structure Enc where
  docOpen : Bool := false
  docSeen : Bool := false
  doc : Bytes := []
  docFlags : Nat := 0
  docTokens : Nat := 0
  tail : Nat := 0
  promptDone : Bool := false
  prompt : Nat := 0
  heal : Option (Bytes × List Nat) := none
  times : List (Nat × Nat) := []
  deriving DecidableEq, Repr

/-- Decode state of a stream (05 "Decode state and slices"). outLen counts output bytes, released those given out. -/
structure Dec where
  carry : Bytes := []
  hold : Nat := 0
  window : Bytes := []
  stopped : Bool := false
  deriving DecidableEq, Repr

/-- Latency record (R330, R331, R333): held intervals begin at the three since fields. -/
structure Lat where
  readyTime : Nat := 0
  deadline : Option Nat := none
  ttft : Nat := 0
  tbt : Nat := 0
  lateCount : Nat := 0
  stallLintel : Nat := 0
  stallHold : Nat := 0
  stallRing : Nat := 0
  tbtMax : Nat := 0
  lintelSince : Option Nat := none
  holdSince : Option Nat := none
  ringSince : Option Nat := none
  lastCommit : Option Nat := none
  stalledSince : Nat := 0
  lateStep : Bool := false
  policyDue : Bool := false
  lateSeen : Bool := false
  deriving DecidableEq, Repr

/-- The blocks that a stream holds (R173, R256, R306): of its input queue, head first, its window and its heal text in text staging, of its
bias list in the bias area. held: its text staging is in place, and not in a pause record (R335). -/
structure Blocks where
  queue : List Nat := []
  window : Option Nat := none
  heal : Option Nat := none
  bias : List Nat := []
  held : Bool := true
  deriving DecidableEq, Repr

/-- One stream (R306 and the prose of 10 and 11). kv is the chain of own pages in order. -/
structure Stream where
  id : Ident
  state : SState
  cancelPending : Bool := false
  pausePending : Option (Option Pkt × PauseReq) := none
  lpause : Bool := false
  parse : Parse := {}
  shutter : Shutter := {}
  shaped : List (Nat × Shutter) := []
  kv : List Nat := []
  length : Nat := 0
  generated : Nat := 0
  queue : List Nat := []
  lastStep : Nat := 0
  epoch : Nat := 0
  tree : Option Tree := none
  choice : Option Choice := none
  commit : Option Commit := none
  enc : Enc := {}
  dec : Dec := {}
  blocks : Blocks := {}
  lat : Lat := {}
  pfx : Option Nat := none
  pause : Option PauseRec := none
  wait : Wait := .none
  waitPkt : Option Pkt := none
  sumRelease : Nat := 0
  replayed : Bool := false
  broke : Bool := false
  voided : Bool := false
  resolving : Bool := false
  lintelSum : Option (Nat × Nat × Nat) := none
  migDest : Option Nat := none
  deriving DecidableEq, Repr

/-- A forwarding slot (R305). -/
structure Forward where
  slot : Nat
  gen : Nat
  dest : Nat
  newHandle : Nat
  deriving DecidableEq, Repr

/-- An entry of the shutter cache (R229 to R232). -/
structure CacheEnt where
  num : Nat
  guid : Nat
  config : Nat
  guard : Bool
  top : List Nat
  bits : List Bool
  blocks : List Nat
  lastNamed : Nat
  deriving DecidableEq, Repr

/-- A shutter build queued or running (R227, R228, R360): node 0 is the stream's own shutter; share is the casement
clocks charged to each unit of units that has not returned it (R236). A build that is granted counts from clock, in the time of the garnet
domain, to its bound in ns (R237, R238); sole holds the units on which no other build is granted until it completes (R236); missed says
that it counts as a miss already (R232). -/
structure Build where
  slot : Nat
  node : Nat
  background : Bool
  running : Bool
  units : List Nat
  share : Nat
  blocks : Nat
  began : Nat
  clock : Nat := 0
  bound : Nat := 0
  sole : List Nat := []
  missed : Bool := false
  deriving DecidableEq, Repr

/-- Streams and their shared stores; memCancel lists the handles whose next packet completes with CANCELLED (R384). -/
structure Streams where
  freeNext : Nat := 0
  freeTail : List Nat := []
  gens : List (Nat × Nat) := []
  quarantine : List (Nat × Nat) := []
  forwards : List Forward := []
  withdrawn : List Nat := []
  tab : List Stream := []
  cache : List CacheEnt := []
  nextCache : Nat := 0
  builds : List Build := []
  waitingChoices : List Nat := []
  memCancel : List Nat := []
  deriving DecidableEq, Repr

/-! ## Steps, facets, lintel (08, 10, 11) -/

/-- Where the verdict of a step stands (R374, R375). -/
inductive Verdict where
  | waiting | passed | replaying
  deriving DecidableEq, Repr

/-- A step issued whose PASS verdict has not arrived, or whose rows are still being shaped (R317, R374). reported lists
the slots of row-less entries whose work is written, released the summary handles of its release entries that are reported, discarded the
rows that a cancellation has given up before the fence (R270). -/
structure Step where
  desc : StepDesc
  verdict : Verdict
  replay : Bool
  rowsLeft : List (Nat × Nat)
  reported : List Nat
  released : List Nat
  discarded : List (Nat × Nat)
  lastResult : Option Nat
  deriving DecidableEq, Repr

/-- A row being received, parked or shaped (R249 to R253, R268 to R271): next is the pane that each facet's channel brings next,
panes the logits received so far as binary32 encodings, desc the shutter descriptor that the facet has latched for it, its CD result
resolved (R264). -/
structure Row where
  step : Nat
  slot : Nat
  node : Nat
  facets : List Nat
  format : Option Nat
  next : List (Nat × Nat)
  panes : List (Nat × List Nat)
  parked : Bool
  desc : Option Shutter
  deriving DecidableEq, Repr

/-- The Hinge scheduler's side: steps in the fabric, rows, the rows whose first delivery was faulty (R252), parking reserved as
step, slot, node and blocks (R268), the lintel, what lintel.lower recorded (R352 to R354). shut tells that admission has closed,
closing is the lintel.raise without its cmp record yet, sumLintel the streams whose summary it still has to issue. -/
structure Sched where
  steps : List Step := []
  rows : List Row := []
  faulted : List (Nat × Nat × Nat) := []
  parkedReserve : List (Nat × Nat × Nat × Nat) := []
  lastIssue : Nat := 0
  raised : Bool := true
  shut : Bool := true
  closing : Option Pkt := none
  closingMask : Nat := 0
  sumWanted : List Nat := []
  sumLintel : List Nat := []
  waitingLower : List Pkt := []
  modelGen : Nat := 0
  tokensPerPage : Nat := 0
  maxContext : Nat := 0
  lowered : Bool := false
  canon : List (Option Nat) := List.replicate 16 none
  relSummaries : List Nat := []
  nonfinite : Nat := 0
  deriving DecidableEq, Repr

/-! ## Pages, budgets, handles (10) -/

/-- State of a ledger page (R322). -/
inductive PageState where
  | stream | handle | rollback | transit | retired
  deriving DecidableEq, Repr

/-- A ledger entry that is not FREE (R322): next is none when END is set. -/
structure PageEnt where
  page : Nat
  state : PageState
  next : Option Nat
  deriving DecidableEq, Repr

/-- What a bud.set found in a budget record, for a charge of the same clock (R329): the time of the bud.set, the level and weights then
in force, and whether the level depends on them still. -/
structure BudTie where
  at_ : Nat
  level : Int
  wPrompt : Nat
  wGen : Nat
  kept : Bool
  deriving DecidableEq, Repr

/-- A budget record (R325 to R327, R442). num is its record index (R278), level counts 1/256 token, rem the remainder of
the refill in 10^-9 unit; requested: a GRANT_REQ is outstanding; tie what the last bud.set found (R329). -/
structure Budget where
  num : Nat
  tenant : Nat
  rate : Nat
  burst : Nat
  wPrompt : Nat
  wGen : Nat
  level : Int
  rem : Nat
  last : Nat
  requested : Bool := false
  tie : Option BudTie := none
  deriving DecidableEq, Repr

/-- A prefix record (R340). -/
structure PfxRec where
  num : Nat
  handle : Nat
  tenant : Nat
  parent : Option Nat
  length : Nat
  pages : List Nat
  attach : Nat
  summary : Nat
  canonCrc : Nat
  modelGen : Nat
  profile : Nat
  dropped : Bool
  replica : Bool
  depth : Nat
  deriving DecidableEq, Repr

/-- Pages, budgets, held tenants, prefix records. -/
structure Stores where
  ledger : List PageEnt := []
  nextPage : Nat := 0
  budgets : List Budget := []
  pfx : List PfxRec := []
  deriving DecidableEq, Repr

/-! ## Beryl (09) -/

/-- A row of a physical bank (R275). -/
structure BRow where
  bank : Nat
  row : Nat
  bits : BitVec 120
  deriving DecidableEq, Repr

/-- A move that opens a hole for an insert (R291 to R293): the logical bank, the run of entries moved, its direction, the
hole, and the entry that goes there from a channel. ran: the run has moved, and the insert's final write waits for a slot (R295);
capped: the wait is counted. -/
structure Move where
  bank : Nat
  lo : Nat
  hi : Nat
  down : Bool
  hole : Nat
  channel : Nat
  entry : BerylEntry
  ran : Bool := false
  capped : Bool := false
  deriving DecidableEq, Repr

/-- A three-step update between its invalidate and its validate step (R296): the logical bank, the channel, the update, the index of
its entry, what is written there, and whether the write step is done. -/
structure StepWin where
  bank : Nat
  channel : Nat
  update : BerylUpdate
  index : Nat
  entry : BerylEntry
  wrote : Bool
  deriving DecidableEq, Repr

/-- An update that waits for its bank or for the next window (R292, R295, R299); capped: the cap's wait is counted. -/
structure HeldUpd where
  channel : Nat
  bank : Nat
  update : BerylUpdate
  capped : Bool
  deriving DecidableEq, Repr

/-- A search that waits for a reload or across a three-step window (R298, R299); retried: it was repeated after a false hit (R288). -/
structure HeldReq where
  req : SearchReq
  retried : Bool
  deriving DecidableEq, Repr

/-- Beryl: bank map and spares (R274, R299, R300), array rows and shadow words, excluded entries, moves, held searches,
counters (R302), scrubber, debug registers (R492, R493). window holds for a bank the number of the last 64-clock window and the slots
stolen in it (R295); windows are the three-step updates in progress, at most one of a bank; lost are the entries, by use, that a lost
bank left without a place (R300); dbgWaitRow: a debug read waits for the row port. -/
structure Beryl where
  map : List (Option Nat) := (List.range 32).map some
  failed : List Nat := []
  reloading : List Nat := []
  rows : List BRow := []
  shadow : List BRow := []
  excluded : List (Nat × Nat) := []
  moves : List Move := []
  window : List (Nat × Nat × Nat) := []
  windows : List StepWin := []
  heldSearch : List HeldReq := []
  heldUpdate : List HeldUpd := []
  lost : List (Nat × BerylEntry) := []
  lastWon : List Nat := List.replicate 34 31
  counters : List (List Nat) := List.replicate 34 (List.replicate 10 0)
  scrubPos : List Nat := List.replicate 34 0
  lastPass : List Nat := List.replicate 34 0
  results : List (Nat × BitVec 128) := []
  dbgKey : BitVec 256 := 0#256
  dbgMask : BitVec 256 := 0#256
  dbgSel : Word := 0#32
  dbgParm : Word := 0#32
  dbgRowSel : Word := 0#32
  dbgBusy : Bool := false
  dbgWaitRow : Bool := false
  dbgDone : Bool := false
  dbgRes : BitVec 128 := 0#128
  dbgRow : BitVec 128 := 0#128
  dbgShadow : BitVec 128 := 0#128
  corrValid : Bool := false
  corrUse : Nat := 0
  corrBank : Nat := 0
  corrRow : Nat := 0
  corrOver : Nat := 0
  cleanTime : Nat := 0
  fixTime : Nat := 0
  deriving DecidableEq, Repr

/-! ## Memory test and repair, units, history (12, 15, 16) -/

/-- The march engine (R387 to R396, R485): waiting lists the arrays of a destructive march that are still in use, nextUnit the next
unit of the range to begin, pos the next row of each array under test and skipped the rows put off, with how often; camBank is the
physical bank under test. -/
structure March where
  running : Bool := false
  byReg : Bool := false
  mode : Nat := 0
  target : Nat := 0
  first : Nat := 0
  last : Nat := 0
  pkt : Option Pkt := none
  waiting : List Nat := []
  requested : Nat := 0
  nextUnit : Nat := 0
  pos : List (Nat × Nat) := []
  skipped : List (Nat × Nat × Nat) := []
  rows : Nat := 0
  fails : Nat := 0
  spares : Nat := 0
  yields : Nat := 0
  untested : Nat := 0
  aborting : Bool := false
  camBank : Option Nat := none
  lastStatus : Nat := 0xFF
  deriving DecidableEq, Repr

/-- An entry of the repair map (R401). -/
structure Repair where
  kind : Nat
  source : Nat
  unit : Nat
  bank : Nat
  index : Nat
  spare : Nat
  deriving DecidableEq, Repr

/-- Error counters of one array (R490). -/
structure MemCnt where
  ue : Nat := 0
  ce : Nat := 0
  lastUe : Bool := false
  bank : Nat := 0
  row : Nat := 0
  bit : Nat := 0
  deriving DecidableEq, Repr

/-- A unit of the fault history (R461, R464, R489). cls: 0 GOOD, 1 SUSPECT, 2 PERMANENT. testing: the in-field test
under way: 0 none, 1 scheduled, 2 requested, 3 classification, asked for at testAsked; due: since when a scheduled test is due;
age counts the seconds of service that a SUSPECT unit brought with it to suspectSince. -/
structure FUnit where
  kind : Nat
  inst : Nat
  cls : Nat := 0
  transients : Nat := 0
  age : Nat := 0
  tests : Nat := 0
  inService : Bool := true
  testing : Nat := 0
  testAsked : Nat := 0
  testStart : Option Nat := none
  due : Option Nat := none
  suspectSince : Nat := 0
  testPkt : Option Pkt := none
  faults : Nat := 0
  work : FaultWork := .none
  deriving DecidableEq, Repr

/-- The 148 units in history order (R464), as an empty fault history leaves them; before the history is applied none is in service (R10,
R489). -/
def unitsAtReset : List FUnit :=
  (List.range 16).map (fun i => { kind := 0, inst := i }) ++
  (List.range 16).map (fun i => { kind := 1, inst := i }) ++
  (List.range 64).map (fun i => { kind := 2, inst := i }) ++
  (List.range 16).map (fun i => { kind := 3, inst := i }) ++
  (List.range 34).map (fun i => { kind := 4, inst := i }) ++
  [{ kind := 5, inst := 0 }, { kind := 6, inst := 0 }]

/-- Memory, repair, units, history, the Sill core and the block counters. badSpares lists the spares that have failed a march (R387, R398) by
KIND of R401, unit, bank and number. -/
structure Mem where
  march : March := {}
  repair : List Repair := []
  repairIdx : Nat := 0
  repairChanges : Nat := 0
  badSpares : List (Nat × Nat × Nat × Nat) := []
  repairLatch : List (Bool × Nat) := []
  cnt : List MemCnt := List.replicate 88 {}
  withdrawn : List Nat := []
  noAlloc : List Nat := []
  lostPages : Nat := 0
  patrolPos : List Nat := List.replicate 88 0
  units : List FUnit := unitsAtReset.map (fun u => { u with inService := false })
  locs : List Loc := []
  workFaults : Nat := 0
  workRun : List (FaultWork × List (Nat × Nat)) := []
  unwrittenUnits : List Nat := []
  unwrittenLocs : List Loc := []
  lastWriteback : Nat := 0
  loans : List (Nat × Nat × Nat) := []
  sillHalted : Bool := false
  journal : Option Pkt := none
  evQueue : Nat := 0
  stbValid : Bool := false
  stbCount : Nat := 0
  stbWord : Nat := 0
  blockCnt : List Nat := [0, 0, 0, 0, 0, 0]
  hiLatch : List (Bool × Nat × Nat) := []
  deriving DecidableEq, Repr

/-! ## Cascade (14) -/

/-- The cascade states of R431. -/
inductive CState where
  | alone | forming | member | deputy | master | orphan | left
  deriving DecidableEq, Repr

/-- What waits for the deputy's acknowledgement of a LEDGER (R441). -/
inductive Owed where
  | grant (dest tenant units : Nat)
  | budDone (dest tag status : Nat) (level : Int)
  | localDone (pkt : Pkt) (status : Nat) (level : Int)
  deriving DecidableEq, Repr

/-- What a chained lookup is for (R444). -/
structure Chain where
  request : Nat
  pkt : Pkt
  handle : Nat
  tenant : Nat
  isOpen : Bool
  asked : Nat
  answered : List (Nat × Option ChainRec)
  sent : Nat
  deriving DecidableEq, Repr

/-- A package in an OPENING entry (R347, R378): isHeld while its seal notice is out, arrived once its KV is there. -/
structure Sealed where
  source : Nat
  slot : Nat
  body : PkgBody
  pages : List Nat
  isHeld : Bool
  arrived : Bool
  deriving DecidableEq, Repr

/-- The cascade side. joins holds the sources and time bases of JOIN messages with this frame's CRC; acks when each member last
acknowledged; slew the ns left to slew (R439); owed what each acknowledgement still to come from the deputy lets happen, in order
(R441); lost the blocks whose DOWN has come and that are still to be rescued; rescues the streams re-created whose new handle is not
known yet, as lost block, old handle, member (R450). -/
structure Casc where
  st : CState := .alone
  epoch : Nat := 0
  master : Nat := 0
  deputy : Nat := 0
  live : Nat := 0
  asleep : Nat := 0
  welcomed : Bool := false
  joining : Bool := false
  lastBeat : Nat := 0
  acks : List (Nat × Nat) := []
  delays : List (Nat × Nat) := []
  figures : List (Nat × Figures) := []
  slew : Int := 0
  lastSlew : Nat := 0
  joins : List (Nat × Nat) := []
  firstJoin : Option Nat := none
  lastJoin : Nat := 0
  polls : List Nat := []
  ledger : List Budget := []
  reqWaiting : List (Nat × Nat × Nat) := []
  owed : List (List Owed) := []
  fwd : List (Nat × Pkt × BudSet) := []
  chains : List Chain := []
  nextReq : Nat := 0
  copies : List (Nat × Nat × Nat × Pkt) := []
  serving : List (Nat × Nat) := []
  held : List Sealed := []
  lost : List Nat := []
  rescues : List (Nat × Nat × Nat) := []
  rescueList : List ((Nat × Nat) × (Nat × Nat)) := []
  locates : List (Nat × Pkt) := []
  deriving DecidableEq, Repr

/-! ## The whole -/

/-- The state of the block. -/
structure State where
  /-- The commands that wait, first in, first out (the task's queue). -/
  pending : List Instr := []
  /-- What left the block, oldest first (the model's own record). -/
  out : List Out := []
  /-- Draws of free values so far (log 2; the model's own). -/
  freeCtr : Nat := 0
  aon : Aon := {}
  start : Start := {}
  ing : Ingress := {}
  egr : Egress := {}
  img : Images := {}
  str : Streams := {}
  sch : Sched := {}
  sto : Stores := {}
  ber : Beryl := {}
  mem : Mem := {}
  cas : Casc := {}
  deriving DecidableEq, Repr

/-- The block as it leaves isolation (R10): every field at its reset value, start-up in step 2 (R478). -/
def State.reset : State := {}

/-- Faults: the manual has no event that stops the machine, so the one fault is never raised by a command that can
reach the block. -/
inductive Fault where
  /-- Raised by no command: the manual reports every fault in status codes, cause bits and records, and goes on. Safe. -/
  | machineStop
  deriving DecidableEq, Repr

/-- Refusals. -/
inductive Refusal where
  /-- Raised only by exec's arms for a command that has no meaning yet: by none now. Safe. -/
  | notModelled (mnemonic : String)
  deriving DecidableEq, Repr

/-- The result of a command. -/
abbrev Res := Host.Outcome State Fault Refusal

end Sys2Proof.Machine
end

