-- ==== Sys2Proof/Machine/Flags.lean ====
section
/-! DEFINITION. Codes and flags: status codes (R52), INFO and RFLAGS, stream state codes (R69), event codes (R74), cause
bits (R479), and the byte layouts of records (R62, R68, R71 to R73). -/
namespace Sys2Proof.Machine

/-! ### Status codes (R52) -/

def stOk : Nat := 0x00
def stBadPacket : Nat := 0x10
def stBadCrc : Nat := 0x11
def stUnknownOp : Nat := 0x12
def stStateConflict : Nat := 0x20
def stStaleHandle : Nat := 0x21
def stNoSpace : Nat := 0x22
def stDisallowed : Nat := 0x23
def stOverBudget : Nat := 0x24
def stNotResident : Nat := 0x25
def stCancelled : Nat := 0x30
def stVoided : Nat := 0x31
def stReplayed : Nat := 0x32
def stLate : Nat := 0x33
def stBlockDown : Nat := 0x40
def stGroupMoved : Nat := 0x41

/-- INFO of a cmp record: HELD, REPLAYED, LATE (R68). -/
def infoOf (held replayed late : Bool) : Nat := flag held 0 + flag replayed 1 + flag late 2

/-- STATUS of a packet whose work was done, from its INFO (R53): the first of OVER_BUDGET, REPLAYED and LATE that
applies, else OK. -/
def statusOfInfo (info : Nat) : Nat :=
  if bit info 0 then stOverBudget else if bit info 1 then stReplayed else if bit info 2 then stLate else stOk

/-! ### Stream states (R69) -/

/-- The code of a stream state. -/
def stateCode : SState → Nat
  | .opening => 1
  | .prompt => 2
  | .ready => 3
  | .stepping => 4
  | .await => 5
  | .paused => 6
  | .draining => 7
  | .closed => 8

/-- The state that a code names, for the states a package or a pause record can carry. -/
def stateOfCode : Nat → SState
  | 1 => .opening
  | 2 => .prompt
  | 3 => .ready
  | 4 => .stepping
  | 5 => .await
  | 6 => .paused
  | 7 => .draining
  | _ => .closed

/-- STATE where no live stream is named (R69). -/
def noState : Nat := 0xFF

/-! ### Event codes (R74) -/

def evReady : Nat := 0x0001
def evCapacity : Nat := 0x0002
def evHeld : Nat := 0x0003
def evUnheld : Nat := 0x0004
def evApertureHalt : Nat := 0x0005
def evImage : Nat := 0x0006
def evLintel : Nat := 0x0007
def evPauseExpired : Nat := 0x0008
def evDeadline : Nat := 0x0009
def evGroup : Nat := 0x000A
def evBlockDown : Nat := 0x000B
def evRingStall : Nat := 0x000C
def evRecordsLost : Nat := 0x000D
def evEventsLost : Nat := 0x000E
def evRingFault : Nat := 0x000F

/-- The events that are signalled at once, whatever the moderation (R77). -/
def urgentEvent (e : Nat) : Bool :=
  [evReady, evCapacity, evApertureHalt, evLintel, evGroup, evBlockDown, evRingStall, evRingFault].contains e

/-! ### Cause bits (R479) -/

def cBootImage : Nat := 0
def cStackMap : Nat := 1
def cMemRepair : Nat := 2
def cHistory : Nat := 3
def cAptPort : Nat := 4
def cAptCredit : Nat := 5
def cRingFault : Nat := 6
def cFabricProto : Nat := 7
def cMemUncorr : Nat := 8
def cBerylLoss : Nat := 9
def cPageExhaust : Nat := 10
def cUnitFault : Nat := 11
def cUnitLoss : Nat := 12
def cRailLoss : Nat := 13
def cGroupFrame : Nat := 14
def cGroupTime : Nat := 15
def cLockstep : Nat := 16
def cBlockDown : Nat := 17
def cCamCorr : Nat := 18

/-! ### Block counters (R491), by their place from 0x0F00 -/

def bcStopFalse : Nat := 0
def bcNonfinite : Nat := 1
def bcShutterMiss : Nat := 2
def bcRecordsLost : Nat := 3
def bcGrpDiscard : Nat := 4
def bcHistDiscard : Nat := 5

/-! ### Host writes (R32) -/

/-- The attributes of every write that carries a record's first 8 bytes or a credit count: no no-snoop, no Relaxed Ordering. -/
def strictWrite : WAttr := { noSnoop := false, relaxed := false }

/-! ### Record layouts -/

/-- Slots of a record of n bytes: the smallest number of 64-byte slots (R62, R71). -/
def slotsFor (n : Nat) : Nat := ceilDiv n 64

/-- Length of a record in slots (R62, R68, R71, R72, R73). -/
def recSlots : Rec → Nat
  | .pad n => n
  | .cmp _ => 1
  | .txt r => slotsFor (32 + r.data.length)
  | .cand r => slotsFor (64 + 8 * r.entries.length)
  | .evt _ => 1

/-- KIND of a record (R62). -/
def recKind : Rec → Nat
  | .pad _ => 0
  | .cmp _ => 1
  | .txt _ => 2
  | .cand _ => 3
  | .evt _ => 4

/-- STREAM of a record's header (R62). -/
def recStream : Rec → Nat
  | .pad _ => 0
  | .cmp r => r.stream
  | .txt r => r.stream
  | .cand r => r.stream
  | .evt r => r.stream

/-- RFLAGS of a record written in a pass whose PHASE is given (R62). -/
def recFlags (phase : Bool) : Rec → Nat
  | .txt r => flag phase 0 + flag r.cont 1
  | .cand r => flag phase 0 + flag r.provisional 2
  | _ => flag phase 0

/-- The record header (R62). -/
def recHeader (phase : Bool) (r : Rec) : Bytes :=
  leBytes 1 (recKind r) ++ leBytes 1 (recFlags phase r) ++ leBytes 2 (recSlots r) ++ leBytes 4 (recStream r)

/-- The bytes of a record from its header on, as the host finds them in the ring (R68, R71 to R73). -/
def recBytes (phase : Bool) (r : Rec) : Bytes :=
  recHeader phase r ++
  match r with
  | .pad _ => []
  | .cmp c =>
    leBytes 4 c.tag ++ leBytes 2 c.opcode ++ leBytes 1 c.status ++ leBytes 1 c.state ++ leBytes 1 c.ap ++
    leBytes 1 c.info ++ leBytes 2 c.imgGen ++ leBytes 2 c.count ++ leBytes 2 0 ++ leBytes 8 c.pos ++
    leBytes 8 c.time ++ leBytes 8 c.r0.toNat ++ leBytes 8 c.r1.toNat ++ leBytes 8 c.r2.toNat
  | .txt t =>
    leBytes 8 t.step ++ leBytes 4 t.index ++ leBytes 2 t.data.length ++ leBytes 1 t.tflags ++ leBytes 1 0 ++
    leBytes 8 t.time ++ t.data
  | .cand c =>
    leBytes 8 c.step ++ leBytes 1 c.node ++ leBytes 1 c.epoch ++ leBytes 2 c.entries.length ++
    leBytes 4 c.allowed ++ leBytes 4 c.lse ++ leBytes 4 c.mass ++ leBytes 2 c.toppN ++ leBytes 2 c.minpN ++
    leBytes 1 c.cflags ++ leBytes 3 0 ++ leBytes 8 c.time ++ leBytes 16 0 ++
    c.entries.flatMap (fun e => leBytes 4 e.1 ++ leBytes 4 e.2)
  | .evt e =>
    leBytes 2 e.event ++ leBytes 2 e.unit ++ leBytes 4 0 ++ leBytes 8 e.time ++ leBytes 8 e.arg0 ++
    leBytes 8 e.arg1 ++ leBytes 8 e.arg2 ++ leBytes 16 0

end Sys2Proof.Machine
end

