-- ==== Sys2Proof/Machine/Ops.lean ====
section
/-! DEFINITION. The named operations that every chapter shares: parts of the state, the time base, what leaves the block,
causes, free values, egress rings, events and cmp records. -/
namespace Sys2Proof.Machine
open Sys2Proof

/-! ### Parts of the state -/

def State.onAon (f : Aon → Aon) (s : State) : State := { s with aon := f s.aon }
def State.onStart (f : Start → Start) (s : State) : State := { s with start := f s.start }
def State.onIng (f : Ingress → Ingress) (s : State) : State := { s with ing := f s.ing }
def State.onEgr (f : Egress → Egress) (s : State) : State := { s with egr := f s.egr }
def State.onImg (f : Images → Images) (s : State) : State := { s with img := f s.img }
def State.onStr (f : Streams → Streams) (s : State) : State := { s with str := f s.str }
def State.onSch (f : Sched → Sched) (s : State) : State := { s with sch := f s.sch }
def State.onSto (f : Stores → Stores) (s : State) : State := { s with sto := f s.sto }
def State.onBer (f : Beryl → Beryl) (s : State) : State := { s with ber := f s.ber }
def State.onMem (f : Mem → Mem) (s : State) : State := { s with mem := f s.mem }
def State.onCas (f : Casc → Casc) (s : State) : State := { s with cas := f s.cas }

/-- One more thing that left the block. -/
def State.emit (o : Out) (s : State) : State := { s with out := s.out ++ [o] }

/-- Several things that left the block, in order. -/
def State.emits (l : List Out) (s : State) : State := { s with out := s.out ++ l }

/-! ### Time (R404, log 1) -/

/-- The domain of a droop sensor (R482). -/
def sensorDomain (n : Nat) : Nat :=
  if n < 4 then 0 else if n < 8 then 1 else if n < 11 then 2 else if n < 15 then 3 else if n < 19 then 4
  else if n < 22 then 5 else 6

/-- The droop level of a domain: the deepest of its sensors (R409, R423). -/
def Aon.droopLevel (a : Aon) (d : Nat) : Nat :=
  ((a.sensors.zipIdx).filter (fun x => sensorDomain x.2 == d)).foldl (fun m x => max m x.1.level) 0

/-- Sixteenths of its full rate at which the garnet domain runs: three quarters below 0.70 V (R420), halved or quartered by droop (R423). -/
def Aon.garnetRate (a : Aon) : Nat := (if a.vset < 10 then 12 else 16) / 2 ^ a.droopLevel 4

/-- Whether packets are staged or at work. -/
def State.packetsIn (s : State) : Bool := !s.ing.staged.isEmpty || !s.ing.working.isEmpty

/-- Whether work holds a domain's units (R403, R407). -/
def State.domainBusy (s : State) (d : Nat) : Bool :=
  match d with
  | 0 => s.packetsIn || !s.sch.steps.isEmpty || s.mem.march.running
  | 1 => s.ing.working.any (fun w => w.pkt.opcode == 0x0401)
  | 2 => s.ing.working.any (fun w => w.pkt.opcode == 0x0501) || s.str.tab.any (fun t => t.commit.isSome)
  | 3 => !s.sch.rows.isEmpty
  | 4 => !s.str.builds.isEmpty
  | 5 => !s.ber.moves.isEmpty || !s.ber.windows.isEmpty || !s.ber.reloading.isEmpty || !s.ber.heldSearch.isEmpty || !s.ber.heldUpdate.isEmpty
  | 6 => !s.start.ready || s.packetsIn
  | _ => false

/-- The states of the domains as their work has left them (R406, R407): a domain runs while work holds its units, wakes for work that has reached it,
and is gated from the moment the work is gone. -/
def State.clocked (s : State) : List (DomState × Nat) :=
  (s.aon.domains.zipIdx).map (fun x =>
    if s.domainBusy x.2 && x.1.1 != .running then (.running, s.aon.time)
    else if !s.domainBusy x.2 && x.1.1 == .running then (.gated, s.aon.time)
    else x.1)

/-- The time base moves by the command's dt (log 1), and the garnet domain's own time as far as its clock runs (R238); the domains follow the work
that the command before has left (R407, log 10). -/
def State.elapse (dt : Nat) (s : State) : State :=
  s.onAon (fun a => { a with
    time := a.time + dt, garnet := a.garnet + dt * a.garnetRate,
    domains := if 0 < dt && s.start.phase == .run then s.clocked else a.domains })

/-- The state of fast domain d. -/
def State.domain (s : State) (d : Nat) : DomState := (s.aon.domains.getD d (.off, 0)).1

/-- Whether fast domain d has its clock: RUNNING, or GATED and so back within 20 ns (R406, log 10). -/
def State.awake (s : State) (d : Nat) : Bool := s.domain d == .running || s.domain d == .gated

/-- The time that the block reports: to 40 ns while the request domain does not run (R404). -/
def State.now (s : State) : Nat := if s.awake 0 then s.aon.time else s.aon.time / 40 * 40

/-! ### Free values (log 2) -/

/-- The next free value. -/
def State.free (s : State) : BitVec 64 := Config.freeValue s.freeCtr

/-- The state after one draw. -/
def State.drawn (s : State) : State := { s with freeCtr := s.freeCtr + 1 }

/-! ### Causes and block counters (R479 to R481, R491) -/

/-- Signals the cause vector, or leaves the signal owed while the request domain does not run (R481). -/
def State.signalCause (s : State) : State :=
  if !s.awake 0 then s.onAon (fun a => { a with causeOwed := a.causeOwed + 1 })
  else if s.aon.causeVec == 0xFFFF then s
  else s.emit (.msix s.aon.causeVec)

/-- Sets bit n of BX_CAUSE; an enabled bit that goes from 0 to 1 signals (R479, R481). -/
def State.raise (n : Nat) (s : State) : State :=
  if s.aon.cause.getLsbD n then s
  else
    let s1 := s.onAon (fun a => { a with cause := a.cause ||| BitVec.ofNat 32 (2 ^ n) })
    if s.aon.causeMask.getLsbD n then s1.signalCause else s1

/-- Signals owed are sent when the request domain runs again (R481). -/
def State.signalOwed (s : State) : State :=
  let k := s.aon.causeOwed
  let s1 := s.onAon (fun a => { a with causeOwed := 0 })
  if s.aon.causeVec == 0xFFFF then s1 else s1.emits (List.replicate k (.msix s.aon.causeVec))

/-- Block counter i counts k more events and saturates (R471, R491). -/
def State.count (i k : Nat) (s : State) : State :=
  s.onMem (fun m => { m with blockCnt := modifyAt m.blockCnt i (fun c => satAdd 32 c k) })

/-! ### Streams (R303, R306) -/

/-- The slot of a stream handle. -/
def slotOf (h : Nat) : Nat := bits h 17 0

/-- The generation of a stream handle. -/
def genOf (h : Nat) : Nat := bits h 31 18

/-- The handle of a slot and generation. -/
def handleOf (slot gen : Nat) : Nat := slot + gen * 2 ^ 18

/-- The handle of a stream. -/
def Stream.handle (t : Stream) : Nat := handleOf t.id.slot t.id.gen

/-! ### Rings and records (R58 to R66, R75 to R77) -/

/-- Ring n. -/
def State.ring (s : State) (n : Nat) : Ring := s.egr.rings.getD n {}

/-- Changes ring n. -/
def State.onRing (n : Nat) (f : Ring → Ring) (s : State) : State :=
  s.onEgr (fun e => { e with rings := modifyAt e.rings n f })

/-- Size of a ring in bytes. -/
def Ring.size (g : Ring) : Nat := 2 ^ g.sizeLog2

/-- Bytes of the pad record that a record of n bytes needs before it (R64). -/
def Ring.padFor (g : Ring) (n : Nat) : Nat :=
  if g.tail % g.size + n > g.size then g.size - g.tail % g.size else 0

/-- PHASE at a running count: set in even passes (R62). -/
def Ring.phaseAt (g : Ring) (pos : Nat) : Bool := pos / g.size % 2 == 0

/-- Whether a record and its pad fit below the host's consumed count plus the ring size (R65). -/
def Ring.fits (g : Ring) (r : Rec) : Bool :=
  let n := 64 * recSlots r
  decide (g.tail + g.padFor n + n ≤ g.head + g.size)

/-- Signals ring n's vector: the signal covers every record written before it (R75). -/
def State.signalRing (n : Nat) (s : State) : State :=
  (s.onRing n (fun g => { g with unsig := 0, oldest := none })).emit (.msix (s.ring n).vector)

/-- Whether an evt record is signalled at once (R77). -/
def urgentRec : Rec → Bool
  | .evt e => urgentEvent e.event
  | _ => false

/-- The host address of a running count of a ring (R58). -/
def Ring.addr (g : Ring) (pos : Nat) : Nat := g.base + pos % g.size

/-- Writes a record to a ring that has room: pad first where it would wrap (R64), then the record, then the signal that
R75 and R77 ask for. A ring without a vector counts nothing to signal. -/
def State.put (n : Nat) (r : Rec) (s : State) : State :=
  let g := s.ring n
  let len := 64 * recSlots r
  let pad := g.padFor len
  let pads := if pad == 0 then [] else [Out.record n g.tail (g.addr g.tail) strictWrite (g.phaseAt g.tail) (.pad (pad / 64))]
  let at_ := g.tail + pad
  let s1 := (s.onRing n (fun g => { g with tail := at_ + len })).emits
    (pads ++ [Out.record n at_ (g.addr at_) strictWrite (g.phaseAt at_) r])
  if g.vector == 0xFFFF then s1
  else
    let k := g.unsig + 1
    if k ≥ g.modCount || g.modTime == 0 || urgentRec r then s1.signalRing n
    else s1.onRing n (fun g => { g with unsig := k, oldest := some (g.oldest.getD s.aon.time) })

/-- A record bound for a ring that is not enabled is discarded and counted (R61). -/
def State.lose (n : Nat) (s : State) : State :=
  (s.onRing n (fun g => { g with lost := g.lost + 1 })).count bcRecordsLost 1

/-- Changes the stream that a handle names, if it is live. -/
def State.onHandle (h : Nat) (f : Stream → Stream) (s : State) : State :=
  s.onStr (fun g => { g with tab := g.tab.map (fun t => if handleOf t.id.slot t.id.gen == h then f t else t) })

/-- A record waits for ring space and holds its stream back from then on (R66, R330). -/
def State.hold (n : Nat) (who : Option Nat) (r : Rec) (s : State) : State :=
  let s1 := s.onRing n (fun g => { g with waiting := g.waiting ++ [(who, r)], waitSince := some (g.waitSince.getD s.aon.time) })
  match who with
  | none => s1
  | some h => s1.onHandle h (fun t => { t with lat := { t.lat with ringSince := some (t.lat.ringSince.getD s.aon.time) } })

/-- Writes a record to an enabled ring when nothing waits before it and it fits, else it waits (R65, R66); one bound for a ring that is
not enabled is discarded (R61). who is the stream that a waiting record holds back. -/
def State.place (n : Nat) (who : Option Nat) (r : Rec) (s : State) : State :=
  let g := s.ring n
  if !g.enabled then s.lose n
  else if g.waiting.isEmpty && g.fits r then s.put n r
  else s.hold n who r

/-- The cmp record kept back on a ring is written (R70). -/
def State.flushCoal (n : Nat) (s : State) : State :=
  match (s.ring n).coal with
  | none => s
  | some c => (s.onRing n (fun g => { g with coal := none })).place n c.who (.cmp c.rec_)

/-- Hands a record to a ring: it follows the cmp record kept back there, if any. -/
def State.egressFor (n : Nat) (who : Option Nat) (r : Rec) (s : State) : State := (s.flushCoal n).place n who r

/-- Hands a ring a record that holds no stream back. -/
def State.egress (n : Nat) (r : Rec) (s : State) : State := s.egressFor n none r

/-- The enabled ring with EVENTS set (R60). -/
def State.eventRing (s : State) : Option Nat :=
  (List.range 64).find? (fun n => (s.ring n).enabled && (s.ring n).events)

/-- An event for the Sill core joins its queue while the core is down (R78, R462). -/
def State.queued (s : State) : State :=
  if s.mem.sillHalted then s.onMem (fun m => { m with evQueue := m.evQueue + 1 }) else s

/-- Writes an evt record to the event ring, or stages it while there is none: at most 4,096, the rest counted (R60). -/
def State.eventFull (code stream unit a0 a1 a2 : Nat) (s : State) : State :=
  let e : EvtRec := { stream := stream, event := code, unit := unit, time := s.now, arg0 := a0, arg1 := a1, arg2 := a2 }
  let s1 := s.queued
  match s1.eventRing with
  | some n => s1.egress n (.evt e)
  | none =>
    if s1.egr.evStaged.length < 4096 then s1.onEgr (fun g => { g with evStaged := g.evStaged ++ [e] })
    else (s1.onEgr (fun g => { g with evLost := g.evLost + 1 })).count bcRecordsLost 1

/-- An evt record that concerns no stream and no unit (R73). -/
def State.event (code a0 a1 a2 : Nat) (s : State) : State := s.eventFull code 0 0xFFFF a0 a1 a2

/-! ### Stream lookups -/

/-- The stream in a slot, if the slot is not FREE. -/
def State.stream? (s : State) (slot : Nat) : Option Stream := s.str.tab.find? (fun t => t.id.slot == slot)

/-- The stream that a handle names, when its slot carries that generation (check 5 of R48). -/
def State.live? (s : State) (h : Nat) : Option Stream :=
  match s.stream? (slotOf h) with
  | some t => if t.id.gen == genOf h then some t else none
  | none => none

/-- Changes the stream in a slot. -/
def State.onStream (slot : Nat) (f : Stream → Stream) (s : State) : State :=
  s.onStr (fun g => { g with tab := g.tab.map (fun t => if t.id.slot == slot then f t else t) })

/-- The stream with its state changed. -/
def State.setState (slot : Nat) (st : SState) (s : State) : State := s.onStream slot (fun t => { t with state := st })

/-- STATE of a cmp record: the state of the live stream that the handle names, else 0xFF (R69). -/
def State.stateOf (s : State) (h : Option Nat) : Nat :=
  match h with
  | none => noState
  | some h =>
    match s.live? h with
    | some t => stateCode t.state
    | none => noState

/-! ### cmp records (R68) -/

/-- The ring that takes a packet's cmp record: the ring it names, or ring 0 when that is not enabled and ring 0 is
(R61). A RING byte of 64 or more, which check 2 of R48 refuses, names no ring and is taken as a ring that was never enabled (log 125). -/
def State.cmpRing (s : State) (n : Nat) : Nat :=
  if (s.ring n).enabled then n else if (s.ring 0).enabled then 0 else n

/-- A cmp record with the handle it shows, the handle whose state it reports, status, INFO and three results. A stale handle names no live
stream (R69). -/
def State.cmpRec (s : State) (p : Pkt) (shown : Nat) (named : Option Nat) (status info : Nat)
    (r0 r1 r2 : BitVec 64) : CmpRec :=
  { stream := shown, tag := p.tag, opcode := p.opcode, status := status,
    state := if status == stStaleHandle then noState else s.stateOf named, ap := p.ap,
    info := info, imgGen := s.img.gen, count := 1, pos := p.pos, time := s.now, r0 := r0, r1 := r1, r2 := r2 }

/-- The NO_CMP flag of a packet (R43). -/
def Pkt.noCmp (p : Pkt) : Bool := bit p.flags 3

/-- The opcodes whose STREAM names a stream (R45): handle, or either without STANDALONE. -/
def streamOps : List Nat :=
  [0x0302, 0x0303, 0x0304, 0x0305, 0x0306, 0x0307, 0x0401, 0x0402, 0x0501, 0x0601, 0x0701, 0x0801]

/-- The STANDALONE flag of a packet (R43). -/
def Pkt.standalone (p : Pkt) : Bool := bit p.flags 0

/-- Whether a packet names a stream (R45). -/
def Pkt.onStream (p : Pkt) : Bool := streamOps.contains p.opcode && !p.standalone

/-- The stream handle that a packet names, if any. -/
def Pkt.named (p : Pkt) : Option Nat := if p.onStream then some p.stream else none

/-- The packets of the block that are not done: staged, at work, or with a cmp record that waits for its turn. -/
def State.undone (s : State) : List Pkt :=
  s.ing.staged ++ s.ing.working.map (·.pkt) ++ s.ing.cmpWait.map (·.1)

/-- Whether a cmp record of an earlier packet of an aperture still waits for ring space or is kept back for coalescing (R57, R66, R70). -/
def State.cmpUnwritten (s : State) (ap pos : Nat) : Bool :=
  let before (c : CmpRec) : Bool := c.ap == ap && decide (c.pos < pos)
  s.egr.rings.any (fun g =>
    (match g.coal with | some k => before k.rec_ | none => false) ||
    g.waiting.any (fun w => match w.2 with | .cmp c => before c | _ => false))

/-- Whether an earlier packet of the same aperture that names the same stream is not done (R55). -/
def State.cmpBlocked (s : State) (p : Pkt) : Bool :=
  p.onStream && s.undone.any (fun q => q.ap == p.ap && decide (q.pos < p.pos) && q.named == p.named)

/-- The position at which the packet after this one begins (R33). -/
def Pkt.after (p : Pkt) : Nat := ceilDiv (p.pos + 36 + p.payload.length) 64 * 64

/-- Opcodes whose cmp record carries no result data and returns no handle, so that it may be coalesced (R70). -/
def plainOps : List Nat := [0x0102, 0x0203, 0x0306, 0x0803, 0x0A01, 0x0A02, 0x0B03, 0x0B04, 0x0B05]

/-- Whether a cmp record may be part of a coalesced one on a ring (R70). -/
def Ring.mayCoalesce (g : Ring) (c : CmpRec) : Bool :=
  g.coalesce && decide (0 < g.modTime) && c.status == stOk && c.info == 0 && plainOps.contains c.opcode

/-- The record that covers one packet more than another (R70): the last packet's fields, no results, COALESCED. -/
def CmpRec.cover (c : CmpRec) (old : CmpRec) : CmpRec :=
  { c with info := 8, count := old.count + 1, r0 := 0, r1 := 0, r2 := 0 }

/-- Hands a packet's cmp record to a ring. On a ring with COALESCE the block may keep a record back, for at most MOD_TIME, and let the
records of the packets that follow it in its aperture join it (R70); whether it keeps one back is free (log 4). -/
def State.egressCmp (n : Nat) (who : Option Nat) (p : Pkt) (c : CmpRec) (s : State) : State :=
  let g := s.ring n
  if g.enabled && g.mayCoalesce c then
    match g.coal with
    | some k =>
      if k.rec_.ap == c.ap && k.next == c.pos && k.rec_.count < 65535 then
        s.onRing n (fun g => { g with coal := some { k with rec_ := c.cover k.rec_, who := who, next := p.after } })
      else s.egressFor n who (.cmp c)
    | none =>
      if s.free.getLsbD 0 then
        s.drawn.onRing n (fun g => { g with coal := some { rec_ := c, who := who, next := p.after, since := s.aon.time } })
      else s.drawn.egressFor n who (.cmp c)
  else s.egressFor n who (.cmp c)

/-- Writes the cmp records that no longer wait for an earlier packet of their stream (R55), with fuel. -/
def State.flushCmp : Nat → State → State
  | 0, s => s
  | n + 1, s =>
    match s.ing.cmpWait.find? (fun e => !s.cmpBlocked e.1) with
    | none => s
    | some e =>
      State.flushCmp n
        ((s.onIng (fun g => { g with cmpWait := g.cmpWait.filter (fun x => x.1.ap != e.1.ap || x.1.pos != e.1.pos) })).egressCmp
          (s.cmpRing e.1.ring) e.1.named e.1 e.2)

/-- A work item has been done by a unit of a kind: its run of faults ends (R457). -/
def State.workDone (kind : Nat) (w : FaultWork) (s : State) : State :=
  s.onMem (fun m => { m with workRun := m.workRun.filter (fun x => x.1 != w || !x.2.any (fun u => u.1 == kind)) })

/-- A packet is no longer at work. -/
def State.finish (p : Pkt) (s : State) : State :=
  (s.onIng (fun g => { g with working := g.working.filter (fun w => w.pkt.ap != p.ap || w.pkt.pos != p.pos) })).onMem
    (fun m => { m with workRun := m.workRun.filter (fun x => x.1 != .packet p.ap p.pos) })

/-- Completes a packet: its cmp record is written, unless NO_CMP is set, the status is OK and INFO is zero (R43, R68);
the records of one aperture and stream keep position order (R55). named is the stream whose state it reports and that it
holds back while it waits for ring space. -/
def State.cmpFull (p : Pkt) (shown : Nat) (named : Option Nat) (status info : Nat) (r0 r1 r2 : BitVec 64)
    (s : State) : State :=
  let r := s.cmpRec p shown named status info r0 r1 r2
  let s1 := s.finish p
  let s2 :=
    if p.noCmp && status == stOk && info == 0 then s1
    else if s1.cmpBlocked p then s1.onIng (fun g => { g with cmpWait := g.cmpWait ++ [(p, r)] })
    else s1.egressCmp (s1.cmpRing p.ring) named p r
  State.flushCmp s2.ing.cmpWait.length s2

/-- Result fields: given ones, and free values where the manual states none (log 2). -/
def State.results (s : State) (r0 r1 r2 : Option Nat) : BitVec 64 × BitVec 64 × BitVec 64 :=
  ((r0.map (BitVec.ofNat 64)).getD (Config.freeValue s.freeCtr),
   (r1.map (BitVec.ofNat 64)).getD (Config.freeValue (s.freeCtr + 1)),
   (r2.map (BitVec.ofNat 64)).getD (Config.freeValue (s.freeCtr + 2)))

/-- Writes a packet's cmp record with its results; a result left out is free (log 2). -/
def State.cmp (p : Pkt) (status info : Nat) (r0 r1 r2 : Option Nat) (s : State) : State :=
  let (a, b, c) := s.results r0 r1 r2
  State.cmpFull p p.stream p.named status info a b c { s with freeCtr := s.freeCtr + 3 }

/-- A refusal: the cmp record and nothing else (R48, R52); its results are free (log 2). -/
def State.refuse (p : Pkt) (status : Nat) (s : State) : State := s.cmp p status 0 none none none

/-- INFO bits that a packet at work has gathered. -/
def State.workInfo (s : State) (p : Pkt) : Nat :=
  match s.ing.working.find? (fun w => w.pkt.ap == p.ap && w.pkt.pos == p.pos) with
  | some w => w.info
  | none => 0

/-- Completion with a status that INFO gives (R53), the bits gathered at work included. -/
def State.done (p : Pkt) (info : Nat) (r0 r1 r2 : Option Nat) (s : State) : State :=
  let i := info ||| s.workInfo p
  s.cmp p (statusOfInfo i) i r0 r1 r2

/-! ### Stall intervals (R330) -/

/-- The end of a hold for ring space: the interval is added to STALL_RING and to DEADLINE (R330). -/
def Lat.endRing (now : Nat) (l : Lat) : Lat :=
  match l.ringSince with
  | none => l
  | some t => { l with ringSince := none, stallRing := l.stallRing + (now - t), deadline := l.deadline.map (· + (now - t)),
                       stalledSince := l.stalledSince + (now - t) }

/-- The end of a hold by the tenant's bucket (R330). -/
def Lat.endHold (now : Nat) (l : Lat) : Lat :=
  match l.holdSince with
  | none => l
  | some t => { l with holdSince := none, stallHold := l.stallHold + (now - t), deadline := l.deadline.map (· + (now - t)),
                       stalledSince := l.stalledSince + (now - t) }

/-- The end of a hold by the lintel (R330). -/
def Lat.endLintel (now : Nat) (l : Lat) : Lat :=
  match l.lintelSince with
  | none => l
  | some t => { l with lintelSince := none, stallLintel := l.stallLintel + (now - t), deadline := l.deadline.map (· + (now - t)),
                       stalledSince := l.stalledSince + (now - t) }

/-- Streams that no waiting record of ring n holds any more end their hold for ring space. -/
def State.releaseRing (s : State) : State :=
  let held := (s.egr.rings.flatMap (·.waiting)).filterMap (·.1)
  s.onStr (fun g => { g with tab := g.tab.map (fun t =>
    if held.contains t.handle then t else { t with lat := t.lat.endRing s.aon.time }) })

/-! ### Identity, group and wake -/

/-- This block's group number; 0 outside a group (R373, R477). -/
def State.groupNum (s : State) : Nat := if s.img.frame.inGroup then s.img.frame.groupNum else 0

/-- Contents of BX_ID (R477). -/
def State.bxId (s : State) : Nat := 0x8D2 * 2 ^ 20 + 2 ^ 16 + s.groupNum * 2 ^ 6

/-- The frame CRC of JOIN: bytes 0x04 to 0x0F of the FRAME body (R432). -/
def Frame.crc (f : Frame) : Nat :=
  crc32c (leBytes 1 f.master ++ leBytes 1 f.deputy ++ leBytes 2 0 ++ leBytes 8 f.members)

/-- The members that the frame names other than this block. -/
def State.others (s : State) : List Nat := (bitList 64 s.img.frame.members).filter (fun n => n != s.groupNum)

/-- The live members other than this block. -/
def State.liveOthers (s : State) : List Nat := (bitList 64 s.cas.live).filter (fun n => n != s.groupNum)

/-- Sends a group message under the block's epoch (R429). -/
def State.send (dest : Nat) (m : GMsg) (s : State) : State := s.emit (.msg dest s.cas.epoch m)

/-- The version of a profile in the committed set. -/
def State.committed (s : State) (n : Nat) : Option Version :=
  s.img.versions.find? (fun v => v.number == n && v.inSet)

/-- The resident profiles with their CANON_CRC, ascending. -/
def State.residentProfiles (s : State) : List (Nat × Nat) :=
  (List.range 16).filterMap (fun n => (s.committed n).map (fun v => (n, v.prof.canonCrc)))

/-- Sends JOIN to every other block named in MEMBERS (R432). -/
def State.sendJoin (s : State) : State :=
  (s.onCas (fun c => { c with firstJoin := some (c.firstJoin.getD s.aon.time), lastJoin := s.aon.time })).emits (s.others.map (fun n => .msg n s.cas.epoch (.join s.img.frame.crc s.now s.residentProfiles)))

/-- A full wake (R413): every fast domain GATED, both scrubbers at the start of a pass (R301, R386), signals owed are
sent, and a block of a group that has not left it sends JOIN (R431, R435). -/
def State.fullWake (s : State) : State :=
  let s0 := (s.onMem (fun m => { m with patrolPos := List.replicate 88 0 })).onBer
    (fun b => { b with scrubPos := List.replicate 34 0 })
  let s1 := (s0.onStart (fun g => { g with phase := .run })).onAon
    (fun a => { a with domains := List.replicate 7 (.gated, a.time), wakeTimer := none })
  let s2 := (s1.emit (.arrRail true)).signalOwed
  if s2.img.frame.inGroup && s2.cas.st != .left then (s2.onCas (fun c => { c with joining := true })).sendJoin else s2

/-- A wake cause: a full wake if the block sleeps (R413). -/
def State.wakeCause (s : State) : State := if s.start.phase == .sleep then s.fullWake else s

/-- A domain that is not off is woken ahead of its work (R408). -/
def State.wakeDomain (d : Nat) (s : State) : State :=
  s.onAon (fun a => { a with domains := modifyAt a.domains d (fun x => if x.1 == .running then x else (.running, a.time)) })

/-- Whether the block is isolated: register writes are ignored, reads are zero (R418). -/
def State.isolated (s : State) : Bool := s.start.phase == .isolated || s.start.phase == .aonOnly

/-- Whether the block serves packets: it reached READY, runs, and has its Sill core. -/
def State.serving (s : State) : Bool := s.start.ready && s.start.phase == .run

end Sys2Proof.Machine
end

