-- ==== Sys2Proof/Machine/Pages.lean ====
section
/-! DEFINITION. The KV page ledger (R322, R323) and the freeing of prefix records (R340, R343). -/
namespace Sys2Proof.Machine
open Sys2Proof

/-! ### The ledger -/

/-- The ledger entry of a page; none when it is FREE (R322). -/
def State.page? (s : State) (p : Nat) : Option PageEnt := s.sto.ledger.find? (fun e => e.page == p)

/-- Free pages of the ledger. -/
def State.freeCount (s : State) : Nat := s.start.stackMap.kvCount - s.sto.ledger.length

/-- The page reserve (R323). -/
def State.reservePages (s : State) : Nat := s.start.stackMap.kvCount / 64

/-- The page after a page, wrapping at KV_COUNT (R322). -/
def State.pageAfter (s : State) (p : Nat) : Nat := if p + 1 < s.start.stackMap.kvCount then p + 1 else 0

/-- The next n free pages from a page on, in increasing order with wrap, with fuel (R322). -/
def State.findFree (s : State) : Nat → Nat → Nat → List Nat
  | 0, _, _ => []
  | _, 0, _ => []
  | k + 1, n + 1, p =>
    if (s.page? p).isSome then s.findFree k (n + 1) (s.pageAfter p) else p :: s.findFree k n (s.pageAfter p)

/-- A ledger, ascending by page, with one entry set. -/
def ledgerSet (l : List PageEnt) (e : PageEnt) : List PageEnt :=
  insertBy (fun x y => decide (x.page < y.page)) e (l.filter (fun x => x.page != e.page))

/-- The entries of a chain of pages in a state: each names the next, the last has END (R322). -/
def chainEnts (st : PageState) : List Nat → List PageEnt
  | [] => []
  | [p] => [⟨p, st, none⟩]
  | p :: q :: rest => ⟨p, st, some q⟩ :: chainEnts st (q :: rest)

/-- Writes the ledger entries of a chain; a RETIRED page stays retired (R324). -/
def State.setChain (st : PageState) (pages : List Nat) (s : State) : State :=
  let gone := (s.sto.ledger.filter (fun e => e.state == .retired)).map (·.page)
  let ents := (chainEnts st pages).filter (fun e => !gone.contains e.page)
  s.onSto (fun g => { g with ledger := ents.foldl ledgerSet g.ledger })

/-- Pages become FREE. RETIRED pages stay retired (R324). -/
def State.freePages (pages : List Nat) (s : State) : State :=
  s.onSto (fun g => { g with ledger := g.ledger.filter (fun e => !pages.contains e.page || e.state == .retired) })

/-- Pages enter ROLLBACK (R322, R370). -/
def State.rollback (pages : List Nat) (s : State) : State :=
  s.onSto (fun g => { g with ledger := g.ledger.map (fun e =>
    if pages.contains e.page && e.state != .retired then { e with state := .rollback, next := none } else e) })

/-- ROLLBACK pages become FREE at a step boundary (R322). -/
def State.freeRollback (s : State) : State :=
  s.onSto (fun g => { g with ledger := g.ledger.filter (fun e => e.state != .rollback) })

/-- Takes n free pages in ledger order (R322); they get their place in a chain from setChain. None when too few are free. -/
def State.takePages (n : Nat) (s : State) : Option (List Nat × State) :=
  if n ≤ s.freeCount then
    let ps := s.findFree (n + s.sto.ledger.length) n s.sto.nextPage
    match ps.getLast? with
    | none => some ([], s)
    | some q => some (ps, s.onSto (fun g => { g with nextPage := s.pageAfter q }))
  else none

/-- Pages that a context of n positions takes (R319). -/
def State.pagesFor (s : State) (n : Nat) : Nat := ceilDiv n (max 1 s.sch.tokensPerPage)

/-! ### Prefix records -/

/-- The prefix record with a number. -/
def State.pfx? (s : State) (n : Nat) : Option PfxRec := s.sto.pfx.find? (fun r => r.num == n)

/-- Changes a prefix record. -/
def State.onPfx (n : Nat) (f : PfxRec → PfxRec) (s : State) : State :=
  s.onSto (fun g => { g with pfx := g.pfx.map (fun r => if r.num == n then f r else r) })

/-- The pages of a prefix record and of its ancestors, oldest first, with fuel for the depth (R318, R340). -/
def State.pfxPages (s : State) : Nat → Option Nat → List Nat
  | 0, _ => []
  | _, none => []
  | k + 1, some n =>
    match s.pfx? n with
    | none => []
    | some r => s.pfxPages k r.parent ++ r.pages

/-- The pages that a stream attaches through its prefix record. -/
def State.prefixPages (s : State) (t : Stream) : List Nat := s.pfxPages 9 t.pfx

/-! ### Summaries (R332, R339, R343) -/

/-- The summaries that a stream holds: of a summary pause, of a resume, of a lintel raise. -/
def Stream.summaries (t : Stream) : List Nat :=
  (match t.pause with | some r => if r.pmode == 0 && r.sumHandle != 0 then [r.sumHandle] else [] | none => []) ++
  (if t.sumRelease == 0 then [] else [t.sumRelease]) ++ (match t.lintelSum with | some (_, h, _) => [h] | none => [])

/-- Whether a stream or a prefix record still holds a summary (R341). -/
def State.summaryHeld (s : State) (h : Nat) : Bool :=
  s.str.tab.any (fun t => t.summaries.contains h) || s.sto.pfx.any (fun r => r.summary == h)

/-- A hold on a summary has ended: the last one asks for a summary release entry in the next step. -/
def State.releaseSummary (h : Nat) (s : State) : State :=
  if h == 0 || s.summaryHeld h then s else s.onSch (fun g => { g with relSummaries := g.relSummaries ++ [h] })

/-- The lowest record number that is free (R340, log 16). -/
def State.freePfx (s : State) : Option Nat :=
  let rec go : Nat → Nat → Option Nat
    | 0, n => if n < 131072 then some n else none
    | k + 1, n => if s.sto.pfx.any (fun r => r.num == n) then go k (n + 1) else if n < 131072 then some n else none
  go s.sto.pfx.length 0

end Sys2Proof.Machine
end

