-- ==== Sys2Proof/Machine/Beryl.lean ====
section
/-! DEFINITION. Beryl (chapter 09): rows and entries, inserts with their moves, updates that wait, prefix records that end, the search of
the banks and its verification, failing banks, and the restoring of entries. -/
namespace Sys2Proof.Machine
open Sys2Proof

/-! ### Banks and rows (R274 to R277, R89) -/

/-- USE and width of a logical bank under the frame (R87, R89). -/
def State.bankUse (s : State) (n : Nat) : Nat := s.img.frame.beryl.getD n 0 % 8
def State.bankWidth (s : State) (n : Nat) : Nat := [1, 2, 4].getD (s.img.frame.beryl.getD n 0 / 64) 1

/-- The physical bank of a logical bank; none for a dead position (R299, R300). -/
def State.physical (s : State) (n : Nat) : Option Nat := s.ber.map.getD n none

/-- The logical bank that a physical bank serves. -/
def State.logical (s : State) (b : Nat) : Option Nat := (List.range 32).find? (fun n => s.physical n == some b)

/-- The logical banks of a use in order (R279). -/
def State.useList (s : State) (use : Nat) : List Nat := (List.range 32).filter (fun n => s.bankUse n == use)

/-- A row of a row table; rows not listed are zero. -/
def rowAt (rows : List BRow) (bank row : Nat) : Nat :=
  match rows.find? (fun r => r.bank == bank && r.row == row) with
  | some r => r.bits.toNat
  | none => 0

/-- A row table, ascending by bank and row and without zero rows, with one row set. -/
def rowSet (rows : List BRow) (bank row v : Nat) : List BRow :=
  let rest := rows.filter (fun r => r.bank != bank || r.row != row)
  let b := BitVec.ofNat 120 v
  if b == 0#120 then rest
  else insertBy (fun x y => decide (x.bank < y.bank ∨ (x.bank = y.bank ∧ x.row < y.row))) ⟨bank, row, b⟩ rest

/-- One bank of a row table written over another bank's place. -/
def bankCopy (rows : List BRow) (from_ : List BRow) (src dst : Nat) : List BRow :=
  (from_.filter (fun r => r.bank == src)).foldl (fun acc r => rowSet acc dst r.row r.bits.toNat)
    (rows.filter (fun r => r.bank != dst))

/-- The shadow word index of a row: the shadow is kept by logical bank and row (R277). -/
def State.shadowRow (s : State) (n row : Nat) : Nat := rowAt s.ber.shadow n row

/-- Writes a row of a logical bank: the match array and the shadow in one (R277). -/
def State.writeRow (n row v : Nat) (s : State) : State :=
  s.onBer (fun b => { b with
    rows := (match b.map.getD n none with | some p => rowSet b.rows p row v | none => b.rows),
    shadow := rowSet b.shadow n row v })

/-- Row u of an entry as 120 bits (R275), with VALID as given. -/
def entryRow (e : BerylEntry) (valid : Bool) (u : Nat) : Nat :=
  e.key.getD u 0 % 2 ^ 64 +
  (if u == 0 then e.tag % 256 * 2 ^ 64 + e.prio % 65536 * 2 ^ 96 + flag (valid && e.matchEn) 113 + flag valid 112 + 2 ^ 114 else 0) +
  e.care.getD u 0 % 256 * 2 ^ 72 + e.data.getD u 0 % 65536 * 2 ^ 80

/-- Writes all rows of an entry at an index (R295). -/
def State.writeEntry (n i : Nat) (e : BerylEntry) (s : State) : State :=
  let w := s.bankWidth n
  (List.range w).foldl (fun s u => s.writeRow n (w * i + u) (entryRow e true u)) s

/-- Clears VALID in the head row of an entry (R295, R296). -/
def State.clearEntry (n i : Nat) (s : State) : State :=
  let r := s.bankWidth n * i
  let v := s.shadowRow n r
  s.writeRow n r (if v.testBit 112 then v - 2 ^ 112 else v)

/-- The indices of the valid entries of a logical bank with their PRIO, ascending. -/
def State.validEntries (s : State) (n : Nat) : List (Nat × Nat) :=
  let w := s.bankWidth n
  (s.ber.shadow.filter (fun r => r.bank == n && r.bits.getLsbD 112)).map (fun r => (r.row / w, bits r.bits.toNat 111 96))

/-- Entries that a bank holds (R276). -/
def State.capacity (s : State) (n : Nat) : Nat := if (s.physical n).isSome then 8192 / s.bankWidth n else 0

/-- Entries of a bank reserved by load slots whose literals are not yet entered (R102, R280, R297). -/
def State.reservedIn (s : State) (n : Nat) : Nat :=
  (((s.img.slots.filter (fun l => !l.entered)).flatMap (·.literals)).filter (fun p => p.1 == n)).foldl (fun k p => k + p.2.length) 0

/-- The entry that an update writes. -/
def written : BerylUpdate → Option BerylEntry
  | .insert e => some e
  | .remove _ _ => none
  | .change _ _ e => some e

/-- Entries of a bank that inserts under way will take: a move that has not run, a three-step window, an insert that waits. -/
def State.pendingIn (s : State) (n : Nat) : Nat :=
  (s.ber.moves.filter (fun m => m.bank == n && !m.ran)).length + (s.ber.windows.filter (fun w => w.bank == n)).length +
  (s.ber.heldUpdate.filter (fun u => u.bank == n && (match u.update with | .insert _ => true | _ => false))).length

/-- Free entries of a bank, those reserved for literals or on their way not counted. -/
def State.freeEntries (s : State) (n : Nat) : Nat := s.capacity n - (s.validEntries n).length - s.reservedIn n - s.pendingIn n

/-! ### Place and insert (R279, R291, R292) -/

/-- The target index of an insert of priority p: after the last valid entry whose PRIO is at least p (R291). -/
def targetIndex (es : List (Nat × Nat)) (p : Nat) : Nat :=
  match (es.filter (fun e => decide (p ≤ e.2))).getLast? with
  | some e => e.1 + 1
  | none => 0

/-- The first index from i on that holds no valid entry, with fuel. -/
def freeAbove (es : List (Nat × Nat)) : Nat → Nat → Nat
  | 0, i => i
  | k + 1, i => if es.any (fun e => e.1 == i) then freeAbove es k (i + 1) else i

/-- The last index below i that holds no valid entry; none when there is none. -/
def freeBelow (es : List (Nat × Nat)) : Nat → Option Nat
  | 0 => none
  | i + 1 => if es.any (fun e => e.1 == i) then freeBelow es i else some i

/-- Where an insert goes: the hole, and the run of entries that moves first with its direction (R291). -/
structure Place where
  hole : Nat
  run : Option (Nat × Nat × Bool)
  deriving DecidableEq, Repr

/-- The place of an insert of priority p in a bank of c entries; none when no entry is free (R291). -/
def placeOf (es : List (Nat × Nat)) (c p : Nat) : Option Place :=
  let t := targetIndex es p
  if t < c && !es.any (fun e => e.1 == t) then some { hole := t, run := none }
  else
    let f := freeAbove es (es.length + 1) t
    match freeBelow es t with
    | none => if f < c then some { hole := t, run := some (t, f - 1, true) } else none
    | some g =>
      if f < c && f - t ≤ t - 1 - g then some { hole := t, run := some (t, f - 1, true) }
      else some { hole := t - 1, run := some (g + 1, t - 1, false) }

/-- Copies entry i of a bank to index j: rows w - 1 down to 0 of the match array, each written with its shadow word (R277, R292). -/
def State.copyEntry (n i j : Nat) (s : State) : State :=
  let w := s.bankWidth n
  match s.physical n with
  | none => s
  | some p => (List.range w).reverse.foldl (fun s u => s.writeRow n (w * j + u) (rowAt s.ber.rows p (w * i + u))) s

/-- Counter k of a physical bank counts more events (R302). -/
def State.bankCount (b k n : Nat) (s : State) : State :=
  s.onBer (fun g => { g with counters := modifyAt g.counters b (fun l => modifyAt l k (fun c => satAdd 32 c n)) })

/-- Counter k of the physical bank of a logical bank. -/
def State.logicalCount (n k m : Nat) (s : State) : State :=
  match s.physical n with
  | some b => s.bankCount b k m
  | none => s

/-- Moves a run of entries by one: down from the highest, up from the lowest (R292). The last source keeps its duplicate, which the
bank excludes until it is written or cleared (R293). -/
def State.moveRun (n lo hi : Nat) (down : Bool) (s : State) : State :=
  let m := hi + 1 - lo
  let idx := (List.range m).map (· + lo)
  let s1 := if down then idx.reverse.foldl (fun s i => s.copyEntry n i (i + 1)) s
            else idx.foldl (fun s i => s.copyEntry n i (i - 1)) s
  (s1.logicalCount n 7 1).logicalCount n 8 (m * s.bankWidth n)

/-- An insert into a bank with its move; none when the bank is full. -/
def State.insertInto (n : Nat) (e : BerylEntry) (s : State) : Option State :=
  match placeOf (s.validEntries n) (s.capacity n) e.prio with
  | none => none
  | some pl =>
    let s1 := match pl.run with | some (lo, hi, d) => s.moveRun n lo hi d | none => s
    some (s1.writeEntry n pl.hole e)

/-! ### Updates that wait (R292, R294, R295, R299) -/

/-- The 64-clock window of the 1.0 GHz Beryl clock that the time base lies in (R295, log 15). -/
def State.beryWindow (s : State) : Nat := s.aon.time / 64

/-- Slots stolen of a bank in the present window (R295). -/
def State.stolen (s : State) (n : Nat) : Nat :=
  match s.ber.window.find? (fun x => x.1 == n && x.2.1 == s.beryWindow) with
  | some x => x.2.2
  | none => 0

/-- One more slot of a bank goes to an update (R295, R302). -/
def State.steal (n : Nat) (s : State) : State :=
  (s.logicalCount n 1 1).onBer (fun b => { b with window :=
    (b.window.filter (fun x => x.1 != n)) ++ [(n, s.beryWindow, s.stolen n + 1)] })

/-- Whether a bank's row port is taken: a move, a three-step window or a reload is in progress (R292, R296, R299). -/
def State.bankBusy (s : State) (n : Nat) : Bool :=
  s.ber.moves.any (fun m => m.bank == n) || s.ber.windows.any (fun w => w.bank == n) || s.ber.reloading.contains n

/-- Whether updates wait for a bank. -/
def State.queuedIn (s : State) (n : Nat) : Bool := s.ber.heldUpdate.any (fun u => u.bank == n)

/-- Channels 0 to 29 update by slot stealing (R281), at most 16 slots of a window (R295). -/
def State.atCap (s : State) (c n : Nat) : Bool := decide (c < 30) && decide (16 ≤ s.stolen n)

/-- An update waits in order of arrival; one that only the cap delays is counted (R292, R295, R302). -/
def State.waitIn (c n : Nat) (u : BerylUpdate) (s : State) : State :=
  let cap := !s.bankBusy n && !s.queuedIn n && s.atCap c n
  (if cap then s.logicalCount n 2 1 else s).onBer (fun b => { b with
    heldUpdate := b.heldUpdate ++ [{ channel := c, bank := n, update := u, capped := cap }] })

/-- Whether an update of a bank waits. -/
def State.mustWait (s : State) (c n : Nat) : Bool := s.bankBusy n || s.queuedIn n || s.atCap c n

/-- A slot-stealing update has taken its slot (R295). -/
def State.took (c n : Nat) (s : State) : State := if c < 30 then s.steal n else s

/-- An entry is placed in a bank by a channel: at once with its move, or once the bank is free. -/
def State.placeIn (c n : Nat) (e : BerylEntry) (s : State) : State :=
  if s.mustWait c n then s.waitIn c n (.insert e)
  else match s.insertInto n e with
    | some s1 => s1.took c n
    | none => s

/-- The hash of a key (R279): CRC-32C over its units. -/
def keyHash (key : List Nat) : Nat := crc32c (key.flatMap (leBytes 8))

/-- The candidate banks of a key in a use list (R279). -/
def candidates (banks : List Nat) (key : List Nat) : List Nat :=
  let n := banks.length
  if n == 0 then [] else
  let h := keyHash key
  let a := banks.getD (h % n) 0
  let b := banks.getD (h / 65536 % n) 0
  if a == b then [a] else [a, b]

/-- The candidate that an insert goes to: more free entries, the first of equals (R279); none when neither has any. -/
def State.pickBank (s : State) (cands : List Nat) : Option Nat :=
  match cands with
  | [] => none
  | [a] => if s.freeEntries a == 0 then none else some a
  | a :: b :: _ =>
    let fa := s.freeEntries a
    let fb := s.freeEntries b
    if fa == 0 && fb == 0 then none else if fa < fb then some b else some a

/-- An insert of a hash-placed use by a channel; none when both candidates are full (R279). -/
def State.insertUse (c use : Nat) (e : BerylEntry) (s : State) : Option State :=
  (s.pickBank (candidates (s.useList use) e.key)).map (fun n => s.placeIn c n e)

/-- The index of the valid entry of a bank with exactly these key units and tag. -/
def State.findEntry (s : State) (n : Nat) (key : List Nat) (tag : Nat) : Option Nat :=
  let w := s.bankWidth n
  ((s.validEntries n).find? (fun e => !s.ber.excluded.contains (n, e.1) &&
    (List.range w).all (fun u => s.shadowRow n (w * e.1 + u) % 2 ^ 64 == key.getD u 0) &&
    bits (s.shadowRow n (w * e.1)) 71 64 == tag)).map (·.1)

/-- Whether an update writes an entry with a key and tag. -/
def isFor (key : List Nat) (tag : Nat) (u : BerylUpdate) : Bool :=
  match written u with
  | some e => e.key == key && e.tag == tag
  | none => false

/-- Whether an insert of a key and tag into a bank is on its way. -/
def State.comes (s : State) (n : Nat) (key : List Nat) (tag : Nat) : Bool :=
  s.ber.moves.any (fun m => m.bank == n && m.entry.key == key && m.entry.tag == tag) ||
  s.ber.windows.any (fun w => w.bank == n && isFor key tag w.update) ||
  s.ber.heldUpdate.any (fun u => u.bank == n && isFor key tag u.update)

/-- An entry of a bank is removed by a channel, or once the bank is free (R294). -/
def State.eraseIn (c n : Nat) (key : List Nat) (tag : Nat) (s : State) : State :=
  if s.comes n key tag || (s.mustWait c n && (s.findEntry n key tag).isSome) then s.waitIn c n (.remove key tag)
  else match s.findEntry n key tag with
    | some i => (s.clearEntry n i).took c n
    | none => s

/-- Removal of the entry with a key from the banks of a use (R294); a lost one is forgotten (R300). -/
def State.removeUse (c use : Nat) (key : List Nat) (s : State) : State :=
  ((candidates (s.useList use) key).foldl (fun s n => s.eraseIn c n key 0) s).onBer
    (fun b => { b with lost := b.lost.filter (fun x => x.1 != use || x.2.key != key) })

/-- The literals under a version handle leave the literal banks (R297, R300). -/
def State.removeLiterals (tag : Nat) (s : State) : State :=
  ((s.useList 4).foldl (fun s n =>
    let ins := s.ber.heldUpdate.filterMap (fun u => if u.bank == n then written u.update else none) ++
      (s.ber.moves.filter (fun m => m.bank == n)).map (·.entry) ++ (s.ber.windows.filter (fun w => w.bank == n)).map (·.entry)
    let w := s.bankWidth n
    let here := ((s.validEntries n).map (·.1)).map (fun i =>
      ((List.range w).map (fun u => s.shadowRow n (w * i + u) % 2 ^ 64), bits (s.shadowRow n (w * i)) 71 64))
    let keys := ((here ++ ins.map (fun e => (e.key, e.tag))).filter (fun k => k.2 == tag)).eraseDups
    keys.foldl (fun s k => s.eraseIn 30 n k.1 k.2) s) s).onBer
      (fun b => { b with lost := b.lost.filter (fun x => x.1 != 4 || x.2.tag != tag) })

/-! ### Prefix records that end (R324, R340, R343) -/

/-- A dropped record with nothing attached is freed with its pages, its summary is released, and its parent's ATTACH is
decremented; a replica keeps its Beryl entry until then (R446). With fuel for the ancestors (R343). -/
def State.freeRecord : Nat → Nat → State → State
  | 0, _, s => s
  | k + 1, n, s =>
    match s.pfx? n with
    | none => s
    | some r =>
      if r.dropped && r.attach == 0 then
        let s0 := (s.onSto (fun g => { g with pfx := g.pfx.filter (fun x => x.num != n) })).freePages r.pages
        let twin := s0.sto.pfx.any (fun x => x.replica && x.handle == r.handle && x.tenant == r.tenant)
        let s1 := if r.replica && !twin then s0.removeUse 16 1 [r.handle, r.tenant] else s0
        let s2 := s1.releaseSummary r.summary
        match r.parent with
        | none => s2
        | some p => State.freeRecord k p (s2.onPfx p (fun x => { x with attach := x.attach - 1 }))
      else s

/-- One attachment of a record ends (R343). -/
def State.detach (n : Nat) (s : State) : State :=
  State.freeRecord 9 n (s.onPfx n (fun x => { x with attach := x.attach - 1 }))

/-- One more attachment of a record. -/
def State.attach (n : Nat) (s : State) : State := s.onPfx n (fun x => { x with attach := x.attach + 1 })

/-- Records marked DROPPED, their Beryl entries removed (R324, R343); those with nothing attached are freed. -/
def State.dropRecords (nums : List Nat) (s : State) : State :=
  nums.foldl (fun s n =>
    match s.pfx? n with
    | none => s
    | some r => State.freeRecord 9 n ((s.removeUse 16 1 [r.handle, r.tenant]).onPfx n (fun x => { x with dropped := true }))) s

/-- Entries of R278. -/
def prefixEntry (handle tenant index : Nat) : BerylEntry :=
  { key := [handle, tenant], care := [255, 255], data := [index % 65536, index / 65536], tag := 0, prio := 0x8000, matchEn := true }
def tenantEntry (tenant index : Nat) : BerylEntry :=
  { key := [tenant], care := [255], data := [index], tag := 0, prio := 0x8000, matchEn := true }
def stopEntryOf (key len index : Nat) : BerylEntry :=
  { key := [key], care := [255], data := [index], tag := 0, prio := len, matchEn := true }

/-- The multiplier of the fingerprint (R170). -/
def fpMul : Nat := 0x9E3779B97F4A7C15

/-- The Beryl key of a stop string (R170). -/
def stopKey (b : Bytes) : Nat :=
  (b.foldl (fun h x => (h * fpMul + x.toNat) % 2 ^ 64) 0) % 2 ^ 58 + (b.length - 1) * 2 ^ 58

/-- Key unit u of a literal: byte j of it in bits 8(j mod 8) (R276, R278). -/
def literalUnit (lit : Bytes) (u : Nat) : Nat := le (slice lit (8 * u) 8)

/-- The entry of a special-token literal (R278). -/
def literalEntry (sp : Special) (handle : Nat) : BerylEntry :=
  let len := sp.lit.length
  { key := (List.range 4).map (literalUnit sp.lit),
    care := (List.range 4).map (fun u => bitMap ((List.range 8).filter (fun j => decide (8 * u + j < len)))),
    data := [sp.canon % 65536, sp.canon / 65536, 0, 0], tag := handle, prio := len, matchEn := bit sp.spfl 0 }

/-! ### Searching (R281 to R286) -/

/-- The uses that a channel searches (R281). -/
def channelUses (c : Nat) : List Nat :=
  if c < 8 then [4] else if c < 16 then [2] else if c < 20 then [1] else if c < 24 then [3] else if c < 28 then [1]
  else if c == 28 || c == 30 then [0, 1, 2, 3, 4] else if c == 31 then [3, 1] else []

/-- matches of R284 over given rows: head row and rows by unit. -/
def matchesRows (row : Nat → Nat) (req : SearchReq) : Bool :=
  let h := row 0
  h.testBit 112 && h.testBit 113 && (!req.tagEn || bits h 71 64 == req.tag) &&
  (List.range req.kw).all (fun u =>
    let r := row u
    let k := bits req.key (64 * u + 63) (64 * u)
    let m := bits req.mask (64 * u + 63) (64 * u)
    let c := (List.range 8).foldl (fun acc j => if r.testBit (72 + j) then acc + 255 * 2 ^ (8 * j) else acc) 0
    ((r % 2 ^ 64) ^^^ k) &&& m &&& c == 0)

/-- The matching entries of a logical bank, ascending (R284): the array rows decide, and the excluded entry never matches
(R293). -/
def State.matching (s : State) (n : Nat) (req : SearchReq) : List Nat :=
  match s.physical n with
  | none => []
  | some p =>
    let w := s.bankWidth n
    let heads := (s.ber.rows.filter (fun r => r.bank == p && r.row % w == 0)).map (fun r => r.row / w)
    heads.filter (fun e => !s.ber.excluded.contains (n, e) && matchesRows (fun u => rowAt s.ber.rows p (w * e + u)) req)

/-- The banks that a search uses, and those left out for use or width (R281, R283). -/
def State.searchBanks (s : State) (req : SearchReq) : List Nat × List Nat :=
  (bitList 32 req.select).partition (fun n => (channelUses req.channel).contains (s.bankUse n) && s.bankWidth n == req.kw)

/-- The winner of a search: logical bank and entry with the highest PRIO, the lowest bank among equals (R285), and whether
more than one entry matched. -/
def State.resolve (s : State) (req : SearchReq) (banks : List Nat) : Option (Nat × Nat) × Bool :=
  let all := banks.map (fun n => (n, s.matching n req))
  let prio (n e : Nat) : Nat := match s.physical n with
    | some p => bits (rowAt s.ber.rows p (s.bankWidth n * e)) 111 96
    | none => 0
  let wins := all.filterMap (fun x => x.2.head?.map (fun e => (x.1, e)))
  let best := minBy (fun x => 65536 - prio x.1 x.2) wins
  (best, decide (1 < (all.map (·.2.length)).foldl (· + ·) 0))

/-- The 16-byte result of R286 from array rows. -/
def State.resultOf (s : State) (win : Option (Nat × Nat)) (multi retried held : Bool) : BitVec 128 :=
  let f := flag multi 1 + flag retried 2 + flag held 3
  match win with
  | none => BitVec.ofNat 128 (0xFF * 2 ^ 80 + f * 2 ^ 88)
  | some (n, e) =>
    let w := s.bankWidth n
    let row (u : Nat) : Nat := match s.physical n with | some p => rowAt s.ber.rows p (w * e + u) | none => 0
    let data := (List.range w).foldl (fun acc u => acc + bits (row u) 95 80 * 2 ^ (16 * u)) 0
    BitVec.ofNat 128 (data + bits (row 0) 111 96 * 2 ^ 64 + n * 2 ^ 80 + (f + 1) * 2 ^ 88)

/-- Whether a hit passes verification: the shadow words match, with the array's PRIO and DATA (R288). -/
def State.verified (s : State) (req : SearchReq) (n e : Nat) : Bool :=
  let w := s.bankWidth n
  match s.physical n with
  | none => false
  | some p =>
    matchesRows (fun u => s.shadowRow n (w * e + u)) req &&
    (List.range w).all (fun u =>
      let a := rowAt s.ber.rows p (w * e + u)
      let b := s.shadowRow n (w * e + u)
      bits a 95 80 == bits b 95 80 && (u != 0 || bits a 111 96 == bits b 111 96))

/-- Array rows of an entry rewritten from the shadow (R288). -/
def State.rewriteEntry (n e : Nat) (s : State) : State :=
  let w := s.bankWidth n
  (List.range w).foldl (fun s u => s.writeRow n (w * e + u) (s.shadowRow n (w * e + u))) s

/-- Every selected bank uses k slots, and channel c won it last (R282, R302). -/
def State.useSlots (banks : List Nat) (c k : Nat) (s : State) : State :=
  banks.foldl (fun s n =>
    match s.physical n with
    | some p => (s.bankCount p 0 k).onBer (fun b => { b with lastWon := modifyAt b.lastWon p (fun _ => c) })
    | none => s) s

/-! ### Lookups by the block's own agents (R279, R281, R288) -/

/-- The search request of a key of a hash-placed use: the full mask and no tag (R278). -/
def keyReq (key : List Nat) (banks : List Nat) (c : Nat) : SearchReq :=
  { key := (key.zipIdx).foldl (fun a k => a + k.1 % 2 ^ 64 * 2 ^ (64 * k.2)) 0, mask := 2 ^ 256 - 1, select := bitMap banks,
    kw := key.length, tag := 0, tagEn := false, channel := c }

/-- Whether a search for a key of a use finds a verified entry in a candidate bank (R279, R284, R288). -/
def State.findsKey (s : State) (use : Nat) (key : List Nat) : Bool :=
  let banks := candidates (s.useList use) key
  let req := keyReq key banks 0
  banks.any (fun n => (s.matching n req).any (fun e => s.verified req n e))

/-- Whether a key of a use is there for its agent, which serialises all operations on one key: it is found, or its insert is on the
way. -/
def State.holdsKey (s : State) (use : Nat) (key : List Nat) : Bool :=
  s.findsKey use key || (candidates (s.useList use) key).any (fun n => s.comes n key 0)

/-- A lookup's search of the candidate banks: slots are used, and a false hit is counted, rewritten and searched again (R288, R302). -/
def State.lookup (c use : Nat) (key : List Nat) (s : State) : State :=
  let banks := candidates (s.useList use) key
  let req := keyReq key banks c
  let s1 := s.useSlots banks c 1
  match (s1.resolve req banks).1 with
  | some (n, e) => if s1.verified req n e then s1 else ((s1.logicalCount n 4 1).rewriteEntry n e).useSlots banks c 1
  | none => s1

/-- Searches for several keys of a use, as a lane or a slice makes them (R171, R302). -/
def State.lookups (c use : Nat) (keys : List (List Nat)) (s : State) : State :=
  keys.foldl (fun s k => s.useSlots (candidates (s.useList use) k) c 1) s

/-- Whether a lane's search of the version's bank map finds a literal at a place where its bytes stand (R280, R284, R288). -/
def State.findsLiteral (s : State) (v : Version) (sp : Special) : Bool :=
  let e := literalEntry sp v.litHandle
  v.bankMap.any (fun n =>
    let req : SearchReq := { keyReq e.key [n] 0 with tag := e.tag, tagEn := true }
    match s.findEntry n e.key e.tag with
    | some i => (s.matching n req).contains i && s.verified req n i
    | none => false)

/-- A version as the lanes' searches see it: a literal that no search finds is as one that is not enabled (R280, R460). -/
def State.laneVersion (s : State) (v : Version) : Version :=
  { v with special := v.special.map (fun sp => if s.findsLiteral v sp then sp else { sp with spfl := sp.spfl / 2 * 2 }) }

/-- Whether a bank of a use is being reloaded: searches of the use are held (R299). -/
def State.useReloading (s : State) (use : Nat) : Bool := (s.useList use).any s.ber.reloading.contains

/-! ### Failing banks (R299, R300) -/

/-- Physical banks that no logical bank uses, that have not failed and that no march holds. -/
def State.spares (s : State) : List Nat :=
  (List.range 34).filter (fun b => !s.ber.failed.contains b && !s.ber.map.contains (some b) && s.mem.march.camBank != some b)

/-- The order of the repair map: KIND, UNIT, BANK, INDEX (R401). -/
def repairBefore (a b : Repair) : Bool :=
  let k (r : Repair) : Nat := ((r.kind * 2 ^ 8 + r.unit) * 2 ^ 8 + r.bank) * 2 ^ 16 + r.index
  decide (k a < k b)

/-- An entry joins the repair map at its place, and the change is counted (R486). -/
def State.repairAdd (e : Repair) (s : State) : State :=
  s.onMem (fun m => { m with repair := insertBy repairBefore e m.repair, repairChanges := satInc 15 m.repairChanges })

/-- The repair map's entry of a logical bank: one exists while it does not lie on the physical bank of its own number (R274, R401). -/
def State.mapEntry (n : Nat) (q : Option Nat) (source : Nat) (s : State) : State :=
  let s1 := s.onMem (fun m => { m with repair := m.repair.filter (fun r => r.kind != 3 || r.bank != n) })
  match q with
  | some q =>
    if q == n then s1 else s1.repairAdd { kind := 3, source := source, unit := n, bank := n, index := 0, spare := q }
  | none => s1

/-- Empties a bank of array and shadow. -/
def State.emptyBank (n : Nat) (s : State) : State :=
  s.onBer (fun b => { b with rows := (match b.map.getD n none with | some p => b.rows.filter (fun r => r.bank != p) | none => b.rows),
                             shadow := b.shadow.filter (fun r => r.bank != n) })

/-- Records a bank failure in the fault history: the bank is PERMANENT (R299, R455, R465). -/
def State.bankFailed (b : Nat) (s : State) : State :=
  ((s.raise cUnitFault).onBer (fun g => { g with failed := if g.failed.contains b then g.failed else g.failed ++ [b] })).onMem
    (fun m => { m with
      units := m.units.map (fun u => if u.kind == 4 && u.inst == b then { u with cls := 2, inService := false } else u),
      unwrittenUnits := m.unwrittenUnits ++ [96 + 16 + b] })

/-- The replacement of R300 for a bank that has no spare: an unused bank, then, for a use other than prefix handles, the
prefix-handle bank with the highest logical number. -/
def State.replacement (s : State) (n : Nat) : Option Nat :=
  match (List.range 32).find? (fun m => m != n && s.bankUse m == 0 && (s.physical m).isSome) with
  | some m => some m
  | none =>
    if s.bankUse n == 1 then none
    else ((List.range 32).filter (fun m => s.bankUse m == 1 && (s.physical m).isSome)).getLast?

/-- An entry as its shadow rows hold it. -/
def State.entryAt (s : State) (n i : Nat) : BerylEntry :=
  let w := s.bankWidth n
  let row (u : Nat) : Nat := s.shadowRow n (w * i + u)
  { key := (List.range w).map (fun u => row u % 2 ^ 64), care := (List.range w).map (fun u => bits (row u) 79 72),
    data := (List.range w).map (fun u => bits (row u) 95 80), tag := bits (row 0) 71 64, prio := bits (row 0) 111 96,
    matchEn := (row 0).testBit 113 }

/-- A bank's entries after an update of it. -/
def applyUpdate (es : List BerylEntry) : BerylUpdate → List BerylEntry
  | .insert e => es ++ [e]
  | .remove key tag => es.filter (fun e => e.key != key || e.tag != tag)
  | .change key tag e => es.map (fun x => if x.key == key && x.tag == tag then e else x)

/-- The entries of a bank once every update under way or waiting is carried out. -/
def State.entriesOf (s : State) (n : Nat) : List BerylEntry :=
  let here := ((s.validEntries n).filter (fun e => !s.ber.excluded.contains (n, e.1))).map (fun e => s.entryAt n e.1)
  let begun := (s.ber.moves.filter (fun m => m.bank == n)).map (·.entry) ++ (s.ber.windows.filter (fun w => w.bank == n)).map (·.entry)
  ((s.ber.heldUpdate.filter (fun u => u.bank == n)).map (·.update)).foldl applyUpdate (here ++ begun)

/-- Prefix records whose entry lies in a bank, as their record numbers. -/
def State.handlesIn (s : State) (n : Nat) : List Nat :=
  (s.entriesOf n).map (fun e => e.data.getD 0 0 + e.data.getD 1 0 % 2 * 65536)

/-- A logical bank becomes a dead position: no physical bank, no entries, nothing under way (R300), and no entry of the repair map
(R274). -/
def State.deadBank (n : Nat) (s : State) : State :=
  ((s.emptyBank n).mapEntry n none 4).onBer (fun b => { b with
    map := modifyAt b.map n (fun _ => none), reloading := b.reloading.filter (· != n),
    moves := b.moves.filter (fun m => m.bank != n), excluded := b.excluded.filter (fun x => x.1 != n),
    windows := b.windows.filter (fun w => w.bank != n), heldUpdate := b.heldUpdate.filter (fun u => u.bank != n) })

/-- Streams that name an entry of a use: a stop string by its index, a literal by its version handle, a tenant (R300). -/
def State.namesEntry (s : State) (use : Nat) (e : BerylEntry) (t : Stream) : Bool :=
  if use == 2 then t.id.stops.any (fun x => x.1 == e.data.getD 0 0)
  else if use == 3 then t.id.tenant == e.key.getD 0 0
  else if use == 4 then s.img.versions.any (fun v => v.uid == t.id.vuid && v.litHandle == e.tag)
  else false

/-- The literal bank with the most free entries, the lowest-numbered of equals (R280). -/
def State.literalBank (s : State) : Option Nat :=
  minBy (fun n => 8192 - s.freeEntries n) ((s.useList 4).filter (fun n => decide (0 < s.freeEntries n)))

/-- The first of these has moved to another bank. -/
def moveLiteral (prof n m : Nat) (l : List (Nat × List Nat)) : List (Nat × List Nat) :=
  let out := l.map (fun e => if e.1 == n then (e.1, e.2.erase prof) else e)
  if out.any (fun e => e.1 == m) then out.map (fun e => if e.1 == m then (e.1, e.2 ++ [prof]) else e) else out ++ [(m, [prof])]

/-- A literal has moved from bank n to bank m: the bank maps of the versions that search it follow (R280). -/
def State.remapLiteral (tag n m : Nat) (s : State) : State :=
  s.onImg (fun g => { g with
    versions := g.versions.map (fun v => if v.litHandle == tag then { v with bankMap := (v.bankMap.filter (· != n) ++ [m]).eraseDups } else v),
    slots := g.slots.map (fun l => match l.vhandles.find? (fun h => h.2 == tag) with
      | some h => if l.entered then { l with literals := moveLiteral h.1 n m l.literals } else l
      | none => l) })

/-- An entry of a lost bank is placed in a free entry of the same use; one without a place is kept as lost, and the streams that name
it are cancelled at their next boundary (R300). -/
def State.rehome (use n : Nat) (e : BerylEntry) (s : State) : State :=
  match if use == 4 then s.literalBank else s.pickBank (candidates (s.useList use) e.key) with
  | some m => if use == 4 then (s.placeIn 30 m e).remapLiteral e.tag n m else s.placeIn 30 m e
  | none => (s.onStr (fun g => { g with tab := g.tab.map (fun t =>
      if s.namesEntry use e t then { t with cancelPending := true } else t) })).onBer (fun b => { b with lost := b.lost ++ [(use, e)] })

/-- The entries of a lost bank go into free entries of the same use, and the loss is raised (R300). -/
def State.scatter (n : Nat) (s : State) : State :=
  (s.entriesOf n).foldl (fun s' e => s'.rehome (s.bankUse n) n e) ((s.deadBank n).raise cBerylLoss)

/-- A physical bank fails (R299, R300): its logical bank moves to a spare or a replacement, whose reload begins, or its
entries are scattered; a CAPACITY record names the failed bank. -/
def State.failBank (b : Nat) (s : State) : State :=
  match s.logical b with
  | none => s.bankFailed b
  | some n =>
    let s1 := (s.bankFailed b).eventFull evCapacity 0 b 4 1 0
    let remap (q : Nat) (s : State) : State :=
      (s.mapEntry n (some q) 4).onBer (fun g =>
        { g with map := modifyAt g.map n (fun _ => some q),
                 reloading := if g.reloading.contains n then g.reloading else g.reloading ++ [n],
                 rows := g.rows.filter (fun r => r.bank != b && r.bank != q) })
    match s1.spares.head? with
    | some q => remap q s1
    | none =>
      match s1.replacement n with
      | some m =>
        let s2 := if s1.bankUse m == 1 then s1.dropRecords (s1.handlesIn m) else s1
        remap ((s2.physical m).getD 0) (s2.deadBank m)
      | none => if s1.bankUse n == 1 then (s1.dropRecords (s1.handlesIn n)).deadBank n else s1.scatter n

/-! ### Entries that neither copy keeps (R289, R459) -/

/-- The literal entries that the resident versions and the entered load slots have: handle, entry and bank map. -/
def State.literalSource (s : State) : List (BerylEntry × List Nat) :=
  s.img.versions.flatMap (fun v => v.special.map (fun sp => (literalEntry sp v.litHandle, v.bankMap))) ++
  (s.img.slots.filter (·.entered)).flatMap (fun l => l.sections.flatMap (fun x => match x with
    | .special n _ _ sp => (match assoc l.vhandles n with
      | some h => sp.map (fun y => (literalEntry y h, ((l.literals.filter (fun e => e.2.contains n)).map (·.1))))
      | none => [])
    | _ => []))

/-- Whether a lost entry has a key and tag. -/
def State.isLost (s : State) (use : Nat) (key : List Nat) (tag : Nat) : Bool :=
  s.ber.lost.any (fun x => x.1 == use && x.2.key == key && x.2.tag == tag)

/-- What Beryl no longer holds of a use is restored from its own source: literals from the profile versions into the bank that lost them,
stop strings from their store, tenants from the budget records; a prefix handle has no source and is dropped (R459). -/
def State.restoreUse (use n : Nat) (s : State) : State :=
  if use == 4 then
    (s.literalSource.filter (fun x => x.2.contains n)).foldl (fun s x =>
      if x.2.any (fun m => (s.findEntry m x.1.key x.1.tag).isSome || s.comes m x.1.key x.1.tag) || s.isLost 4 x.1.key x.1.tag then s
      else s.placeIn 30 n x.1) s
  else
    let gone (s : State) (key : List Nat) : Bool :=
      !(candidates (s.useList use) key).any (fun m => (s.findEntry m key 0).isSome || s.comes m key 0) && !s.isLost use key 0
    if use == 2 then
      (s.img.stopStore.filter (fun x => !x.coll)).foldl (fun s x =>
        if gone s [stopKey x.bytes] then (s.insertUse 30 2 (stopEntryOf (stopKey x.bytes) x.bytes.length x.index)).getD s else s) s
    else if use == 3 then
      s.sto.budgets.foldl (fun s b =>
        if gone s [b.tenant] then (s.insertUse 20 3 (tenantEntry b.tenant b.num)).getD s else s) s
    else if use == 1 then
      s.dropRecords ((s.sto.pfx.filter (fun r => (!r.dropped || (r.replica && r.attach != 0)) && gone s [r.handle, r.tenant])).map (·.num))
    else s

/-- An entry that neither the array nor the shadow can be trusted with is removed through channel 30, and restored from its source
(R289, R459). -/
def State.distrust (n e : Nat) (s : State) : State := (s.clearEntry n e).restoreUse (s.bankUse n) n

/-- Whether the match arrays are accessed at all: not in retention, and not before the block is up (R386, R418). -/
def State.arraysUp (s : State) : Bool := s.start.phase == .run

end Sys2Proof.Machine
end

