-- ==== Sys2Proof/Machine/Fp.lean ====
section
/-! DEFINITION. The facet arithmetic (R251, R257, R258): IEEE 754 binary32 on encodings held as numbers below 2^32,
rounding to nearest with ties to even, subnormals kept, overflow to the largest finite value; correctly rounded 2^u and
log2. Values are exact dyadic rationals m × 2^e inside. -/
namespace Sys2Proof.Machine.Fp

/-- A dyadic value: sign, magnitude m and exponent e, worth m × 2^e. -/
structure Dy where
  neg : Bool
  m : Nat
  e : Int
  deriving DecidableEq, Repr

/-- Whether an encoding is finite. -/
def finite (b : Nat) : Bool := bits b 30 23 != 255

/-- Whether an encoding is a NaN. -/
def isNan (b : Nat) : Bool := bits b 30 23 == 255 && bits b 22 0 != 0

/-- The value of a finite encoding. -/
def toDy (b : Nat) : Dy :=
  let ex := bits b 30 23
  let fr := bits b 22 0
  if ex == 0 then { neg := bit b 31, m := fr, e := -149 }
  else { neg := bit b 31, m := fr + 2 ^ 23, e := (ex : Int) - 150 }

/-- m × 2^k rounded down for negative k, with whether anything was lost. -/
def shiftSticky (m : Nat) (k : Int) : Nat × Bool :=
  if 0 ≤ k then (m <<< k.toNat, false)
  else
    let n := (-k).toNat
    (m >>> n, m % 2 ^ n != 0)

/-- The encoding nearest to m × 2^e plus an excess below one unit of m when sticky is set, ties to even, with overflow
to the largest finite value (R257). -/
def roundMag (neg : Bool) (m : Nat) (e : Int) (sticky : Bool) : Nat :=
  let s := if neg then 2 ^ 31 else 0
  if m == 0 then s
  else
    -- q is the exponent of the result's last place: at least -149, and 24 significant bits
    let len : Int := (Nat.log2 m : Int) + 1
    let q : Int := max (-149) (e + len - 24)
    -- two guard bits below the last place
    let (g, lost) := shiftSticky m (e - (q - 2))
    let base := g / 4
    let rest := g % 4
    let st := lost || sticky
    let up := rest == 3 || (rest == 2 && (st || base % 2 == 1))
    let r := if up then base + 1 else base
    -- r may have reached 2^24: the encoding arithmetic carries into the exponent by itself
    let enc := if r < 2 ^ 23 then r else (q + 149).toNat * 2 ^ 23 + r
    if enc ≥ 0x7F800000 then s + 0x7F7FFFFF else s + enc

/-- The encoding nearest to a dyadic value. -/
def ofDy (d : Dy) : Nat := roundMag d.neg d.m d.e false

/-- The signed sum of two dyadic values at a common exponent. -/
def addDy (a b : Dy) : Int × Int :=
  let e := min a.e b.e
  let x : Int := (a.m <<< (a.e - e).toNat : Nat)
  let y : Int := (b.m <<< (b.e - e).toNat : Nat)
  ((if a.neg then -x else x) + (if b.neg then -y else y), e)

/-- add (R257). An exact zero sum is +0, but -0 + -0 is -0. -/
def add (a b : Nat) : Nat :=
  let (v, e) := addDy (toDy a) (toDy b)
  if v == 0 then (if bit a 31 && bit b 31 then 2 ^ 31 else 0)
  else roundMag (decide (v < 0)) v.natAbs e false

/-- The encoding with its sign turned. -/
def negate (a : Nat) : Nat := if bit a 31 then a - 2 ^ 31 else a + 2 ^ 31

/-- sub (R257). -/
def sub (a b : Nat) : Nat := add a (negate b)

/-- mul (R257). -/
def mul (a b : Nat) : Nat :=
  let x := toDy a
  let y := toDy b
  roundMag (x.neg != y.neg) (x.m * y.m) (x.e + y.e) false

/-- div (R257), for a divisor that is not zero: R260 divides by a sum of at least 1.0. -/
def div (a b : Nat) : Nat :=
  let x := toDy a
  let y := toDy b
  let n := x.m <<< 64
  roundMag (x.neg != y.neg) (n / y.m) (x.e - 64 - y.e) (n % y.m != 0)

/-- Numeric less-than (R257): negative zero equals positive zero. -/
def lt (a b : Nat) : Bool := decide ((addDy (toDy a) (let y := toDy b; { y with neg := !y.neg })).1 < 0)

/-- Numeric less-or-equal. -/
def leq (a b : Nat) : Bool := !lt b a

/-- Numeric equality. -/
def eq (a b : Nat) : Bool := !lt a b && !lt b a

def one : Nat := 0x3F800000
def log2e : Nat := 0x3FB8AA3B
def ln2 : Nat := 0x3F317218
def negInf : Nat := 0xFF800000

/-- Newton's integer square root with bounded iterations from above. -/
def isqrtAux (n : Nat) : Nat → Nat → Nat
  | 0, x => x
  | k + 1, x =>
    let y := (x + n / x) / 2
    if y < x then isqrtAux n k y else x

/-- The integer square root of n. -/
def isqrt (n : Nat) : Nat := if n == 0 then 0 else isqrtAux n (Nat.log2 n + 8) (2 ^ (Nat.log2 n / 2 + 1))

/-- Working precision of 2^u and log2, in bits. -/
def prec : Nat := 192

/-- Multiplies acc by 2^(2^-1), 2^(2^-2), ... for the bits of the fraction f, taken from the top of n bits; root holds
the next of those constants at prec bits. -/
def exp2Frac (f : Nat) : Nat → Nat → Nat → Nat
  | 0, _, acc => acc
  | n + 1, root, acc =>
    let acc' := if f.testBit n then (acc * root) >>> prec else acc
    exp2Frac f n (isqrt (root <<< prec)) acc'

/-- exp2_bx (R258), for u at most zero. u = -(i + f / 2^n) is rewritten as -(i + 1) + g with g = 1 - f / 2^n below one;
below 2^-60 in magnitude the result is 1.0. -/
def exp2 (u : Nat) : Nat :=
  let d := toDy u
  if d.m == 0 then one
  else
    -- the magnitude as a multiple of 2^-64, with whether bits below were lost
    let (v, lost) := shiftSticky d.m (d.e + 64)
    if v ≥ 151 <<< 64 then 0
    else if v < 2 ^ 4 then one
    else
      let v' := if lost then v + 1 else v
      let i : Nat := v' / 2 ^ 64
      let f := v' % 2 ^ 64
      if f == 0 then roundMag false 1 (-(i : Int)) false
      else
        let g := 2 ^ 64 - f
        let r := exp2Frac g 64 (isqrt (2 <<< (2 * prec))) (1 <<< prec)
        roundMag false r (-(i : Int) - 1 - prec) true

/-- Fraction bits of log2: squares x (between 1 and 2 at 2 × prec bits) and takes the carried bit each time. -/
def log2Frac : Nat → Nat → Nat → Nat
  | 0, _, acc => acc
  | n + 1, x, acc =>
    let sq := (x * x) >>> (2 * prec)
    if sq ≥ 2 <<< (2 * prec) then log2Frac n (sq / 2) (2 * acc + 1) else log2Frac n sq (2 * acc)

/-- log2_bx (R258), for s at least 1.0. -/
def log2 (s : Nat) : Nat :=
  let d := toDy s
  let len := Nat.log2 d.m
  let i : Int := d.e + len
  let x := d.m <<< (2 * prec - len)
  if x == 1 <<< (2 * prec) then roundMag (decide (i < 0)) i.natAbs 0 false
  else
    let f := log2Frac 128 x 0
    roundMag false (i.toNat * 2 ^ 128 + f) (-128) true

/-- tree (R258): the fixed pairwise sum; k is the height of the tree. -/
def tree : Nat → List Nat → Nat
  | 0, l => l.headD 0
  | k + 1, l => add (tree k (l.take (2 ^ k))) (tree k (l.drop (2 ^ k)))

/-- An encoding of a small format (exponent bits eb, fraction bits fb, bias) as binary32, exactly (R251). -/
def widen (eb fb : Nat) (bias : Int) (hasInf : Bool) (v : Nat) : Nat :=
  let neg := bit v (eb + fb)
  let ex := bits v (eb + fb - 1) fb
  let fr := v % 2 ^ fb
  let s := if neg then 2 ^ 31 else 0
  if hasInf && ex == 2 ^ eb - 1 then s + 0x7F800000 + fr * 2 ^ (23 - fb)
  else if !hasInf && ex == 2 ^ eb - 1 && fr == 2 ^ fb - 1 then s + 0x7FC00000
  else if ex == 0 then roundMag neg fr (1 - bias - fb) false
  else roundMag neg (fr + 2 ^ fb) ((ex : Int) - bias - fb) false

/-- The binary32 encoding of a logit of a burst format (R251): 0 bf16, 1 fp16, 2 E4M3, 3 E5M2. -/
def ofFormat (fmt v : Nat) : Nat :=
  if fmt == 0 then (v % 2 ^ 16) * 2 ^ 16
  else if fmt == 1 then widen 5 10 15 true (v % 2 ^ 16)
  else if fmt == 2 then widen 4 3 7 false (v % 2 ^ 8)
  else widen 5 2 15 true (v % 2 ^ 8)

end Sys2Proof.Machine.Fp
end

