-- ==== Sys2Proof/Machine/Operands.lean ====
section
/-! DEFINITION. The operand forms of packets: the header (R43), the payload layouts, and check 4 of R48 for every opcode,
which judges only what a packet shows by itself (R494). -/
namespace Sys2Proof.Machine

/-! ### UTF-8 -/

/-- Number of continuation bytes and range of the first of them after a lead byte of well-formed UTF-8 (RFC 3629); none
for a byte that leads nothing. -/
def utf8Lead (b : Nat) : Option (Nat × Nat × Nat) :=
  if b < 0x80 then some (0, 0, 0)
  else if 0xC2 ≤ b && b ≤ 0xDF then some (1, 0x80, 0xBF)
  else if b == 0xE0 then some (2, 0xA0, 0xBF)
  else if b == 0xED then some (2, 0x80, 0x9F)
  else if 0xE1 ≤ b && b ≤ 0xEF then some (2, 0x80, 0xBF)
  else if b == 0xF0 then some (3, 0x90, 0xBF)
  else if 0xF1 ≤ b && b ≤ 0xF3 then some (3, 0x80, 0xBF)
  else if b == 0xF4 then some (3, 0x80, 0x8F)
  else none

/-- How many of the next k bytes continue a sequence, the first of them within lo..hi. -/
def utf8Tail : Nat → Nat → Nat → Bytes → Nat
  | 0, _, _, _ => 0
  | _, _, _, [] => 0
  | k + 1, lo, hi, b :: bs =>
    if lo ≤ b.toNat && b.toNat ≤ hi then utf8Tail k 0x80 0xBF bs + 1 else 0

/-- What stands at the front of a byte string. -/
inductive Front where
  /-- A well-formed sequence of n bytes. -/
  | good (n : Nat)
  /-- A maximal subpart of n bytes that can no longer become well formed. -/
  | bad (n : Nat)
  /-- A proper prefix of a well-formed sequence, cut by the end of the bytes. -/
  | cut (n : Nat)
  deriving DecidableEq, Repr

/-- Judges the front of a byte string that is not empty. -/
def utf8Front (bs : Bytes) : Front :=
  match bs with
  | [] => .cut 0
  | b :: rest =>
    match utf8Lead b.toNat with
    | none => .bad 1
    | some (k, lo, hi) =>
      let n := utf8Tail k lo hi rest
      if n == k then .good (k + 1) else if n == rest.length then .cut (n + 1) else .bad (n + 1)

/-- Well-formed UTF-8, with fuel. -/
def utf8ValidAux : Nat → Bytes → Bool
  | 0, bs => bs.isEmpty
  | k + 1, bs =>
    if bs.isEmpty then true
    else match utf8Front bs with
      | .good n => utf8ValidAux k (bs.drop n)
      | _ => false

/-- Well-formed UTF-8 (RFC 3629). -/
def utf8Valid (bs : Bytes) : Bool := utf8ValidAux bs.length bs

/-! ### The header (R43) -/

/-- The packet that header and payload bytes spell. -/
def Pkt.ofBytes (ap pos : Nat) (b : Bytes) : Pkt :=
  { ap := ap, pos := pos, opcode := rd b 0 2, flags := rd b 2 2, stream := rd b 8 4, tag := rd b 12 4,
    imgGen := rd b 16 2, ring := rd b 19 1, arg := rd b 20 8, payload := slice b 32 (rd b 4 4) }

/-- Check 2 of R48: reserved header bits and bytes zero, RING below 64. -/
def check2 (p : Pkt) (b : Bytes) : Bool := bits p.flags 7 4 == 0 && rd b 28 4 == 0 && decide (p.ring < 64)

/-- The opcodes of R45; the whole range of grp opcodes counts as known (R451). -/
def knownOps : List Nat :=
  [0x0101, 0x0102, 0x0103, 0x0201, 0x0202, 0x0203, 0x0204, 0x0301, 0x0302, 0x0303, 0x0304, 0x0305, 0x0306, 0x0307,
   0x0401, 0x0402, 0x0501, 0x0601, 0x0701, 0x0801, 0x0802, 0x0803, 0x0901, 0x0A01, 0x0A02, 0x0C01, 0x0C02]

/-- Check 3 of R48. -/
def check3 (op : Nat) : Bool := knownOps.contains op || (0x0B01 ≤ op && op ≤ 0x0B3F)

/-- OPFLAGS of a packet (R43). -/
def Pkt.opflags (p : Pkt) : Nat := bits p.flags 15 8

/-- Whether every ARG bit outside a mask is clear. -/
def Pkt.argIn (p : Pkt) (mask : Nat) : Bool := (p.arg &&& mask) == p.arg

/-- STREAM and STANDALONE as R45 and R43 allow them for the opcode. -/
def streamForm (p : Pkt) : Bool :=
  let sa := bit p.flags 0
  if p.opcode == 0x0401 || p.opcode == 0x0402 || p.opcode == 0x0501 then !sa || p.stream == 0
  else if [0x0302, 0x0303, 0x0304, 0x0305, 0x0306, 0x0307, 0x0601, 0x0701, 0x0801].contains p.opcode then !sa
  else !sa && p.stream == 0

/-! ### Payloads -/

/-- The 4-byte token IDs of a payload. -/
def tokenIds (b : Bytes) : List Nat := fields 4 (b.length / 4) b

/-- A list of token IDs as packets carry it: whole, and bits [31:20] zero (R154, R181). -/
def idList (b : Bytes) : Bool :=
  decide (4 ≤ b.length) && b.length % 4 == 0 && (tokenIds b).all (fun t => decide (t < 2 ^ 20))

/-- Whether a list holds no element twice. -/
def noDup {α : Type} [DecidableEq α] : List α → Bool
  | [] => true
  | x :: xs => !xs.contains x && noDup xs

/-- A stop entry of 72 bytes (R95), when its fields are in range (R161). -/
def stopEntry (b : Bytes) : Option StopEnt :=
  let len := rd b 0 1
  let e : StopEnt := { mode := rd b 1 1, bytes := slice b 8 len }
  if 1 ≤ len && len ≤ 64 && decide (e.mode ≤ 1) && allZero (slice b 2 6) && allZero (slice b (8 + len) (64 - len)) &&
    utf8Valid e.bytes then some e else none

/-- k stop entries, each in range and no two with the same bytes (R95, R161). -/
def stopEntries (k : Nat) (b : Bytes) : Option (List StopEnt) :=
  let l := (List.range k).map (fun i => stopEntry (slice b (72 * i) 72))
  let es := l.filterMap id
  if es.length == k && noDup (es.map (·.bytes)) then some es else none

/-- The shaping block of R254. -/
structure Shaping where
  rt : Nat
  topP : Nat
  minP : Nat
  topK : Nat
  gang : Bool
  bias : List (Nat × Nat)
  deriving DecidableEq, Repr

/-- The shaping block that bytes spell, when it is in the ranges that R255 judges by itself. -/
def shapingOf (b : Bytes) : Option Shaping :=
  let n := rd b 14 2
  let sh : Shaping :=
    { rt := rd b 0 4, topP := rd b 4 4, minP := rd b 8 4, topK := rd b 12 2, gang := bit (rd b 16 1) 0,
      bias := (List.range n).map (fun i => (rd b (32 + 8 * i) 4, rd b (36 + 8 * i) 4)) }
  let within (v : Nat) : Bool := Fp.finite v && Fp.leq 0 v && Fp.leq v Fp.one
  if decide (32 ≤ b.length) && decide (n ≤ 4096) && b.length == 32 + 8 * n &&
    Fp.finite sh.rt && Fp.lt 0 sh.rt && within sh.topP && Fp.lt 0 sh.topP && within sh.minP &&
    (1 ≤ sh.topK && sh.topK ≤ 256) && decide (rd b 16 1 < 2) && allZero (slice b 17 15) &&
    sh.bias.all (fun e => decide (e.1 < 2 ^ 20) && !Fp.isNan e.2 && e.2 != 0x7F800000) &&
    noDup (sh.bias.map (·.1)) then some sh else none

/-- The payload of str.open (R308). -/
structure OpenReq where
  tenant : Nat
  profile : Nat
  oflags : Nat
  grammar : Nat
  dset : Nat
  pmode : Nat
  ttft : Nat
  tbt : Nat
  maxGen : Nat
  pfx : Nat
  ends : List Nat
  dest : Nat
  stops : List StopEnt
  input : List Nat
  shape : Shaping
  deriving DecidableEq, Repr

/-- OFLAGS of str.open (R308). -/
def OpenReq.hasGrammar (o : OpenReq) : Bool := bit o.oflags 0
def OpenReq.force (o : OpenReq) : Bool := bit o.oflags 1
def OpenReq.noStops (o : OpenReq) : Bool := bit o.oflags 2
def OpenReq.hasPrefix (o : OpenReq) : Bool := bit o.oflags 3
def OpenReq.autoMigrate (o : OpenReq) : Bool := bit o.oflags 4
def OpenReq.pin (o : OpenReq) : Bool := bit o.oflags 5

/-- The str.open payload that bytes spell, when it passes check 4 (R162, R255, R308, R309). -/
def openReq (b : Bytes) : Option OpenReq :=
  let stopN := rd b 10 1
  let endN := rd b 11 1
  let inN := rd b 50 2
  let oStop := 64
  let oIn := oStop + 72 * stopN
  let oSh := oIn + 4 * inN
  let of := rd b 5 1
  let dset := rd b 8 1
  match stopEntries stopN (b.drop oStop), shapingOf (b.drop oSh) with
  | some stops, some sh =>
    let o : OpenReq :=
      { tenant := rd b 0 4, profile := rd b 4 1, oflags := of, grammar := rd b 6 2, dset := dset, pmode := rd b 9 1,
        ttft := rd b 12 4, tbt := rd b 16 4, maxGen := rd b 20 4, pfx := rd b 24 8,
        ends := (fields 4 4 (slice b 32 16)).take endN, dest := rd b 48 1, stops := stops,
        input := fields 4 inN (b.drop oIn), shape := sh }
    if decide (64 ≤ b.length) && decide (o.tenant < 2 ^ 24) && decide (o.profile < 16) && decide (of < 64) &&
      (if o.hasGrammar then decide (o.grammar < 4096) else o.grammar == 0) &&
      bits dset 1 0 != 3 && bits dset 3 2 != 3 && bits dset 7 6 != 3 && decide (o.pmode < 2) &&
      decide (stopN ≤ 16) && decide (endN ≤ 4) && (stopN == 0 || !o.noStops) &&
      (o.hasPrefix || o.pfx == 0) &&
      (fields 4 4 (slice b 32 16)).all (fun t => decide (t < 2 ^ 20)) &&
      ((fields 4 4 (slice b 32 16)).drop endN).all (· == 0) &&
      decide (o.dest < 64) && rd b 49 1 == 0 && decide (inN ≤ 4096) && allZero (slice b 52 12) &&
      o.input.all (fun t => decide (t < 2 ^ 20)) then some o else none
  | _, _ => none

/-- The payload of bud.set (R325), when it passes check 4. -/
def budSetOf (b : Bytes) : Option BudSet :=
  if b.length == 24 && decide (rd b 0 4 < 2 ^ 24) && decide (rd b 16 1 < 4) && allZero (slice b 17 7) then
    some { tenant := rd b 0 4, rate := rd b 4 4, burst := rd b 8 4, wPrompt := rd b 12 2, wGen := rd b 14 2,
           remove := bit (rd b 16 1) 0, fill := bit (rd b 16 1) 1 }
  else none

/-- The payload of lintel.lower (R353). -/
structure LowerReq where
  modelGen : Nat
  profiles : Nat
  tokensPerPage : Nat
  maxContext : Nat
  canon : List Nat
  deriving DecidableEq, Repr

/-- The lintel.lower payload that bytes spell, when it passes check 4. -/
def lowerReq (b : Bytes) : Option LowerReq :=
  let r : LowerReq :=
    { modelGen := rd b 0 2, profiles := rd b 2 2, tokensPerPage := rd b 4 2, maxContext := rd b 8 4,
      canon := fields 4 16 (b.drop 16) }
  if b.length == 80 && rd b 6 2 == 0 && rd b 12 4 == 0 && (1 ≤ r.tokensPerPage && r.tokensPerPage ≤ 4096) &&
    (1 ≤ r.maxContext && r.maxContext ≤ 2 ^ 31) then some r else none

/-- The fields of sys.ring (R58). -/
structure RingReq where
  ring : Nat
  enable : Bool
  events : Bool
  coalesce : Bool
  vector : Nat
  sizeLog2 : Nat
  base : Nat
  headAddr : Nat
  modCount : Nat
  modTime : Nat
  deriving DecidableEq, Repr

/-- The sys.ring payload that bytes spell, when it passes check 4: with ENABLE clear only RING, ENABLE and the reserved
fields are judged (R58, R59). -/
def ringReq (b : Bytes) : Option RingReq :=
  let f := rd b 1 1
  let r : RingReq :=
    { ring := rd b 0 1, enable := bit f 0, events := bit f 1, coalesce := bit f 2, vector := rd b 2 2,
      sizeLog2 := rd b 4 1, base := rd b 8 8, headAddr := rd b 16 8, modCount := rd b 24 4, modTime := rd b 28 4 }
  if b.length == 48 && decide (r.ring < 64) && decide (f < 8) && allZero (slice b 5 3) && allZero (slice b 32 16) &&
    (!r.enable ||
      ((decide (r.vector < 2048) || r.vector == 0xFFFF) && (16 ≤ r.sizeLog2 && r.sizeLog2 ≤ 30) &&
       r.base % 4096 == 0 && r.headAddr % 8 == 0 && (1 ≤ r.modCount && r.modCount ≤ 65535) &&
       decide (r.modTime ≤ 1000000))) then some r else none

/-- The node entries of a tree, parent and token, nodes 1 to COUNT in order (R356). -/
def treeNodes (b : Bytes) : List (Nat × Nat) :=
  (fields 4 (rd b 0 1) (b.drop 8)).map (fun e => (bits e 31 26, bits e 19 0))

/-- The depths of nodes 0, 1, ... of a tree. -/
def treeDepths (nodes : List (Nat × Nat)) : List Nat :=
  nodes.foldl (fun ds n => ds ++ [ds.getD n.1 0 + 1]) [0]

/-- Check 4 of a tree (R356, R357). -/
def treeForm (b : Bytes) : Bool :=
  let n := rd b 0 1
  let ns := treeNodes b
  (1 ≤ n && n ≤ 63) && allZero (slice b 1 7) && b.length == 8 + 4 * n &&
  (fields 4 n (b.drop 8)).all (fun e => bits e 25 20 == 0) &&
  (List.range n).all (fun i => decide ((ns.getD i (0, 0)).1 < i + 1)) &&
  (treeDepths ns).all (fun d => decide (d ≤ 16))

/-- Units of a target of the march engine (R389): 88 SRAM arrays or 34 CAM banks. -/
def marchUnits (target : Bool) : Nat := if target then 34 else 88

/-- Check 4 of ARG of test.march (R389). -/
def marchForm (arg : Nat) : Bool :=
  let mode := bits arg 1 0
  let first := bits arg 10 4
  let last := bits arg 17 11
  (arg &&& 0x3FFF7) == arg && mode != 3 &&
  (if mode == 2 then arg == 2 else decide (first ≤ last) && decide (last < marchUnits (bit arg 2)))

/-- Instances of a unit kind (R11, R464). -/
def kindCount (kind : Nat) : Nat := [16, 16, 64, 16, 34, 1, 1].getD kind 0

/-- Check 4 of ARG of test.lane (R469). -/
def laneForm (arg : Nat) : Bool :=
  let kind := bits arg 2 0
  (arg &&& 0x13F07) == arg && [0, 1, 2, 3, 5].contains kind && decide (bits arg 13 8 < kindCount kind)

/-- Check 4 of R48, the part that each opcode's chapter gives: OPFLAGS, ARG, PAYLOAD_LEN and the payload layout. -/
def payloadForm (p : Pkt) : Bool :=
  let b := p.payload
  let none_ := b.isEmpty
  let of0 := p.opflags == 0
  match p.opcode with
  | 0x0101 => of0 && b.length == 8 && le b % 8 == 0 && p.argIn 0x13F && (bit p.arg 8 || p.arg == 0)
  | 0x0102 => of0 && p.arg == 0 && (ringReq b).isSome
  | 0x0103 => of0 && p.arg == 0 && none_
  | 0x0201 => of0 && !none_ && p.argIn 0xFFFFFFFFF
  | 0x0202 => of0 && none_ && p.argIn 0xF
  | 0x0203 => of0 && none_ && ((bits p.arg 1 0 == 0 && p.argIn 0xF3) || (bits p.arg 1 0 == 1 && p.argIn 0xFFF0003))
  | 0x0204 => of0 && none_ && p.argIn 0xFFF0003 && (bits p.arg 1 0 != 3 || decide (bits p.arg 27 16 < 16))
  | 0x0301 => of0 && p.arg == 0 && (openReq b).isSome
  | 0x0302 => of0 && none_ && p.arg == 0
  | 0x0303 => of0 && none_ && p.arg == 0
  | 0x0304 =>
    of0 && p.arg == 0 && b.length == 32 && decide (rd b 0 1 ≤ 2) && allZero (slice b 1 7) && rd b 8 4 != 0 &&
    allZero (slice b 12 4) && rd b 16 8 % 4096 == 0 && (rd b 0 1 != 1 || allZero (slice b 16 16))
  | 0x0305 => of0 && none_ && p.argIn 0x7F
  | 0x0306 => of0 && none_ && p.argIn 1
  | 0x0307 => of0 && none_ && p.argIn 0x3F
  | 0x0401 =>
    let sa := bit p.flags 0
    p.argIn 0xF && (sa || p.arg == 0) && decide (p.opflags < 32) && (!bit p.opflags 1 || (bit p.opflags 0 && !sa)) &&
    (bit p.opflags 0 || !sa)
  | 0x0402 => p.argIn 0xF && (bit p.flags 0 || p.arg == 0) && of0 && idList b
  | 0x0501 =>
    p.argIn 0xF && (bit p.flags 0 || p.arg == 0) && decide (p.opflags < 16) && bits p.opflags 1 0 != 3 &&
    bits p.opflags 3 2 != 3 && idList b
  | 0x0601 => of0 && none_ && p.argIn 0xFFFFF
  | 0x0701 =>
    if p.opflags == 1 then none_ && p.argIn 0xFFFFF03FFF && bits p.arg 19 14 == 0
    else of0 && p.arg == 0 && treeForm b
  | 0x0801 => of0 && none_
  | 0x0802 => of0 && p.arg == 0 && b.length == 16 && rd b 11 1 == 0 && allZero (slice b 12 4)
  | 0x0803 => of0 && p.arg == 0 && b.length == 16 && rd b 11 1 == 0 && allZero (slice b 12 4)
  | 0x0901 => of0 && p.arg == 0 && (budSetOf b).isSome
  | 0x0A01 => of0 && none_ && p.argIn 0xFFFF
  | 0x0A02 => of0 && p.arg == 0 && (lowerReq b).isSome
  | 0x0B01 => of0 && none_ && p.argIn 0x3F03 && decide (bits p.arg 1 0 ≤ 1)
  | 0x0B02 => of0 && p.arg == 0 && b.length == 8 && decide (rd b 4 1 < 64) && allZero (slice b 5 3)
  | 0x0B03 => of0 && none_ && p.arg == 0
  | 0x0B04 => of0 && none_ && p.arg == 0
  | 0x0B05 => of0 && none_ && p.arg == 0
  | 0x0C01 => of0 && none_ && marchForm p.arg
  | 0x0C02 => of0 && none_ && laneForm p.arg
  | _ => false

/-- Check 4 of R48. -/
def check4 (p : Pkt) : Bool := streamForm p && payloadForm p

end Sys2Proof.Machine
end

