-- ==== Sys2Proof/Machine/Staging.lean ====
section
/-! DEFINITION. The frame-sized pools and their arrays (R88, R381, R399), and the blocks that streams hold in text staging and in the bias
area (R173, R256, R306). -/
namespace Sys2Proof.Machine
open Sys2Proof

/-! ### Pools (R88, R381, R390, R399) -/

/-- Arrays of a frame-sized pool before withdrawals: the pools follow each other from array 32 in whole arrays of 4 MiB (R381). -/
def State.poolArrays (s : State) (n : Nat) : List Nat :=
  let k (i : Nat) : Nat := s.img.frame.pools.getD i 0 / 4
  let first := 32 + ((List.range n).map k).foldl (· + ·) 0
  (List.range (k n)).map (· + first)

/-- Bytes of a frame-sized pool: what the frame gives it, less its withdrawn arrays (R88, R399). -/
def State.pool (s : State) (n : Nat) : Nat :=
  s.img.frame.pools.getD n 0 * 2 ^ 20 - ((s.poolArrays n).filter s.mem.withdrawn.contains).length * 2 ^ 22

/-- The frame-sized pool that an array belongs to. -/
def State.poolOf (s : State) (array : Nat) : Option Nat := (List.range 6).find? (fun n => (s.poolArrays n).contains array)

/-- Bytes of a pool's arrays that a march holds back from allocation (R390). -/
def State.heldBack (s : State) (n : Nat) : Nat := ((s.poolArrays n).filter s.mem.noAlloc.contains).length * 2 ^ 22

/-! ### Text staging (R66, R173, R306, log 8)

Window blocks and heal blocks are numbered in units of 64 B from the start of the pool, input-queue blocks in units of 256 B. -/

/-- The 64-byte units that a stream's blocks take. -/
def Blocks.units (b : Blocks) : List Nat :=
  b.queue.flatMap (fun q => [4 * q, 4 * q + 1, 4 * q + 2, 4 * q + 3]) ++ b.window.toList ++ b.heal.toList

/-- Blocks of an input queue of n tokens: 256 bytes hold a link and 63 IDs (log 8). -/
def queueBlocks (n : Nat) : Nat := ceilDiv n 63

/-- 512-byte blocks of a bias list (R256). -/
def biasBlocks (l : List (Nat × Nat)) : Nat := ceilDiv l.length 64

/-- Whether a stream has a stop list, and so holds a window block (R173). -/
def Stream.needsWindow (t : Stream) : Bool := !t.id.stops.isEmpty

/-- Units that a stream with these needs takes: queue tokens, a window, heal text. -/
def textUnits (queued : Nat) (window heal : Bool) : Nat :=
  4 * queueBlocks queued + (if window then 1 else 0) + (if heal then 1 else 0)

/-- 64-byte units of text staging in use: blocks of streams, encode tails, and records that wait for ring space. -/
def State.textUsed (s : State) : Nat :=
  (s.str.tab.map (fun (t : Stream) => t.blocks.units.length + ceilDiv t.enc.tail 64)).foldl (· + ·) 0 +
  (s.egr.rings.map (fun (g : Ring) => (g.waiting.map (fun w => recSlots w.2)).foldl (· + ·) 0)).foldl (· + ·) 0

/-- Whether so many further units of text staging are free. -/
def State.unitsFree (s : State) (k : Nat) : Bool := decide (64 * (s.textUsed + k) + s.heldBack 3 ≤ s.pool 3)

/-- Whether text staging can take so many further bytes (R78). -/
def State.textRoom (s : State) (n : Nat) : Bool := s.unitsFree (ceilDiv n 64)

/-- Whether a unit of text staging lies in an array that a march holds back (R390). -/
def State.unitBack (s : State) (u : Nat) : Bool :=
  match (s.poolArrays 3)[u * 64 / 2 ^ 22]? with
  | some a => s.mem.noAlloc.contains a
  | none => false

/-- The first k numbers from 0 on that a test allows, of n tried. -/
def firstFree (ok : Nat → Bool) (n k : Nat) : List Nat := ((List.range n).filter ok).take k

/-- The blocks of a stream brought to what it needs: queue blocks leave at the head and join at the tail, a window or heal block and the bias
blocks come and go whole; the lowest free ones are taken (log 16). -/
def State.fit (s : State) (t : Stream) : Blocks :=
  let b := t.blocks
  let others := s.str.tab.filter (fun x => x.id.slot != t.id.slot)
  let taken := others.flatMap (fun x => x.blocks.units)
  let span := taken.length + b.units.length + 4 * t.queue.length + 8 + 65536 * s.mem.noAlloc.length
  let free (more : List Nat) (u : Nat) : Bool := !taken.contains u && !more.contains u && !s.unitBack u
  let nq := if b.held then queueBlocks t.queue.length else 0
  let old := b.queue.drop (b.queue.length - nq)
  let kept := ({ b with queue := old } : Blocks).units
  let fresh := firstFree (fun q => [0, 1, 2, 3].all (fun k => free kept (4 * q + k))) span (nq - old.length)
  let q := old ++ fresh
  let one (want : Bool) (have_ : Option Nat) (more : List Nat) : Option Nat :=
    if !want then none else match have_ with
      | some u => some u
      | none => (firstFree (free more) span 1).head?
  let kept2 := ({ b with queue := q } : Blocks).units
  let w := one (b.held && t.needsWindow) b.window kept2
  let kept3 := ({ b with queue := q, window := w } : Blocks).units
  let h := one (b.held && t.enc.heal.isSome) b.heal kept3
  let nb := if t.id.biasHeld then biasBlocks t.id.bias else 0
  let biasTaken := others.flatMap (fun x => x.blocks.bias)
  let bias := if b.bias.length == nb then b.bias
    else firstFree (fun u => !biasTaken.contains u) (biasTaken.length + nb) nb
  { b with queue := q, window := w, heal := h, bias := bias }

/-- The blocks of the stream in a slot follow its queue, window, heal text and bias list (R173, R256, R306). -/
def State.stow (slot : Nat) (s : State) : State :=
  match s.stream? slot with
  | none => s
  | some t => s.onStream slot (fun t' => { t' with blocks := s.fit t })

end Sys2Proof.Machine
end

