-- ==== Sys2Proof/Machine/Runner.lean ====
section
/-! DEFINITION. Taking a packet up for execution: its order (R55, R57), checks 5 and 6 of R48 with the legality table of
R315, and the packet put at work. -/
namespace Sys2Proof.Machine
open Sys2Proof

/-! ### Order -/

/-- The FENCE flag of a packet (R43). -/
def Pkt.fence (p : Pkt) : Bool := bit p.flags 2

/-- The opcodes whose work on a stream takes effect later than they are taken up, so that later packets of the stream wait for it:
str.pause, str.resume, str.migrate, and encode work (R51, R55, log 11). -/
def slowOps : List Nat := [0x0304, 0x0305, 0x0307, 0x0401, 0x0402]

/-- Whether a packet may be taken up: a FENCE packet waits until every earlier packet of its aperture has written its cmp record
(R57), a packet of a stream for the earlier staged ones of its aperture and stream, and, unless it is str.cancel, until those at work
have taken effect (R51, R55, log 11). -/
def State.mayStart (s : State) (p : Pkt) : Bool :=
  let earlier (q : Pkt) : Bool := q.ap == p.ap && decide (q.pos < p.pos)
  (!p.fence || !(s.undone.any earlier || s.cmpUnwritten p.ap p.pos)) &&
  (!p.onStream ||
    (!s.ing.staged.any (fun q => earlier q && q.named == p.named) &&
     (p.opcode == 0x0303 ||
      !s.ing.working.any (fun w => earlier w.pkt && w.pkt.named == p.named && slowOps.contains w.pkt.opcode))))

/-! ### Checks 5 and 6 -/

/-- What checks 5 and 6 answer. -/
inductive Check where
  | pass
  | fail (status : Nat)
  | moved (dest newHandle : Nat)
  deriving DecidableEq, Repr

/-- Check 5 of R48: GROUP_MOVED for the old handle of a forwarding slot (R305), STALE_HANDLE for a handle that names no
live stream, then the epoch test of a spec.tree reply (R367). -/
def State.check5 (s : State) (p : Pkt) : Check :=
  if !p.onStream then .pass
  else
    match s.str.forwards.find? (fun f => f.slot == slotOf p.stream && f.gen == genOf p.stream) with
    | some f => .moved f.dest f.newHandle
    | none =>
      match s.live? p.stream with
      | none => .fail stStaleHandle
      | some t =>
        if p.opcode == 0x0701 && bit p.opflags 0 then
          let d := (t.epoch + 256 - bits p.arg 7 0) % 256
          if d == 0 then .pass else if d < 128 then .fail stStaleHandle else .fail stBadPacket
        else .pass

/-- Personality flags of the committed frame. -/
def State.prefill (s : State) : Bool := bit s.img.frame.personality 0
def State.generation (s : State) : Bool := bit s.img.frame.personality 1
def State.cacheOnly (s : State) : Bool := s.img.frame.personality == 4

/-- Whether the personality serves a packet (R16). -/
def State.serves (s : State) (p : Pkt) : Bool :=
  if p.opcode == 0x0301 then s.prefill || s.generation
  else if p.opcode == 0x0401 || p.opcode == 0x0402 then p.standalone || s.prefill
  else if p.opcode == 0x0601 || p.opcode == 0x0701 then s.generation
  else true

/-- The legality table of R315 with its notes; tree and reply are told apart by OPFLAGS. -/
def legal (p : Pkt) (t : Stream) : Bool :=
  let st := t.state
  let noDoc := !t.enc.docOpen
  match p.opcode with
  | 0x0302 => st == .prompt || st == .ready || st == .paused || st == .draining
  | 0x0303 => true
  | 0x0304 => (st == .prompt && noDoc) || st == .ready || st == .draining
  | 0x0305 => st == .paused
  | 0x0306 => st != .opening && st != .closed
  | 0x0307 => (st == .prompt && noDoc) || st == .ready || st == .paused || st == .draining
  | 0x0401 => st == .prompt || st == .ready || st == .draining
  | 0x0402 => (st == .prompt && noDoc) || st == .ready || st == .draining
  | 0x0501 => st != .opening && st != .closed
  | 0x0601 => st == .await
  | 0x0701 => if bit p.opflags 0 then st == .await else st == .ready
  | 0x0801 => st == .ready || st == .draining || (st == .paused && (t.pause.map (·.pmode)) == some 0)
  | _ => true

/-- Check 6 of R48: generation, personality (R17), aperture (R56), then the state table (R315). -/
def State.check6 (s : State) (p : Pkt) : Check :=
  if bit p.flags 1 && p.imgGen != s.img.gen then .fail stStateConflict
  else if !s.serves p then .fail stStateConflict
  else if !p.onStream then .pass
  else
    match s.live? p.stream with
    | none => .fail stStaleHandle
    | some t =>
      if p.opcode != 0x0303 && p.ap != t.id.ap then .fail stStateConflict
      else if legal p t then .pass else .fail stStateConflict

/-- Checks 5 and 6 in order. -/
def State.check56 (s : State) (p : Pkt) : Check :=
  match s.check5 p with
  | .pass => s.check6 p
  | c => c

/-- Refuses a packet of a stream that lives on another block (R54). -/
def State.refuseMoved (p : Pkt) (dest h : Nat) (s : State) : State :=
  s.cmp p stGroupMoved 0 (some (dest + h * 2 ^ 32)) none none

/-! ### Taking up -/

/-- The staged packet at an aperture position. -/
def State.stagedAt (s : State) (ap pos : Nat) : Option Pkt := s.ing.staged.find? (fun q => q.ap == ap && q.pos == pos)

/-- Whether a packet needs the Sill core: all but the encode, decode, choice and tree packets of the step path, which runs in
hardware (R462, log 12). -/
def Pkt.firmware (p : Pkt) : Bool := !([0x0401, 0x0402, 0x0501, 0x0601, 0x0701].contains p.opcode)

/-- The packet leaves staging and is at work; the packet that a lockstep mismatch interrupted carries REPLAYED (R462). -/
def State.start_ (p : Pkt) (s : State) : State :=
  let again := s.mem.journal == some p
  (s.onIng (fun g => { g with staged := g.staged.filter (fun q => q.ap != p.ap || q.pos != p.pos),
                              working := g.working ++ [{ pkt := p, info := flag again 1 }] })).onMem
    (fun m => { m with journal := if again then none else m.journal })

/-- Takes up a staged packet of the given form: in its turn, checks 5 and 6, then its own work; otherwise nothing happens
(log 6). The first packet of a stream that a memory error has cancelled completes with CANCELLED (R384). -/
def State.runPacket (form : Pkt → Bool) (ap pos : Nat) (work : Pkt → State → State) (s : State) : State :=
  match s.stagedAt ap pos with
  | none => s
  | some p =>
    if form p && s.mayStart p && s.serving && !(p.firmware && s.mem.sillHalted) then
      let s1 := s.start_ p
      if s1.start.down then s1.refuse p stBlockDown
      else if p.onStream && s1.str.memCancel.contains p.stream then
        (s1.onStr (fun g => { g with memCancel := g.memCancel.filter (· != p.stream) })).refuse p stCancelled
      else
        match s1.check56 p with
        | .pass => work p s1
        | .fail st => s1.refuse p st
        | .moved d h => s1.refuseMoved p d h
    else s

/-- Form test by opcode alone. -/
def isOp (op : Nat) (p : Pkt) : Bool := p.opcode == op

end Sys2Proof.Machine
end

