-- ==== Sys2Proof/Machine/Cam.lean ====
section
/-! DEFINITION. The commands of Beryl (chapter 09): searches, updates with their moves and windows, the compactor, the scrubber, reloads,
the debug channel, and the packets that wait for Beryl. -/
namespace Sys2Proof.Machine
open Sys2Proof

/-! ### Searches (R288, R289, R298, R299) -/

/-- Stores a channel's result; that of channel 28 answers the debug command (R492). -/
def State.putResult (c : Nat) (r : BitVec 128) (s : State) : State :=
  s.onBer (fun b =>
    let b1 := { b with results := assocSet b.results c r }
    if c == 28 then { b1 with dbgBusy := false, dbgDone := true, dbgRes := r } else b1)

/-- The winner's entry passes verification but for a shadow word that is uncorrectable (R289). -/
def State.verifiedBut (s : State) (req : SearchReq) (n e bad : Nat) : Bool :=
  let w := s.bankWidth n
  match s.physical n with
  | none => false
  | some p =>
    let row (u : Nat) : Nat := if u == bad then rowAt s.ber.rows p (w * e + u) else s.shadowRow n (w * e + u)
    matchesRows row req &&
    (List.range w).all (fun u =>
      let a := rowAt s.ber.rows p (w * e + u)
      bits a 95 80 == bits (row u) 95 80 && (u != 0 || bits a 111 96 == bits (row u) 111 96))

/-- A search's result goes to its channel. -/
def State.answer (q : HeldReq) (held : Bool) (win : Option (Nat × Nat)) (multi : Bool) (s : State) : State :=
  s.putResult q.req.channel (s.resultOf win multi q.retried held)

/-- A search that holds its slots (R285 to R289). A shadow word that is uncorrectable is rewritten from the array; with a false hit at the
same time the entry is removed and the search is a miss. A false hit is counted, rewritten and searched again once; a second one at the
same row fails the bank, and the search is held until the bank is replaced (R288, R299). -/
def State.search (q : HeldReq) (held : Bool) (bad : Option Nat) (stuck : Bool) (s : State) : State :=
  let req := q.req
  let (banks, out) := s.searchBanks req
  let s1 := (out.foldl (fun s n => s.logicalCount n 3 1) s).useSlots banks req.channel 1
  let (win, multi) := s1.resolve req banks
  match win with
  | none => s1.answer q held none false
  | some (n, e) =>
    let w := s1.bankWidth n
    match bad.filter (· < w) with
    | some u =>
      if s1.verifiedBut req n e u then
        let row := match s1.physical n with | some p => rowAt s1.ber.rows p (w * e + u) | none => 0
        ((s1.onBer (fun b => { b with shadow := rowSet b.shadow n (w * e + u) row })).logicalCount n 6 1).answer q held win multi
      else ((s1.logicalCount n 4 1).distrust n e).answer q held none false
    | none =>
      if s1.verified req n e then s1.answer q held win multi
      else
        let again : HeldReq := { q with retried := true }
        let s2 := s1.logicalCount n 4 1
        let s3 := (if stuck then s2 else s2.rewriteEntry n e).useSlots banks req.channel 1
        let (win2, multi2) := s3.resolve req banks
        match win2 with
        | none => s3.answer again held none false
        | some (m, f) =>
          if s3.verified req m f then s3.answer again held win2 multi2
          else
            let s4 := s3.logicalCount m 4 1
            if m == n && f == e then
              let s5 := s4.onBer (fun g => { g with heldSearch := g.heldSearch ++ [again] })
              match s5.physical n with | some b => s5.failBank b | none => s5
            else (s4.rewriteEntry m f).answer again held none false

/-- Whether a search waits: for a reload of a selected bank (R299), and on a prefix-handle channel across a three-step window on one
(R298). -/
def State.searchWaits (s : State) (req : SearchReq) : Bool :=
  let c := req.channel
  (bitList 32 req.select).any (fun n => s.ber.reloading.contains n ||
    (((16 ≤ c && c < 20) || (24 ≤ c && c < 28)) && s.ber.windows.any (fun w => w.bank == n)))

/-- The place of a channel in the round of a bank, which starts after the channel that last won it (R282). -/
def State.roundOf (s : State) (req : SearchReq) : Nat :=
  let last := match (bitList 32 req.select).findSome? s.physical with
    | some p => s.ber.lastWon.getD p 31
    | none => 31
  (req.channel + 31 - last) % 32

/-- Searches that nothing holds any more are carried out with HELD (R298, R299), in the round-robin order of their channels (R282). -/
def State.runHeld (s : State) : State :=
  let (rest, ready) := s.ber.heldSearch.partition (fun q => s.searchWaits q.req)
  (sortBy (fun a b => decide (s.roundOf a.req < s.roundOf b.req)) ready).foldl (fun s q => s.search q true none false)
    (s.onBer (fun b => { b with heldSearch := rest }))

/-- Cells that soft errors have flipped: the match array alone changes (R288, R290). -/
def State.upset (l : List Upset) (s : State) : State :=
  s.onBer (fun b => { b with rows := l.foldl (fun rs x => rowSet rs x.bank x.row (rowAt rs x.bank x.row ^^^ 2 ^ x.bit)) b.rows })

/-! ### Updates (R292 to R299) -/

/-- The uses that a channel may update by slot stealing with an update, and by three steps (R281): channels 24 and 25 only insert. -/
def stealUses (c : Nat) (u : BerylUpdate) : List Nat :=
  match u with
  | .change _ _ _ => []
  | .insert _ => if 16 ≤ c && c < 20 then [1] else if 20 ≤ c && c < 22 then [3] else if 24 ≤ c && c < 26 then [1] else []
  | .remove _ _ => if 16 ≤ c && c < 20 then [1] else if 20 ≤ c && c < 22 then [3] else []
def stepUses (c : Nat) : List Nat := if c == 30 then [0, 1, 2, 3, 4] else if c == 31 then [3, 1] else []

/-- An insert that needs a move begins it: its destination is excluded until the run has moved (R291 to R293). -/
def State.beginMove (c n : Nat) (e : BerylEntry) (pl : Place) (lo hi : Nat) (down : Bool) (s : State) : State :=
  s.onBer (fun b => { b with
    moves := b.moves ++ [{ bank := n, lo := lo, hi := hi, down := down, hole := pl.hole, channel := c, entry := e }],
    excluded := b.excluded ++ [(n, if down then hi + 1 else lo - 1)] })

/-- An update of a bank that is free for it: a removal clears the entry; an insert writes its hole, after the move that opens it when
it needs one; a change writes the entry in its place, whose priority it keeps (R291 to R297). A slot-stealing insert sets MATCH_EN. -/
def State.update (c n : Nat) (u : BerylUpdate) (s : State) : State :=
  match u with
  | .remove key tag =>
    match s.findEntry n key tag with
    | some i => (s.clearEntry n i).took c n
    | none => s
  | .change key tag e =>
    match s.findEntry n key tag with
    | some i => if (s.entryAt n i).prio == e.prio then s.writeEntry n i e else s
    | none => s
  | .insert e0 =>
    let e := if c < 30 then { e0 with matchEn := true } else e0
    match placeOf (s.validEntries n) (s.capacity n) e.prio with
    | none => s
    | some pl =>
      match pl.run with
      | none => (s.writeEntry n pl.hole e).took c n
      | some (lo, hi, d) => s.beginMove c n e pl lo hi d

/-- The final write of an insert whose run has moved; the exclusion ends (R293). -/
def State.finishMove (m : Move) (s : State) : State :=
  ((s.onBer (fun b => { b with moves := b.moves.filter (fun x => x.bank != m.bank), excluded := b.excluded.filter (fun x => x.1 != m.bank) })).writeEntry
    m.bank m.hole m.entry).took m.channel m.bank

/-- What waits for a bank is carried out in order as far as the bank and the cap allow, with fuel (R292, R295, R299). -/
def State.drainBank (n : Nat) : Nat → State → State
  | 0, s => s
  | k + 1, s =>
    match s.ber.moves.find? (fun m => m.bank == n && m.ran) with
    | some m =>
      if s.ber.reloading.contains n then s
      else if s.atCap m.channel n then
        if m.capped then s
        else (s.logicalCount n 2 1).onBer (fun b => { b with moves := b.moves.map (fun x => if x.bank == n then { x with capped := true } else x) })
      else State.drainBank n k (s.finishMove m)
    | none =>
      if s.bankBusy n then s
      else match s.ber.heldUpdate.find? (fun u => u.bank == n) with
        | none => s
        | some u =>
          if s.atCap u.channel n then
            if u.capped then s
            else (s.logicalCount n 2 1).onBer (fun b => { b with
              heldUpdate := b.heldUpdate.map (fun x => if x == u then { x with capped := true } else x) })
          else State.drainBank n k ((s.onBer (fun b => { b with heldUpdate := b.heldUpdate.erase u })).update u.channel n u.update)

/-- Whether a debug read waits for the row port: a reload, a move or a three-step update takes it before (R296). -/
def State.portBusy (s : State) (b : Nat) : Bool := match s.logical b with | some n => s.bankBusy n | none => false

/-- A debug read of a physical row and its shadow word; a bank that serves no logical bank has no shadow (R302, R492). -/
def State.readRowNow (s : State) : State :=
  let bank := bits s.ber.dbgRowSel.toNat 21 16
  let row := bits s.ber.dbgRowSel.toNat 12 0
  let sh := match s.logical bank with | some n => s.shadowRow n row | none => 0
  s.onBer (fun b => { b with
    dbgBusy := false, dbgWaitRow := false, dbgDone := true, dbgRow := BitVec.ofNat 128 (rowAt b.rows bank row), dbgShadow := BitVec.ofNat 128 sh })

/-- A debug read that waits takes the row port once it is free. -/
def State.finishDebug (s : State) : State :=
  if s.ber.dbgWaitRow && !s.portBusy (bits s.ber.dbgRowSel.toNat 21 16) then s.readRowNow else s

/-- Everything in Beryl that waits and need wait no longer: updates, searches, a debug read. -/
def State.drainBeryl (s : State) : State :=
  let banks := (s.ber.heldUpdate.map (·.bank) ++ (s.ber.moves.filter (·.ran)).map (·.bank)).eraseDups
  ((banks.foldl (fun s n => s.drainBank n (s.ber.heldUpdate.length + 2)) s).runHeld).finishDebug

/-- BERYL_SEARCH (R285): held while a selected bank is being reloaded (R299), or across a three-step window on a prefix-handle channel
(R298). -/
def execBerylSearch (dt : Nat) (search : SearchIn) (s : State) : Res :=
  let s1 := s.elapse dt
  .next (if !s1.arraysUp then s1
    else
      let s2 := s1.drainBeryl.upset search.found.upsets
      if s2.searchWaits search.req then s2.onBer (fun b => { b with heldSearch := b.heldSearch ++ [{ req := search.req, retried := false }] })
      else (s2.search { req := search.req, retried := false } false search.found.badWord search.found.stuck).drainBeryl)

/-- An update of a bank waits in order of arrival, or is carried out (R292, R295, R299). -/
def State.updateOrWait (c n : Nat) (u : BerylUpdate) (s : State) : State :=
  if s.mustWait c n then s.waitIn c n u else s.update c n u

/-- SLOT_STEALING_UPDATE (R295): beyond 16 slots of a window it waits for the next, counted as a cap wait. -/
def execSlotStealingUpdate (dt channel bank : Nat) (update : BerylUpdate) (s : State) : Res :=
  let s1 := s.elapse dt
  .next (if !s1.arraysUp then s1
    else if (stealUses channel update).contains (s1.bankUse bank) then s1.drainBeryl.updateOrWait channel bank update
    else s1.drainBeryl)

/-- The invalidate step (R296): a removal is this step alone; an insert that needs a move begins it, any other update opens a window. -/
def State.openWindow (c n : Nat) (u : BerylUpdate) (s : State) : State :=
  let enter (i : Nat) (e : BerylEntry) (s : State) : State := (s.clearEntry n i).onBer (fun b => { b with
    windows := b.windows ++ [{ bank := n, channel := c, update := u, index := i, entry := e, wrote := false }] })
  match u with
  | .remove _ _ => s.update c n u
  | .change key tag e =>
    match s.findEntry n key tag with
    | some i => if (s.entryAt n i).prio == e.prio then enter i e s else s
    | none => s
  | .insert e =>
    match placeOf (s.validEntries n) (s.capacity n) e.prio with
    | none => s
    | some pl => match pl.run with
      | none => enter pl.hole e s
      | some (lo, hi, d) => s.beginMove c n e pl lo hi d

/-- The next step of a window: all rows written with VALID clear, or the entry validated (R296). -/
def State.stepWindow (w : StepWin) (s : State) : State :=
  let k := s.bankWidth w.bank
  if w.wrote then
    (s.writeRow w.bank (k * w.index) (entryRow w.entry true 0)).onBer (fun b => { b with windows := b.windows.filter (fun x => x.bank != w.bank) })
  else
    ((List.range k).reverse.foldl (fun s u => s.writeRow w.bank (k * w.index + u) (entryRow w.entry false u)) s).onBer (fun b => { b with
      windows := b.windows.map (fun x => if x.bank == w.bank then { x with wrote := true } else x) })

/-- THREE_STEP_UPDATE (R296): all its steps, or the next one. -/
def execThreeStepUpdate (dt channel bank : Nat) (steps : UpdateSteps) (s : State) : Res :=
  let s1 := s.elapse dt
  .next (if !s1.arraysUp then s1
    else
      let s2 := s1.drainBeryl
      if !(stepUses channel).contains (s2.bankUse bank) then s2
      else match s2.ber.windows.find? (fun w => w.bank == bank) with
        | some w =>
          if w.channel == channel && w.update == steps.update && !s2.ber.reloading.contains bank then
            (if steps.whole && !w.wrote then (s2.stepWindow w).stepWindow { w with wrote := true } else s2.stepWindow w).drainBeryl
          else s2.waitIn channel bank steps.update
        | none =>
          if steps.whole || s2.mustWait channel bank then s2.updateOrWait channel bank steps.update else s2.openWindow channel bank steps.update)

/-- BERYL_MOVE_DONE (R292, R293): the run has moved, and the bank excludes the hole until the insert's final write, which takes a slot
where the update is a slot-stealing one (R295). -/
def execBerylMoveDone (dt bank : Nat) (s : State) : Res :=
  let s1 := s.elapse dt
  .next (if !s1.arraysUp then s1
    else match s1.ber.moves.find? (fun m => m.bank == bank && !m.ran) with
    | none => s1.drainBeryl
    | some m =>
      if s1.ber.reloading.contains bank then s1.drainBeryl
      else ((s1.moveRun bank m.lo m.hi m.down).onBer (fun b => { b with
        moves := b.moves.map (fun x => if x.bank == bank then { x with ran := true } else x),
        excluded := b.excluded.filter (fun x => x.1 != bank) ++ [(bank, m.hole)] })).drainBeryl)

/-- A run of entries moves up by one and its last source is cleared (R294). -/
def State.closeHole (n lo hi : Nat) (s : State) : State := (s.moveRun n lo hi false).clearEntry n hi

/-- COMPACTOR (R294): with the row port idle and no update queued, the lowest hole below a valid entry is closed by an upward move of
the entries that follow it, up to the next free entry. -/
def execCompactor (dt bank : Nat) (s : State) : Res :=
  let s1 := s.elapse dt
  .next (if !s1.arraysUp then s1
    else
      let s2 := s1.drainBeryl
      let es := s2.validEntries bank
      let hole := freeAbove es (es.length + 1) 0
      if s2.bankBusy bank || s2.queuedIn bank then s2
      else
        match es.find? (fun e => decide (hole < e.1)) with
        | none => s2
        -- with several free entries in a row, the run after them closes the last of them
        | some e => s2.closeHole bank e.1 (freeAbove es (es.length + 1) e.1 - 1))

/-- A correction goes into the record while it is free, else into OVERRUN (R493). -/
def State.recordCorrection (b row use last : Nat) (s : State) : State :=
  s.onBer (fun g =>
    if g.corrValid then { g with corrOver := satInc 6 g.corrOver }
    else { g with corrValid := true, corrUse := use, corrBank := b, corrRow := row, cleanTime := last, fixTime := s.aon.time })

/-- CAM_SCRUB (R290): one row of a bank is compared with its shadow word and rewritten when it differs; a rewrite that does not hold fails
the bank (R299). -/
def execCamScrub (dt : Nat) (scrub : ScrubIn) (s : State) : Res :=
  let s0 := s.elapse dt
  .next (if !s0.arraysUp then s0
    else
      let s1 := s0.drainBeryl.upset scrub.upsets
      match s1.logical scrub.bank with
      | none => s1
      | some n =>
        let row := s1.ber.scrubPos.getD scrub.bank 0
        let next (s : State) : State := s.onBer (fun g => { g with
          scrubPos := modifyAt g.scrubPos scrub.bank (fun r => (r + 1) % 8192),
          lastPass := if row == 8191 then modifyAt g.lastPass scrub.bank (fun _ => s.aon.time) else g.lastPass })
        if s1.bankBusy n then s1
        else if rowAt s1.ber.rows scrub.bank row == s1.shadowRow n row then next s1
        else
          let use := s1.bankUse n
          let s2 := ((s1.writeRow n row (s1.shadowRow n row)).bankCount scrub.bank 5 1).recordCorrection scrub.bank row use
            (s1.ber.lastPass.getD scrub.bank 0)
          let s3 := next (if use == 2 || use == 4 then s2.raise cCamCorr else s2)
          if scrub.stuck then s3.failBank scrub.bank else s3)

/-- BANK_RELOAD (R299): a physical bank is found failed. -/
def execBankReload (dt bank : Nat) (s : State) : Res :=
  let s1 := s.elapse dt
  .next (if s1.arraysUp && bank < 34 && !s1.ber.failed.contains bank then (s1.drainBeryl.failBank bank).drainBeryl else s1)

/-- BANK_RELOAD_DONE (R299): the logical bank's new physical bank holds every shadow row; held searches and updates
proceed. -/
def execBankReloadDone (dt bank : Nat) (s : State) : Res :=
  let s1 := s.elapse dt
  .next (if !s1.arraysUp || !s1.ber.reloading.contains bank then s1
    else
      let s2 := s1.onBer (fun b => { b with
        reloading := b.reloading.filter (· != bank),
        rows := match b.map.getD bank none with | some p => bankCopy b.rows b.shadow bank p | none => b.rows })
      (s2.logicalCount bank 9 1).drainBeryl)

/-! ### Packets that use Beryl (R281, R297) -/

/-- Whether nothing waits or is under way in the banks of some uses. -/
def State.quiet (s : State) (uses : List Nat) : Bool :=
  uses.all (fun use => (s.useList use).all (fun n => !s.bankBusy n && !s.queuedIn n))

/-- What waits in Beryl goes on as far as it can. -/
def State.settleBeryl (s : State) : State :=
  if s.ber.heldUpdate.isEmpty && s.ber.moves.isEmpty && s.ber.heldSearch.isEmpty && !s.ber.dbgWaitRow then s else s.drainBeryl

/-- Takes up a staged packet that reads or updates the banks of some uses, in its turn after the updates that wait there; until then
nothing happens (log 114). -/
def State.runBeryl (form : Pkt → Bool) (uses : Pkt → List Nat) (ap pos : Nat) (work : Pkt → State → State) (s : State) : State :=
  let s1 := s.settleBeryl
  s1.runPacket (fun p => form p && s1.quiet (uses p)) ap pos work

/-! ### Debug (R302, R492, R493) -/

/-- The search request that the debug registers hold (R492). -/
def Beryl.dbgReq (b : Beryl) : SearchReq :=
  { key := b.dbgKey.toNat, mask := b.dbgMask.toNat, select := b.dbgSel.toNat, kw := bits b.dbgParm.toNat 2 0,
    tag := bits b.dbgParm.toNat 15 8, tagEn := b.dbgParm.getLsbD 16, channel := 28 }

/-- A debug search: channel 28, its full record and DONE (R492); held while a selected bank is being reloaded (R299, R302). -/
def State.dbgSearch (s : State) : State :=
  if s.isolated || s.ber.dbgBusy then s
  else
    let q : HeldReq := { req := s.ber.dbgReq, retried := false }
    if s.searchWaits q.req then s.onBer (fun b => { b with dbgBusy := true, dbgDone := false, heldSearch := b.heldSearch ++ [q] })
    else s.search q false none false

/-- A debug read, at the debug priority of the row port (R296, R492). -/
def State.dbgReadRow (s : State) : State :=
  if s.isolated || s.ber.dbgBusy then s
  else if s.portBusy (bits s.ber.dbgRowSel.toNat 21 16) then s.onBer (fun b => { b with dbgBusy := true, dbgDone := false, dbgWaitRow := true })
  else s.readRowNow

/-- CAM_DBG_SEARCH (R492). -/
def execCamDbgSearch (dt : Nat) (s : State) : Res := .next ((s.elapse dt).wakeCause).dbgSearch

/-- CAM_DBG_READ_ROW (R492). -/
def execCamDbgReadRow (dt : Nat) (s : State) : Res := .next ((s.elapse dt).wakeCause).dbgReadRow

end Sys2Proof.Machine
end

