-- ==== Sys2Proof/Machine/Budget.lean ====
section
/-! DEFINITION. Tenant budgets (R325 to R329) and the group tenant ledger (R441 to R443). -/
namespace Sys2Proof.Machine
open Sys2Proof

/-! ### Buckets (R326, R327) -/

/-- Greatest level of a record in 1/256 token (R326, R327). -/
def Budget.cap (b : Budget) : Int := (b.burst : Int) * 256

/-- The level after the refill up to a time: RATE × 256 units a second, the remainder carried, capped (R327; nothing is
carried at the cap, log 17). -/
def Budget.refill (now : Nat) (b : Budget) : Budget :=
  let acc := b.rem + b.rate * 256 * (now - b.last)
  let l := b.level + ((acc / 1000000000 : Nat) : Int)
  if b.cap ≤ l then { b with level := b.cap, rem := 0, last := now }
  else { b with level := l, rem := acc % 1000000000, last := now }

/-- The local record of a tenant. -/
def State.budget? (s : State) (tenant : Nat) : Option Budget := s.sto.budgets.find? (fun b => b.tenant == tenant)

/-- A local record as it stands now: refilled outside a group, and on a block that has left its group (log 28); inside one, the master
grants (R329, R442). -/
def State.fresh (s : State) (b : Budget) : Budget := if s.img.frame.inGroup && s.cas.st != .left then b else b.refill s.aon.time

/-- The level of a tenant; none for a tenant without a record, which is not limited (R326). -/
def State.level? (s : State) (tenant : Nat) : Option Int := (s.budget? tenant).map (fun b => (s.fresh b).level)

/-- Whether a tenant's level lets its streams in (R327). -/
def State.levelOk (s : State) (tenant : Nat) : Bool :=
  match s.level? tenant with
  | none => true
  | some l => decide (0 < l)

/-- Whether the scheduler's search of the tenant budget index finds a tenant that has a record (R281): one that it misses is deferred
(R297, R460). -/
def State.budgetSeen (s : State) (tenant : Nat) : Bool := (s.budget? tenant).isNone || s.findsKey 3 [tenant]

/-- Local records with one put, ascending by tenant. -/
def budgetPut (l : List Budget) (b : Budget) : List Budget :=
  insertBy (fun x y => decide (x.tenant < y.tenant)) b (l.filter (fun x => x.tenant != b.tenant))

/-- Puts a local record. -/
def State.putBudget (b : Budget) (s : State) : State := s.onSto (fun g => { g with budgets := budgetPut g.budgets b })

/-- A signed level as the 64-bit RESULT0 of R326. -/
def levelWord (l : Int) : Nat := (l % 2 ^ 64).toNat

/-! ### The group ledger (R441, R442) -/

/-- The deputy that mirrors the ledger: live and not this block. -/
def State.mirror (s : State) : Option Nat :=
  if s.cas.deputy != s.groupNum && s.cas.live.testBit s.cas.deputy then some s.cas.deputy else none

/-- The grant quantum of a tenant (R442). -/
def Budget.quantum (b : Budget) : Nat := max 256 (ceilDiv (b.burst * 256) 32)

/-- A group record of the master. -/
def State.group? (s : State) (tenant : Nat) : Option Budget := s.cas.ledger.find? (fun b => b.tenant == tenant)

/-- Units granted to a local record (R442); a grant for a tenant without a local record is discarded (R443). -/
def State.granted (tenant units : Nat) (s : State) : State :=
  match s.budget? tenant with
  | none => s
  | some b => s.putBudget { b with level := b.level + units, requested := false }

/-- The master's own record, still at or below zero after its grant, asks again: the request waits with the others (R442, log 140). -/
def State.askAgain (tenant : Nat) (s : State) : State :=
  match s.budget? tenant with
  | none => s
  | some b =>
    if b.level ≤ 0 then (s.putBudget { b with requested := true }).onCas (fun g => { g with
      reqWaiting := g.reqWaiting ++ [(s.groupNum, tenant, b.quantum)] })
    else s

/-- A GRANT goes to its member; the master's own is applied at once (R442). -/
def State.sendGrant (dest tenant units : Nat) (s : State) : State :=
  if dest == s.groupNum then (s.granted tenant units).askAgain tenant else s.send dest (.grant tenant units)

/-- A ledger change that the deputy must acknowledge before what waits on it happens (R441); without a live deputy nothing
waits. -/
def State.mirrored (c : LedgerChange) (o : Owed) (now : State → State) (s : State) : State :=
  match s.mirror with
  | some d => (s.onCas (fun g => { g with owed := g.owed ++ [[o]] })).send d (.ledger c)
  | none => now s

/-- The bud.set payload that a record's parameters spell. -/
def Budget.params (b : Budget) : BudSet :=
  { tenant := b.tenant, rate := b.rate, burst := b.burst, wPrompt := b.wPrompt, wGen := b.wGen, remove := false, fill := false }

/-- The master answers a grant request: min(Q, level) while its level is above zero, else the request waits (R442). A
request waits behind one of its tenant that waits already; one for a tenant without a group record is discarded. -/
def State.masterGrant (dest tenant units : Nat) (s : State) : State :=
  match s.group? tenant with
  | none => s
  | some b0 =>
    let b := b0.refill s.aon.time
    if b.level ≤ 0 || s.cas.reqWaiting.any (fun r => r.2.1 == tenant) then
      s.onCas (fun g => { g with ledger := budgetPut g.ledger b, reqWaiting := g.reqWaiting ++ [(dest, tenant, units)] })
    else
      let k := min units b.level.toNat
      let b' := { b with level := b.level - k }
      (s.onCas (fun g => { g with ledger := budgetPut g.ledger b' })).mirrored (.put b'.params b'.level) (.grant dest tenant k)
        (State.sendGrant dest tenant k)

/-- A local level below Q asks for Q, with one request outstanding for a tenant (R442). -/
def State.askGrant (tenant : Nat) (s : State) : State :=
  match s.budget? tenant with
  | none => s
  | some b =>
    if s.img.frame.inGroup && b.level < b.quantum && !b.requested &&
        (s.cas.st == .member || s.cas.st == .deputy || s.cas.st == .master) then
      let s1 := s.putBudget { b with requested := true }
      if s1.cas.st == .master then s1.masterGrant s1.groupNum tenant b.quantum
      else s1.send s1.cas.master (.grantReq tenant b.quantum)
    else s

/-- A record that stands at or below zero without a request asks, because no charge can then take it below Q (R442, log 140). -/
def State.askSpent (tenant : Nat) (s : State) : State :=
  match s.budget? tenant with
  | none => s
  | some b => if b.level ≤ 0 then s.askGrant tenant else s

/-- A record after a charge, which may take the level below zero (R327). A charge in the clock of a bud.set applies to what the bud.set
found (R329): to the weights and the level then in force, and so to the level now only as far as the bud.set kept it. -/
def Budget.charged (now : Nat) (units : Budget → Nat) (b : Budget) : Budget :=
  match b.tie with
  | none => { b with level := b.level - (units b : Int) }
  | some k =>
    if k.at_ != now then { b with level := b.level - (units b : Int), tie := none }
    else
      let after := k.level - (units { b with wPrompt := k.wPrompt, wGen := k.wGen } : Int)
      let lost := if k.kept then min k.level b.cap - min after b.cap else 0
      { b with level := b.level - lost, tie := some { k with level := after } }

/-- A charge of a tenant (R327); a tenant without a record is not charged. -/
def State.charge (tenant : Nat) (units : Budget → Nat) (s : State) : State :=
  match s.budget? tenant with
  | none => s
  | some b0 => (s.putBudget ((s.fresh b0).charged s.aon.time units)).askGrant tenant

/-! ### Held streams (R328, R330) -/

/-- The streams of a tenant that its bucket holds. -/
def State.heldOf (s : State) (tenant : Nat) : List Stream :=
  s.str.tab.filter (fun t => t.id.tenant == tenant && t.lat.holdSince.isSome)

/-- A stream becomes held; the tenant's first one writes HELD (R328). -/
def State.holdStream (slot : Nat) (s : State) : State :=
  match s.stream? slot with
  | none => s
  | some t =>
    if t.lat.holdSince.isSome then s
    else
      let first := (s.heldOf t.id.tenant).isEmpty
      let s1 := s.onStream slot (fun t => { t with lat := { t.lat with holdSince := some s.aon.time } })
      if first then s1.event evHeld t.id.tenant 1 0 else s1

/-- When a tenant's level is above zero with streams held, they are released and UNHELD is written (R328). -/
def State.unholdTenant (tenant : Nat) (s : State) : State :=
  let k := (s.heldOf tenant).length
  if k != 0 && s.levelOk tenant then
    (s.onStr (fun g => { g with tab := g.tab.map (fun t =>
      if t.id.tenant == tenant then { t with lat := t.lat.endHold s.aon.time } else t) })).event evUnheld tenant k 0
  else s

/-- A local record that a ledger change or a grant has altered: at or below zero it asks for more, above zero its streams are released. -/
def State.settleOwn (tenant : Nat) (s : State) : State := (s.askSpent tenant).unholdTenant tenant

/-- Every tenant with streams held is looked at (R328). -/
def State.unholdAll (s : State) : State :=
  (s.str.tab.filter (fun t : Stream => t.lat.holdSince.isSome)).foldl (fun s (t : Stream) => s.unholdTenant t.id.tenant) s

/-- A packet has made a stream admissible: with the tenant's level at or below zero the stream is held and the packet
carries OVER_BUDGET (R328). Answers the HELD bit of INFO. -/
def State.admissibleBy (slot : Nat) (s : State) : State × Nat :=
  match s.stream? slot with
  | none => (s, 0)
  | some t =>
    let s1 := s.unholdTenant t.id.tenant
    if s1.levelOk t.id.tenant then (s1, 0) else (s1.holdStream slot, 1)

/-! ### bud.set (R325, R326, R441) -/

/-- The lowest budget record index that is free. -/
def freeIndex (l : List Budget) : Option Nat := (List.range (min 65536 (l.length + 1))).find? (fun i => !l.any (fun b => b.num == i))

/-- A record changed by a bud.set: the level is kept, capped at the new BURST, unless FILL is set (R326). -/
def Budget.change (b : Budget) (r : BudSet) : Budget :=
  let b1 := { b with rate := r.rate, burst := r.burst, wPrompt := r.wPrompt, wGen := r.wGen }
  if r.fill then { b1 with level := b1.cap, rem := 0 } else { b1 with level := min b1.level b1.cap }

/-- What a charge of this clock finds in a record that a bud.set changes (R329): the record in force before it; an earlier bud.set of the
same clock left what it found. -/
def Budget.tieAt (now : Nat) (r : BudSet) (b : Budget) : BudTie :=
  match b.tie with
  | some k => if k.at_ == now then { k with kept := k.kept && !r.fill }
    else { at_ := now, level := b.level, wPrompt := b.wPrompt, wGen := b.wGen, kept := !r.fill }
  | none => { at_ := now, level := b.level, wPrompt := b.wPrompt, wGen := b.wGen, kept := !r.fill }

/-- A new record: level 0, or full with FILL (R326). -/
def Budget.new (num now : Nat) (r : BudSet) : Budget :=
  Budget.change { num := num, tenant := r.tenant, rate := 0, burst := 0, wPrompt := 0, wGen := 0, level := 0, rem := 0, last := now } r

/-- The tenant's local record is created, replaced or removed (R326), its index entry through a channel (R281). None for NO_SPACE; else the level to report. -/
def State.setLocal (c : Nat) (r : BudSet) (s0 : State) : Option (State × Int) :=
  let s := s0.lookup c 3 [r.tenant]
  match s.budget? r.tenant with
  | some b0 =>
    let b := s.fresh b0
    if r.remove then
      some ((s.onSto (fun g => { g with budgets := g.budgets.filter (fun x => x.tenant != r.tenant) })).removeUse c 3 [r.tenant],
        b.level)
    else let b' := { b.change r with tie := some (b.tieAt s.aon.time r) }; some (s.putBudget b', b'.level)
  | none =>
    if r.remove then some (s, 0)
    else
      match freeIndex s.sto.budgets with
      | none => none
      | some i =>
        match s.insertUse c 3 (tenantEntry r.tenant i) with
        | none => none
        | some s1 =>
          -- before this clock the tenant was not limited: its charges find no record (R326, R329)
          let b := Budget.new i s1.aon.time r
          some (s1.putBudget { b with tie := some { at_ := s1.aon.time, level := 0, wPrompt := 0, wGen := 0, kept := false } }, b.level)

/-- A member creates, changes or removes a local record as LEDGER says; a new one starts at level 0 (R434, R441). -/
def State.followLedger (r : BudSet) (s : State) : State :=
  match s.setLocal 31 { r with fill := false } with
  | some (s1, _) => s1
  | none => s

/-- The master applies a bud.set to its group record (R441). None for NO_SPACE at 65,536 records; else the level. -/
def State.setGroup (r : BudSet) (s : State) : Option (State × Int) :=
  match s.group? r.tenant with
  | some b0 =>
    let b := b0.refill s.aon.time
    if r.remove then some (s.onCas (fun g => { g with ledger := g.ledger.filter (fun x => x.tenant != r.tenant),
                                                       reqWaiting := g.reqWaiting.filter (fun q => q.2.1 != r.tenant) }), b.level)
    else let b' := b.change r; some (s.onCas (fun g => { g with ledger := budgetPut g.ledger b' }), b'.level)
  | none =>
    if r.remove then some (s, 0)
    else
      match freeIndex s.cas.ledger with
      | none => none
      | some i => let b := Budget.new i s.aon.time r; some (s.onCas (fun g => { g with ledger := budgetPut g.ledger b }), b.level)

/-- The ledger change that a bud.set makes. -/
def ledgerChangeOf (r : BudSet) : LedgerChange := if r.remove then .remove r.tenant else .put r 0

/-- The master tells every live member but the deputy, and itself, of a change (R441). -/
def State.tellMembers (r : BudSet) (s : State) : State :=
  ((s.liveOthers.filter (fun n => some n != s.mirror)).foldl (fun s n => s.send n (.ledger (ledgerChangeOf r))) s).followLedger r

/-- The master carries out a bud.set; what answers it waits for the deputy (R441). Its own local record follows as a member's does. -/
def State.masterSet (r : BudSet) (owed : Int → Owed) (now : Int → State → State) (full : State → State) (s : State) : State :=
  match s.setGroup r with
  | none => full s
  | some (s1, level) =>
    let c := if r.remove then LedgerChange.remove r.tenant else .put r level
    ((s1.tellMembers r).mirrored c (owed level) (now level)).settleOwn r.tenant

/-- bud.set (R325, R326, R441). -/
def budSetWork (p : Pkt) (s : State) : State :=
  match budSetOf p.payload with
  | none => s.refuse p stBadPacket
  | some r =>
    match s.cas.st with
    | .forming => s.refuse p stStateConflict
    | .orphan => s.refuse p stStateConflict
    | .member => (s.onCas (fun g => { g with fwd := g.fwd ++ [(p.tag, p, r)] })).send s.cas.master (.budFwd r p.tag)
    | .deputy => (s.onCas (fun g => { g with fwd := g.fwd ++ [(p.tag, p, r)] })).send s.cas.master (.budFwd r p.tag)
    | .master =>
      s.masterSet r (fun l => .localDone p stOk l) (fun l s => s.done p 0 (some (levelWord l)) none none)
        (fun s => s.refuse p stNoSpace)
    | _ =>
      match s.setLocal 20 r with
      | none => s.refuse p stNoSpace
      | some (s1, l) => (s1.unholdTenant r.tenant).done p 0 (some (levelWord l)) none none

/-- BUD_SET (R326). -/
def execBudSet (dt ap pos : Nat) (s : State) : Res := .next ((s.elapse dt).runBeryl (isOp 0x0901) (fun _ => [3]) ap pos budSetWork)

/-! ### Group messages of the ledger (R429, R430, R441, R442) -/

/-- Arrival of a group message (R429, R430): a wake cause (R413); discarded and counted when its CRC fails, or, for a
checked kind, when its epoch is not the block's own. -/
def State.arrives (hdr : MsgHdr) (checked : Bool) (act : State → State) (s : State) : State :=
  let s1 := s.wakeCause
  if s1.isolated then s1
  else if !hdr.crcOk || (checked && hdr.epoch != s1.cas.epoch) then s1.count bcGrpDiscard 1
  else act s1

/-- Arrival of a group message that firmware acts on: not on a lost block (R450). -/
def State.hear (hdr : MsgHdr) (checked : Bool) (act : State → State) (s : State) : State :=
  s.arrives hdr checked (fun s => if s.start.down then s else act s)

/-- GRANT_REQ (R442). -/
def execGrantReq (dt : Nat) (hdr : MsgHdr) (tenant units : Nat) (s : State) : Res :=
  .next ((s.elapse dt).hear hdr true (fun s => if s.cas.st == .master then s.masterGrant hdr.source tenant units else s))

/-- GRANT (R442): units join the local record; one that is still spent asks again, else held streams are released. -/
def execGrant (dt : Nat) (hdr : MsgHdr) (tenant units : Nat) (s : State) : Res :=
  .next ((s.elapse dt).hear hdr true (fun s => (s.granted tenant units).settleOwn tenant))

/-- The deputy's mirror of a record (R441). -/
def State.mirrorPut (b : BudSet) (level : Int) (s : State) : State :=
  let i := (match s.group? b.tenant with | some g => some g.num | none => freeIndex s.cas.ledger).getD 0
  let r : Budget := { num := i, tenant := b.tenant, rate := b.rate, burst := b.burst, wPrompt := b.wPrompt,
                      wGen := b.wGen, level := level, rem := 0, last := s.aon.time }
  s.onCas (fun g => { g with ledger := budgetPut g.ledger r })

/-- A removal as a bud.set payload. -/
def removal (tenant : Nat) : BudSet :=
  { tenant := tenant, rate := 0, burst := 0, wPrompt := 0, wGen := 0, remove := true, fill := false }

/-- A member follows a record in its local one. -/
def State.followPut (r : BudSet) (s : State) : State := (s.followLedger r).settleOwn r.tenant

/-- BUD_FWD (R441). -/
def execBudFwd (dt : Nat) (hdr : MsgHdr) (set : BudSet) (tag : Nat) (s : State) : Res :=
  .next ((s.elapse dt).hear hdr true (fun s =>
    if s.cas.st == .master then
      s.masterSet set (fun l => .budDone hdr.source tag stOk l) (fun l s => s.send hdr.source (.budDone tag stOk l))
        (fun s => s.send hdr.source (.budDone tag stNoSpace 0))
    else s))

/-- BUD_DONE (R441): the cmp record of the forwarded bud.set. -/
def execBudDone (dt : Nat) (hdr : MsgHdr) (tag status : Nat) (level : Int) (s : State) : Res :=
  .next ((s.elapse dt).hear hdr true (fun s =>
    match s.cas.fwd.find? (fun f => f.1 == tag) with
    | none => s
    | some f =>
      let s1 := s.onCas (fun g => { g with fwd := g.fwd.erase f })
      if status == stOk then s1.done f.2.1 0 (some (levelWord level)) none none else s1.refuse f.2.1 status))

/-- What waited for the deputy happens (R441). -/
def State.payOwed (o : Owed) (s : State) : State :=
  match o with
  | .grant d t u => (s.sendGrant d t u).unholdTenant t
  | .budDone d tag st l => s.send d (.budDone tag st l)
  | .localDone p _ l => s.done p 0 (some (levelWord l)) none none

/-- LEDGER_ACKNOWLEDGEMENT (R441): only then is the GRANT or BUD_DONE sent that waited on the change. -/
def execLedgerAcknowledgement (dt : Nat) (hdr : MsgHdr) (s : State) : Res :=
  .next ((s.elapse dt).hear hdr true (fun s =>
    match s.cas.owed with
    | [] => s
    | l :: rest => l.foldl (fun s o => s.payOwed o) (s.onCas (fun g => { g with owed := rest }))))

/-- WAITING_GRANT_REQUEST (R442): the first request of the tenant that waits is granted once the level is above zero. -/
def execWaitingGrantRequest (dt tenant : Nat) (s : State) : Res :=
  let s1 := s.elapse dt
  .next (match s1.cas.reqWaiting.find? (fun r => r.2.1 == tenant), s1.group? tenant with
    | some r, some b0 =>
      let b := b0.refill s1.aon.time
      if s1.cas.st != .master || b.level ≤ 0 then s1
      else
        let k := min r.2.2 b.level.toNat
        let b' := { b with level := b.level - k }
        (s1.onCas (fun g => { g with ledger := budgetPut g.ledger b', reqWaiting := g.reqWaiting.erase r })).mirrored
          (.put b'.params b'.level) (.grant r.1 tenant k) (fun s => (s.sendGrant r.1 tenant k).unholdTenant tenant)
    | _, _ => s1)

end Sys2Proof.Machine
end

