-- ==== Sys2Proof/Machine/UcdData.lean ====
section
/-! DEFINITION. Unicode character data (R128), packed: tables of records in ascending order, record 0 in the low bits. A
mapping record has the code point in bits 20:0, its number of code points in bits 25:21 and their place in the pool from bit
26. The data are those of Unicode 15.0, which R128's 15.1 keeps for every property used here (log 7, PRESUMED). -/
namespace Sys2Proof.Machine.Ucd

/-! Generated from the character database; Hangul syllables are computed and not listed. -/

def pool0 : Nat :=
  0x30C80030FC0030A30030D500793E004F1A005F0F00682A00002E00006D00002E0000700003450003010003130003910030CD0030FC0030ED0030AF00002900116100110F0000280006450006390006440006350003450003000003140003970003450003010003140003A90003450003420003130003B100309A0030DB0030FC0030B300002900116100110500002800117400110B00116E00110C0030FC0030EA0030ED0030AB0003450003010003140003B10003450003000003130003970030990030AF0030F30030CB0030A40030C80030FC00309A0030CF0030A20030A200309A0030D80030F30030A20030E00030FC0030C10030F30030B50030C80030C30030EF0030ED0030AD0030C80030F30030A400309A0030DB0030F30030C80030990030AB0030E10030EB0030FC0030BF0030AF0030D80030990030B70030FC00309A0030D80030990030C80030F300309A0030DB0030EB0030EC0030FC0030990030CF0030EB0030990030D50030FC0030EB0011690011000011B700116100110E0030F30030E70030B70030F30030DE0030990030AF0030F30030EA0030B70030F30030C80030E00030E90030990030AF0030990030C80030FC0030AF0030B90030A80030E00030E90030990030AF0030ED0030AD0030FC0030990030BF0030EB0030990030AD0000320000730022150000640000610000720030ED0030A40030990030BB0030EB0030AF00002900116E00111200116900110B0000280030EB0030C80030B90030A200309A0030D20030EB0030FC0030990030CF0030EA0030DF0030EB0030C80030FC0030E10030ED0030AD0030C80030F30030BB0030FC00309A0030CF0030990030C80030C30030E90030A10030D50030EB0030A70030B70030C30030990030D50030F30030990030B10030C80030F30030EC0000290011AB00116500110C00116900110B00002800064700064400062700064400062C00002000064400062C00064500064400063300064800002000064700064A000644000639000020000647000644000644000627000020000649000644000635
def pool1 : Nat :=
  0x6700006B0022150000430006310006280006430006270003450003000003140003B10006440006270006CC0006310000290011610011100000280003450003000003130003C90003450003010003140003970000300000310020440000310003450003420003140003C90000290000380000310000280003450003420003130003A90003450003420003140003B10000290000340000310000280003450003000003130003B70030F30030ED0030990030AB0003450003420003140003970003450003010003140003910030FC0030AB0030FC0030A80003450003000003130003B100002900003100003100002800006C00006100006300006B0030ED0030AF0030A40030DE0030B90030FC0030990030BF0030BF0030FC0030990030D80000290011610011020000280000290011610011000000280030C80030C30030E90030AB0000290000300000320000280030F30030ED0030AF0030DF0003450003010003140003C900002900003300003100002800062F00064500062D00064500002900116100110900002800002900116E00110C0000280006440006480006330006310003450003000003140003A90030C40030FC00309A0030CF0030FC0030CB0030990030AD0000290011610011030000280000290011610011120000280003450003420003130003910030990030AB0030990030AD0030D20030CB00309A0030D80000290000390000310000280030C80030EB0030990030DB0003450003000003140003910003450003010003130003B700002900116100110E0000280000290000300000310000280003450003420003140003910000690000690000690000760003450003420003130003C90000290011610011060000280030EB0030AF00309A0030D20000290000360000310000280003450003000003140003B700222B00222B00222B00222B0000290011610011110000280003450003000003140003C90000290000320000310000280003450003420003130003B70003450003000003130003A90003450003420003140003B7000345000342000313000397
def pool2 : Nat :=
  0x64500030100030300006F00003500204400003400002900004D00002800064500062C00062A0000290000420000280000360020440000350000350020440000310003010003020000610000690000690000780030F30030FC0030DB00065100064E0000200030EB0030FC0030A200002900110C0000280006450006450006370030C80030C30030CE0070B900003100003100030000031300039900032300031B00006F000342000313000399000033002044000031000F80000F71000FB30003020003230000410000380020440000330006490006450006460065E500003600003200002900006600002800002900004800002800002900007900002800030000030200004F00030000030800005500002900111200002800030000031B00005500006C00006900006D00002900110700002800065400062700064400064500062C0006460005C10005BC0005E90030EB0030990030C800065100064F00064000006F00002F00006300030000031B0000750003450003010003B7003015004E8C00301400030400032300004C0070B90000340000320065E500003200003100006100005000006B00030400030800004F0000290000440000280000290067080000280000290000570000280000290000390000280070B90000370000310030FC00309A0030D20030EB0030B90030F300309A0030D80003450003010003130003C900002900003500003100002800003200007300221500006D0003450003420003140003A90030EB0030AF0030A40030B50030A10030D50030EB0030A20030FC0030EA0030E50030AD00002900116100110C00002800002E00006D00002E0000610030990030C80030FC0030E400002900116100110B0000280000290000370000310000280003450003000003130003910020320020320020320020320003450003010003140003B70030DE0030F30030990030AB0003450003010003130003970003450003010003130003A90003450003010003130003B10030EB0030C80030C30030EA000029001161001107000028000049000049000049000056
def pool3 : Nat :=
  0x500000680070B90000380000310003010003140003A50000290056DB0000280003010003040000650030C10030F30030A40003010003140003C500064900062E0006330003010003130003950003010003130000200065E50000300000330065E500003500003100030400030800004100003500204400003300002900005A00002800002900006D00002800002900004F00002800030300031B00004F000309000306000061000029001106000028000309000302000041003015004E0900301400065100065000002000064500064500064700063100065400064A00064A0006450006420030B90030FC0030B10003010003130003B5000029004E8C0000280003450003130003B700006D0022150000560030B90030F30030AA01D16F01D16501D1BA00030C00007A0000640003060003270000450065E500003100003100030300030200004500064A00062D0006350000290081F300002800064A00062D00064600002900003800002800002900004B00002800030100031B00004F00064A00062D0006440003010003030000550003010003140003BF00065100064C00002000030900030200006F00064900062C00062A00002E00003400003100064500062E0006440003450003130003910003010003030000750030150052DD00301400003900204400003100030100030200004500064A00064500063A0003420003080003C50003000003130003C50030EB0030A40030DE00030000031300039F0003020003230000450003450003000003B100003800204400003700002900006F0000280003450003130003B10000290052B400002800062D00065400064A00002900005100002800030400032800004F0065E500003400003200002900006400002800062D00062C00063300007500002F00006300003700204400003100030300030200006100064900064500062C00030600032300004100002900111000002800064900064500062A0003000003130003BF0003030003060000610030B70030990030C600030400030800005500030300030200004100062E00062C
def pool4 : Nat :=
  0x3300006D00006D0003010003080003C500002E00002E00002E01D16E01D16501D1BA00030100030400006F0003000003130003B900064500062D00062A0065E500003100003200002900006100002800030700032300005300030400030700004F00002900004300002800002900007400002800030000031B00004F00002900005600002800030C00030800007500007A00004800006B00030100031300039F00002900795D0000280003000003080000200003420003130003B900002900110200002800670800003200003100062E00065400064A00064500062E0006360003420003080003B900030800030400005500062D00064500064200003800204400003100064A00064500062C0003420003080000200003000003020000450065E500003800003100030400032300005200005800004100004600002900516B0000280003450003140003A900030400030300004F0030CA0030EB0030B300002900005200002800006C00006600006600003D00003A00003A0070B900003200003100064900064500062D00064500062C00063900062C00065400064A0000360020440000310003450003420003B700064500062D00064600030100032700004300067000065100002000062E00064500062A0065E500003300003100064500062E00064100062D00062C00064500002900004500002800002900670900002800002900007600002800002900534100002800002900005800002800002900006B00002800003400204400003100006700006F00006C00064500064500063A0003450003420003B100030400032300006C0003000003060000610070B90000310000320003450003000003C900030000030200004100030100031B00005500002900516D0000280003450003130003C9000029008CA10000280005C20005BC0005E900222E00222E00222E00002900003600002800002900006700002800064A00062D00062C00003300006D00006300003200204400003100064A00062E00064500062C00062C0006440003040003230000720003000003140003B5000061
def pool5 : Nat :=
  0x3990000290000370000280070B90000350000310065E500003800003200002900006800002800062D00064500063700002900004A00002800006D00221500004100002900793E000028000CD5000CC2000CC600670800003100003100064A000645000639003015005B8900301400062C00062D00063300004500005400005000064A00064500064A00064A00062E00062A0070B900003900003100004C00004500005400030300030600004100002900003300002800030100030300004F00002900672800002800002900004600002800006900006600006600062D00064500062A0003010003060000610065E500003100003300030100030200004100030900031B00006F00030300030200006F00002900006E000028000029004E0300002800062D00062C00064600030100030600004100032300031B00004F000029006C340000280000290081EA0000280003450003010003C90003010003140003B500030900030200006500064A00062C00063400006100005000004700002900006A00002800030100030200006F00064A00062E00063300002900004C00002800062700065400064A0030AF0030EB0030DE000029005B6600002800062D00064500063300064900062D00062C00301500005300301400003200006D0000630003B90003420003B70003450003140003B700065100064D00002000002900110B00002800003300006D00006400007300002F00006100002E00003500003100030200032300006F0006D500065400064A0030EB0030990030D20003000003140003A50003010003140003B90030F30030A90030A600064500064500063500007A0000480000470030C40030EB0030D80003000003040000650065E50000360000310003000003140003C50030F30030A20030E60003420003140003A50003000003130000200000290076E30000280003B90003420003B10003450003140003B100003400204400003300002E00003100003100030800030300004F00002900706B0000280065E500003500003200030100030800007500064A00062D000636
def pool6 : Nat :=
  0x4F0100002801D16F01D16501D1B9000029004EE3000028000029004E5D00002800064A0006450006450000720000610000620003000003060000410030150065570030140030EA0030A40030AB00064A0006450006430000290065E500002800002E00003200003100030200032300006100030400030800007500064500064500063900064500064500064A00064500062E00062A0065E50000320000320000290000620000280006D200064400063500030000030200006F00002900007500002800030000031400039500030C00007A00004400030000031400002000002E00003600003100062C00064500063300002900110E00002800004400005400004C00030100030400004500003200006D000064000342000314000020000029004E9400002801D17201D16501D1580006C700065400064A0003000003140003B90070B90000300000320065E500003900003100030400030800006F0030F30030E90030D50000290000710000280000290000530000280003420003140003B90000290000350000280070B900003300003100064500062C00064400064A00062C00062D00030900030600004100002900540D00002800002900796D0000280003010003130003B900062C00062E00064500006300002F0000610003010003080003B901D17001D16501D15800062C00062D00062A00030100031400039F00064A00062D00062800030000030800007500064900062D00063600030100030800002000003200006D00006D0003000003080003C500002900003100002800064A00062C00064A00030000030400006F00002900007700002800032300031B00005500030900030200004F00002E0000380000310006D000065400064A01D16E01D16501D15800064A00065400064A00064A00064500062D00032300031B00007500030000030400004F0070B90000320000320006450006450006340003450003140003970065E500003000003100030400030700006100002900682A000028000029000073000028000029000055000028000067000072000065000301000314
def pool7 : Nat :=
  0x30B300309A0030D20070B900003400003100030100031B00007500062C00064500064700004D0000500000500003000003040000450030150076D700301400030C00030800005501D17101D16501D1580006C600065400064A000F80000F71000FB200030400030800006100065300062700064400030300031B00006F0065E500003900003200002900006900002800034500031400039100030900030200006100062E0006450006340006450006450006430003060003270000650003000003080003B900030300030200006501D16F01D16501D15800030000031400039F00301500672C0030140003450003420003C90003070003010000530030CF0030C30030DE00002900003400002800030100031B00006F00002900006500002800030100030400004F00002900004700002800007A00004800004D00002900007800002800005600005000005000002900111100002800002900547C00002800062C00062D00064500002E00003000003100062D00062D00063500065100064E0006400003010003020000650000290091D10000280003450003000003B700064900065400064A0070B900003300003200064900062C00063300004900004900005800064A00062D00063400003300006D00006B0003020003230000650070B900003600003100002900535400002800030400032800006F003015006253003014000029004E000000280003000003140003990065E500003000003200064A00062C00064500030600032300006100003500204400003200007A00004800005400064700065400064A00030C00005A0000440006490006450006390003450003130003A900064900062E00062A0003420003130003C5000342000314000399000038002044000035000DCA000DCF000DD900002E00006F0000430003010003080000490065E5000037000031000029008CC700002800002900004900002800002900007A00002800030100030800006900003300204400003200062C00064500062A00064500065400064A00064900062C000646000651000650000640000029
def pool8 : Nat :=
  0x3B100002900007000002800030900031B0000750030EB0030FC0030DB00002900110900002800064500062E00064500064900062D00064600064A0006450006370000290072790000280003010003130003C50030C40030A40030CF00064900062D00064400030000030200006500002E00003000003200064800065400064A0003000003140003BF00030700030C0000730065E500003400003100030400030300006F00030700030100007300002900005900002800002900006C00002800002900004E00002800002E00003300003100003200006D00006B00002900110500002800064900064500063A00065100064F00002000064A00064500062A00006C00006F00006D00002E0000370000310003010003130003BF000029004F1100002800064600065400064A0003B90003420003C90003450003140003C900064A00062C00064600030100032700006300064500064500064200203500203500203500064A00062C00064400030800030400007500030100030A0000610003450003130003970030EB0030FC0030E400002900004100002800002900007200002800030900031B00004F00002900005400002800030100031300039900030300030200004F00064500062D0006440065E500003700003200030300031B00005500030100030A0000410000290011000000280067080000300000310030C10030F30030BB00030100031400039500006100005000004D00030300031B00007500064500062D00063400030100031400002001D16E01D16501D1B900064A00062E0006280003090003020000450003000003020000610030E00030FC0030AA00002900571F00002800030200032300004F00064A0006450006460000290000500000280000290000320000280070B90000300000310065E500003300003200002900006300002800030100030200004F00064A0006450006440006C800065400064A00030100030800005500064500062C00064500064A00062D00064A00002900110F00002800065500062700064400006C00006100006700002E000039000031
def pool9 : Nat :=
  0x5B90005D50005BC0005DC00309A003078000301000391000CD5000CBF00064A00063700057600057400030A0000200003000000450067080000370003B9001F0100007300007000032D00004400032800004100063100063600032400005500030F00006900030C0000750003B90003CE00030200006900030400004700030700004E00004A00004400004200004D0003B90003AC000062000057000DCA000DD900006D00006E00062E000646000304000438000BBE000BC600032300007A0005BC0005D800006E0000690003A900006B0003B9001F650003A900004D0006450006380003420003C500063200062A00032300006B000300001FFE00032300004D00030B00042300309900305500005300005300030A0000750030990030680003000000690003020000470003B9001F7400005200005000030200005A00030C00004800064900063A000674000648000646000646000646000628000342001FFE0030990030FD0114B00114B90030990030C100030700005400030800041500064B00064000030900004500005600006500030600006F00030600002000093C0009300110BA01109900007400007300004100006E000338002208000331000072000330000049000338002ADD0003450003970003230000490003140003A10005BC0005DE0030990030460000430000B00003010003B90067080000390003B9001F0300548C004EE400030700007200064A00064100032700004B000A3C000A170030150070B900301400064A00064500064100030400030700004100002900110300002800062D00064500064400030800030300006F00064500064500063300063200065400064A00064A00062D000645000300000313000395000029004E090000280003420003140003C500003300204400003000003D00003D00003D0006D200064400064200034200031300002000030900031B0000550030BD00309A0030D800030700032300007300030400030700006F00030700030C00005300064A00062C00062A0003000003130003B500030000031B00006F000345000301
def pool10 : Nat :=
  0x93C00093300030600006700030800004500033800220B00007400006B0003260000530000730000730009D70009C7001B35001B0B001B35001B3C00309A00307200062C000636000E32000E4D00030F0000610003000003B90000500000480006490006410003380021900003270000740003B9001F210003080004E90003060004360003060004180006520000200003000003970030990030B500002C00003000030800042700006A00004C00030C00004B00030700007900093C00092F00030700017F0005B80005D00003420003B9000FB7000F9200064600062B00004400004300004100006D00030400006700030600004500030300002000007100004200006E00006C0005BF0005E40000390000340005BC0005D200030C000292000D3E000D470030990030F10030F30030DB00034500002000030000004E00033800003E00030700006600064A00063500030700004800548C00662D006CBB00660E001B35001B4200032700005200007300006E0003060003C5000EB2000ECD0030990030C40003450003A90006310006340030990030750030990030A60003070000570003110000450003B9001F6300030200006700030100006F00064900064700056D00057400030100002000033800224D0000B700004C00003700003400033100004400030800042D0009BC0009AF0003040004230003060000690003010000E60003010003A900030800007800006D0003BC0003230000740003230000560006700006310000630000630003040003C500063200064600063200062800030100043300309900305300030F00004500030C00006F000302000063000B3C000B220006490006430003B9001F2300006A00006C00003500003400002C00003200032700006B00006A00004E006210005E7300032600007300031100006900034500039100030800041E0003000003BF0003040000690003060000470003010000750003380022A20003090000610003310000680003380022B500004400004D0005BF0005DB0003300000650005BC0005E7000B57000B470000410003BC
def pool11 : Nat :=
  0xA3C000A1600030700006D00065400064800002C00003700030C0000520003040000790003380022B200030100006700030300004500030000006F00030300007600030100007A00033100005A00006C0000640003380021D20005BC0005E400003600003400032E0000480111270111310003230000440005BC0005D90003010003BF0003010003D200006C0003BC00670800003400007300006D00030000005500067000064700032800002000063100063300063100064600062E00063400030200007900030C000067000300000415000301000063000B3E000B4700030100004500033800227200003400003400062E0006430003080004D8000303000069000342001FBF00030000007500030B00005500005600004800033800224500004800005000033300002000004300004D00032D00007400032300006800309A00307B0003010003C5001B35001B0900064B00002000309900307800030200005700030C00004500003F00003F0006490006370003B9001F6600030200006A00003F00002100064A00064200064900064A00032800007500067400062700003200003400062C00064300002C000039000308000430000327000072000A3C000A2B0030990030EF00058200056500030800044300030000039500030700006400030100006900030C000049000FB7000F4C0003090000550003380022A90003380022230003380021D400004100006B00032E0000680005BC0005DB00032D0000650003230000590005BC0005D000670800003600064A00062B0003000000570006440006430003B9001F2600033800003C00030F00047400006300007000003000003400032500004100063100062A00030600043000030000043500030C0000690006540006C10003080003D20003070000420000730003BC000307000073000301000047000311000061000FB7000F5B0003380021D000030100005A0003380022870003040000610110BA0110A50003380021940030B30030B300030800043600030800041800006A00006E00030800042B000FB7000FA1000309000079
def pool12 : Nat :=
  0x30100006E00033100004E0113570113470110BA01109B00006C00006B00003300003400062D00064300030100039500030800007700030A0000550003000000490003260000540003B9001F0500032800004500005600006D00309900307B0003000003C500309900305D00030F00004F0003070000520003B9001F7C00030100005700030C00006E00030700006500064900064200033800224800030100004C006B6300592700063100062B00003100003400062E00064A0000570000700115AF0115B80003310000540000670003BC00007300005200033100007A0005BC0005D300309A00306F0005C10005E90005BC0005E600309900305900030A0000790030990030F200062C0006280003060003B100030000004F00064900062B00030C00006A00030700006700064A00063600030C00004C00032D00006C00032800006900030700007A00032D00004E0005650005740003270000530006740006C700030800040600032700004800030800043700030700005800093C00092100004A00004E0003090000490003040000C600030100007000004400005300030300004E00030600005500030300006100006C00006D000BD7000BC600033800229200030100039700030B00004F0003080000790003040003B100064700062B0003B9001F070003300000750003230000750003270000440006270006430030990030720003040000E6000FB5000F4000031100005500030100006C00030700004900030200007700030100004E00032D00005400033800227B0003010000610000560003BC0030E90030EA000326000074000A3C000A3800030C00004300309A00307500030900004F00005600006F0005B70005D00003080000570009BC0009A10003010000D800064500062B0030E00030EC0003B9001F600000380000340005BC0005E800006100006400032300004800004D00005300030F000055000DDF000DD90003020000730003B9001F2000030C0000610003020000550003B9001F020006490006350003B9001F6400032700006800032D00004500005A000057
def pool13 : Nat :=
  0x311000065000307000059000F74000F7100064900063600032D00006400033800223C00032400007500006D00006600002100003F00030800044D00003200003300002100002100030000039F0003040004430005B40005D90003380022B30003090000410114BD0114B90000570003BC00033100006E0003300000450003B9001F700111270111320003230000760005BC0005DA00309900304D00062C00063A0003060003A500030F00005200004300005700670800003500030F00006500064A00062A000F72000F710003B9001F6100030700006E0003270000470003B9001F2500032D00005500062C00062B0002BE000061000BD7000B920030990030B900002C0000340003450003B100093C00091500030C00004400033800229100093C0009280003060000490003010000C60003380022730003010000770003010000A800033800228600030000006100033100004C0005BC0005D600062D00062E00030400041800062D0006410003040003A500007900004700033000006900007600005300064A00063900064500063600032D00007500032300006900030200007A00032800006100309900306600005800004900030C00006400309900305B0003110000490000420000470003B9001F67000FB7000FAB00030400004900030700005000030100005500033800228200006700006D0003380022640030990030F00003080004E800062E0006350003450003B700030C000068000FB7000F9C00005700006E00030600004F00030300007900064600062A000301001FBF00030300006E00056B00057400003900003300032300005A00063200064A00030B00044300005600004900309900305700030F00004900030700007000030A00007700030C000055000302000049000C56000C460003B9001F2700064A00063400003000003500002C00003600067400064A00032700002000309900309D0003000004180030CE0030CA00031100004F0003080004D90003070000430003000003A50003070000740006540006D500030100007900030900006500033100006C
def pool14 : Nat :=
  0x3B9001F0600064900063900032700006C001B35001B3E00032700004E0003060004100003060004230006540006D20003070000530003000003B500031100004100031100007200093C00091C00004A00004900030400004100030100006B00033100004B00033800219200030300004900030100004D00033800227A0003380022AB0005BF0005D10003040003990115AF0115B90003010003A500030800007400005600006E006708000038000300000059000300001FBF001B35001B3A00032800005500030100043A00003800003300032500006100063100064A00062C000647000F80000FB2001B35001B1101133E0113470003B90003B100309900304F00030800044700005500004900304B00307B00030F00004100030C00006B00030F0000720003070000440003010000490003380022760003130003C10003270000540006490006340003270000670003450003C900030800045600005700006D00030800043800030C0001B7000BBE000BC700030800044B00065100064000093C00092200030000007900033100006400093C00091700030800006500030000006E00063200062B00032300004E0005BC0005E3000036000033000CD5000CC6001B35001B0D01D16501D15700309900304B00064A000633000EA1000EAB00030700007700030000004100064A00064600670800003300064A000628000647000634000A3C000A1C00006200006D000D57000D460003060004380003B90003B70003080004160005C20005E9000FB5000F9000030000039900030700006800030100006D00309A00002000030100004F00030900005900033800227C00030600006500033100004200030800043E00062D0006370000340000330000560000700005BC0005D40003080000580009BC0009A200030600044300064B0006270000B700006C00032300005400309900306F0030990030510003060004160003010004130030990030B30003080003A500004D00005400309900306400102E00102500031100005200030C00004F00030700004600030200004300030100004B
def pool15 : Nat :=
  0xFB7000F420003010000410003010000720003310000520005BC0005D100030C00005400309A0030D500030100039900030800006800004B00004B00030B00006F00030B000020000D3E000D4600033800003D00004600006E000323000064000328000049000323000077000035000033001B35001B050030990030610006270006450003060003B900030200005300030C00004100064900063300030C0000720003B9001F62000FB7000FA600064900064600006E0002BC000302000048000301000050000649000628000A3C000A3200033800227D00002C00003500032700006E000B56000B4700030F00047500030C00006300030000039100093C00091600030900006F0030990000200003010000F800030800005900030300005600033100006B000330000055000323000042000301001FFE0003230000550006700006300000330000330005BC0005EA00062D00064200030100039F00030B0000750009BE0009C70000460000B00003040003B900064700063300064A00063A00030700004D000B3C000B210006470006460003B9001F220006470006280003B9001F040003B90003C900002C00003100032700004C0003010000430003070000200003380022830003380022B400030300006500033800226500030900007500057600057E0003380022250000460000700003B9001F00000323000079011930011935000645000628001B35001B0700032300006E00067000064900063100063500030800039900030100041A00030C00007400030200006800030500002000007800006900030200004A00030100005200064900062A00030400005900033800226100030100006500033800224300030800041000030800042300030C0000470005B70005F200005700006B00093C00092B00005700004D0003380022030003000000770003000000A80114BA0114B90003310000620003230000570000610000680005BC0005E100030600039900062C0006410000760000690003B9001F2400030C00006500030700006200064700062A0003420000A8000302000059
def pool16 : Nat :=
  0x7A40009B1200002200043901044E00826E0092D700753700A7570003C00219C800FF450002620096750013B000A7C3010441010CE80006790053730118C100A665002C470067F30081030052FA007C730002550013A3002CB3005ED30001DC002C3A0055B30001630011CC005DE10066880098A800057A0059510000EA000501001E110058D8008336001E7D0059440082BD00039600047B00435900A7990071CE00ABB0027F2F005349006D3E0096B70013F2002D0200707000AB3700972300A78C002C8900ABA30251190013E50051DE0078910088FA001F4500393A0001A500028A0006A1001FB10083F100021100A68D008046026CD5001E530278AE0004CA001EBF00300D00614800011F0011880054F60000A60004BD0030990030BD00002C000038000FB7000F5600030000043800030600041500031100006F0003070000630003070000450003040000200003380022770003380022A800030300005900006A00006900007200007300030000006500006F00004E00030900006900005600006B00030600007500308A0030880003010003B500005600004D000E99000EAB00030800004800032300006D00032D00006E000328000065000323000062001B35001B3F0000460003BC0003B90003AE00030600039100030F00006F00309900305F00004200004B00064A00064700030100005900006D00006C00032700006400030800043500030800041700031100007500006700004800030C00006C00030700006900002C00003300030C00004E000FB7000F510030C80030B30000410000700003030000410003310000740003140003C10005DC0005D000032300004B0005BC0005E000006400006300032D00004C0005BC0005D500030400039100004D00004B000652000640000F80000FB300064A00064300007800006C00116E00110B00004A00004C000327000073000306000435000037000033000CD6000CC600030F0000750003070000470003000003A900005500004100030700007800030200007500030700005A00034200002000005200004D000042000064
def pool17 : Nat :=
  0x118C7007530009F8E00AB6700025B0013A9002CB900571701043A00A743002C40002D25004635005AB5001F7500519500A651002C33008CC8000573001E830000E3004CF8001EEF00625D00014F000481000566001D91003B9D0004ED00005D026FB100649D001132005C620003FB0104F500ABA9007DA00013EB0020A90052C900756500A785004E3900813E00AB9C0002900096A30013DE002CEE0038C700021700A693009ED102766700019E000283001EC5000125008801000621001F310000AC00771F024263008FB600044A00052F001E3F0059060011080105B000002600043D00827200753B0003C4016E73008AA00013B4009F2000975E002502004F60010445010CEC0079BE0118C5005F50000259009F130013A7002CB70104380078CC001F80007CE300A741002C3E008CD3000167005ECA001F7300A64F002C31006613006EBA0066F8024735000571001E810059480000E100559D0010D10076DB00047F0291DF001D1600005B002212025626006422005C600075700104F300ABA70063A9005BE700029B0013E90052C700A7830089E300AB9A00028E0013DC002CEC00747100021500A691002C73008D08001EC30030110001230087860105BB007A4F00655600044800052D001E3D00440B008F3B008779016E7E0105AE00820400002400976900043B0010F9005382006D7700A7590003C2016E7100795000AB700042A00013B2010443010CEA0042270053750074470118C30002D0009EA50096E30052170002570013A5002CB50078CA00066E0030CC002C3C000165007F9A00807F00057C001F710000EC00A64D000503001E1300056F001E7F0000DF008AED0011B400047D009732010CC00071D00086500096B90013F402949602346D0052D200748900A78E0057CE006075009B3C00ABA5003A2E006C4E0002990013E7004EAE007C3E00A78102A0CE00028C001FB300021300A68F002C71004E2800019A0090380098DF001EC100300F00012102633E00514D0097ED0004BF0105B9005406000446001E3B00590200110402063A005D190003CD0097E0016E7C
def pool18 : Nat :=
  0x254009F0E0013A200A7B5005ED201043300808900A657002C39002D1E00670000784E00AB53005207006355008DB3000247002CA5008C550001CE001EF5008CC1000155007F8A00056C008C480004F3001E03007A810001480011B1006E2F001E6F023D1E0104FB00798F007A7402569A00864D00046D001D7D0104EE00ABA200533B00037B0013E4005FF90006AD00A699004E3200AB950095B70002890013D7001FB0007387003515001F37004995001FA300300C006AD300737A000203001E45003FFC0000A5001EB10105B60001110082780011010004AF016E790105A900116D00580D010CF20010F400537D0003BD016E6C006452008DCB0013AD01043E010CE500537000A7470095800002520013A000701E001F7900A655002C37001FE5002CA3007F9500057700387C0001CC008001001EF300015300056A008C460004F1001E010054380011360104F900798D0075E200046B001D7B0003F2001D02005F8B0070D90104EC00ABA00013E200021B00962E00A69700A77C0056D700AB930002870013D5006F6E0030170214E40052B3002C6C001F3500523A00019500565100300A001185005E7F007F51001E4300590A0000A30001880011F1007FBD001EAF0050CF0105B400002A00010F02921A00654F0004410061A40010FF0003C80097DB0004AD027CA8016E770105A7003AE4009762000434005FCD010449010CF00010F20063E4005C220075320003BB0079490013AB002CBB01043C010CE3005289007CE700A745002C42002D2700793C0052F5008DBC000250001F7700519700A653002C3500800C005203000575001E850000E5001EF100617A000151003C18000568004CED0004EF00005F0011AD0273CA01E9430093F9006CCD005C640054A20104F700ABAB005344003B190013ED001D7900584000A78700AB9E0063A00074090003770013E0005FF50006A900021900A69500788C001F40002CE30051CC000127002C6A001F330030080050DA0069EA001E410061AF00110A00043F0010FD0003C60004AB0295B6016E750233C3008612000432010447010CEE
def pool19 : Nat :=
  0x2B900A735002C32002D170099FE001FE00052000002400090DE00057200A643001E75001EE1007A7A00005C0011AA00047301E94000723F0004DF0104F4008AD60093040085CD0003ED0104E7009B3200AB9B0013DD004EA40006A6006BCB00919900AB8E0002820013D00030120051C900020900961C00A685001F3000019000771E001EB70083DC000117005E7A0083630001830004B50105AF00002500117300043C000521001E310010FA005468006D7800761F0086880003C3016E720011660053EF008F9B010444010CEB0010ED0064C400A74D0003B6016E65022B0C022BF1007D5B0262280013A600A7B9010437010CDE005369007DC7002D22005B9700024B009F05002CA9005EC9001F720052770063C50001D2002C30001EF90001590005700062D30000E000A641007FFA0004F70011B50043D5000563001E730069A3009818006168002211006D4100047101E93E00112F0003F800980B0104F200533F006D340013E8007E090003EB00AB9900028D0013DB005F0B0006A4009ECE00AB8C000280005EFE001FA70030100083E700020700A683002C65021D0B00018E009111001EB50001150004B3016E7D0105AD0000230267B500117100051F001E2F00826F0010F800761D00876B016E700105A0010442010CE9006D690096E200A74B0003B4002D2D00578B0013A400A7B700677B010435010CDC00A659009E97002C3B002D20009577000249009E1E002CA700807E0091CC0001D0008005001EF700015700023C006F2300056E0087BA0004F5001E050011B3000561001E710037810082B1008B5800831D00046F01E93C00723B00112D0053B6008F620104F0008AD200ABA400037D009F520013E6007149007D22006FEB00AB9700028B0013D90045F9004EA000062900019900027E00349E001FA500300E00622E006BBA00020500A6810088E10040E300018C005563001EB30030010105B800011300513F02A20E008F380004B1016E7B0105AB0082E600116F001E2D0010F600537F016E6E0053EB021B18010440010CE70118C000A7490003B20070990052F9
def pool20 : Nat :=
  0x675E005180005A270001C0001EE70011B000732A0004E501E939001E610040180021930003F30104ED00798100863F00A7F600045F0104E000821B00AB940002880013D60078FB00896400A68B00AB8700523B00027B0013C9002CD9001FA200300B0088DE0011F2001F950051B5009CE50001F5000527001E3700017C005553001EA30105A8008B8A00010300116C006DEA0010F30004A1016E6B01059B00975600A7BF01043D010CE40010E60003AF007592002CAF010430010CD700A739002D1B009EFE004E59024C3600A6470066F00005E20084FC000237000569001E79001EE5007F7A0004770004E30104F80072AF0011A100657801E937007236002191003EB80104EB00797F00533800541D0013E10079EB002184007E0202940A00AB920013D4005F040030FB007469007D1000020D00A689006817001F3400AB85000279002CD7001FA0003009002C5E006295003C4E006E6E008863009091000525001E350010FE025249016E76001EA10105A600934A00010100116A0053F3007F360010F10096E8008F260003BA00049F016E69007948005C8D006534008606009F1600A7BD01043B010CE20075240003AD002CAD00701B01042E010CD500A737002C34002D190232B8006350007C600002420001C900A6450051F5005EB3007F85025BAB000567001E7700774A001EE3006A1300832300005E0011AC00881F001D8501E9420004E10104F601E9350068A800829D026F2C006CBF0003EF0104E9006914008ACB00AB9D0013DF004F8B005832006BCD007559004E2D00AB90008DF00002840013D2005B57008D7700020B00A6870055E202219F001F3200FF5A008457000192009D67000277001EB900068E007375000119005E7C0080330285D20051450059EC0072FC0001850065C50090230004B70059730105B1008C7800117500908F000523001E33007AB100554F016E740105A40011680053F1000431010CED0010EF0003B8009F8D0097CB016E670081ED00298602300A008EAB00A7BB005716010439010CE0002D2400024D002CAB0024E901042C000F0B0001D4
def pool21 : Nat :=
  0x104D900AB8D000281009F3B0013CF002CDF00069800A769002C66005F6B00AB8000201400FF57007C920002740013C20066B4005A620001FB002C590088D70073DE0099AC001EA9007280000109001172007F3E001F150058F70001750004A70105A10000FC000513001E23028D770010EC006D6A016E6400652F010436010CDD0010DF02A105005C0F00751F00A73F0003A8002D21020A2C00758B0024E6005FAD010429010CD00063C4002D14002C9B0056F9006B790002A9001EEB001FD000014B0090CE000562001F57005177005D500098FC00013E01E93D001E6500112E005D430036FC0058B30104F1008728025AA700046301E9300060E10011210104E400821F009B2F00AB98005BD80003710013DA004F86009ECD01DF1E00AB8B0095AD0013CD002CDD001FA6006BBB0118DE00A767005F6900FF55000272006797003002006307006BAE0001F9002C5700052B005140025F86000180020804005DFE001EA70051AC0105AC0083CC0001070011700083530010F70077010004A5016E6F01059F0267A7001163001E210256C50010EA0003B3016E620081E80053DF009F0F010434010CDB005B2800866B00A73D0003A6002D1F027ED300A7A90024E4006852010CCE004AB2007CD200A64B002D120066F40006CB0073B2008CC2002C99006F22008070005182006B770250440001C2005599026D6B001EE90072C00073A50011B2001F550061DE007247007AEE006E9C0004E700013C005DBA0076CA01E93B001E6300112C0104EF00037C00046100A77F002D610104E200AB960074E60013D8004E260089D200AB8900027D0013CB002CDB02335F0080B200911B0099C2001FA4005B50024FA10118DC008D70004E1900201000FF53000270000687001F970051B7000529001E3900017E0270D2029B30005555001EA50105AA0082E50083CA000105006ED10087E10010F5008F2A0004A3016E6D01059D010CE60079B8009B6F0010E8007528016E6002597C0013A10057F4010432010CD900A73B0003A4002D1D00AB520024E2005FA900527200A649002D100006C9002C97
def pool22 : Nat :=
  0x637B00026D002CCB004E82007039000684001F940030E2002C52005E72006EDB007B2000116B000519001E290058F00011D7016E6A001E9501059A0000F5007E4500007C0010E500214E0004930081E3004B330238A70085FA00974801042F010CD60010D8007518002D1A009EFD002CA10024DF010CC90091C600ABBB02051C00A72B0013FD002D0D00914D00898B006B720001BD00452B000144000229007F79001E6B008C370001B0005587001ED700616000013700046901E9360072350011270065E30004D50058AC0104EA00045C01E92900722800829100111A00A77A0003E30104DD008218008ABF00AB9100540F0013D3007DF400A76D00AB84004A760002780013C60080AD005A660118D70001FF01DF0A002C5D005F6200FF4E00026B001EAD001F9200621B00010D002C500067170065B90105A5008F9E000517001E270058EE0010F0016E680105980053E5006DDA010CE1008B010010E300793A006CE801042D010CD4023CBC005C06002D1802339C008996001FE1002C9F0024DD00ABB900A729002D0B006B040066740089100062C900014201E941001E69001ED50072AC00013500119E00220700046701E9340262D90098010004D30104E8009F4A00045A0058310060D80003E10070C80104DB00AB8F008DEF00862D008ED40013D1002CE10261DA00A76B002C6800AB8200FF590002760013C4005EF400068D0118D5007D000001FD002C5B00456B00778B00522900844900026900886002541D001EAB001F900062FE00010B00017700669C0004A90105A30000FE001167005D7C000515001E250010EE0011D3016E660029850053E3007E41009751010CDF0010E1004301026B3C002D23004FBF0024E801042B010CD20091CF020525007CD600039D002D160052E4007D4200023F009EF9002C9D0024DB0042020062D40074220001C60002AB00A7270091490005DD001EED00014D005EB00005640001B90004EB00014001E93F001E6700549E00904A006E1A00046501E93200507A0011230097FF0058A80104E6003B0800037300045800217F0003DF00681F
def pool23 : Nat :=
  0xFB001164006620006EC70061900010EB009C57003B49005DE5007610000499016E630000EE001157022844000505001E150079AE0010DE0003A702A6000024E5010428010CCF00535A00039A002D13009238009ADF00749800A79D0024D8010CC200ABB40002A8002D0600633D00022F002C8D0056060001B60034BB001EDD00624B008CA9000222007F720051690004DB00220201E92F001E570011200003E90004CE0025A00036EE0104E300614C00647E00045501E92200217C0003DC00AB8A0054080013CC00704A009AA80118DD00AB7D00FF540250F30002710013BF002CCF004E860006880118D0008D64002C56004E0D00786B00382F00FF47000264005DFD00067B0051AB0001EB00A667002C490055C2005E6900051D001F12008352026C3601059E008B800000F900116200907C00618E0010E90011CE000497016E61010CDA0010DC0061080024E3010CCD00ABBF005BFF00A72F000398002D1100964D00A79B0024D600806F00ABB20062CF0001C10002A6002D040265A800022D002C8B006F14005A1B0001B40034B9001EDB0051E001E93A00592900516700112B01E92D001E5500591C00111E0003E70004CC0104E1009F4300045300217A005F7300AB88006D160013CA0118DB002C6100AB7B00FF5200026F0013BD002CCD000686001F9600529B0118CE002C54004E0B005E7400671B0090940020020099A70083C90001E90055C0023A8D00051B001E2B001F100058F20011D90065B000884C01059C00116000007E0010E7000495010431010CD8008AF80010DA0054480003A3002D1C0081D80024E1010CCB00ABBD02513300A72D028BFA002D0F02339300707D00923400964B0024D4005EB60001BF0002A4005E3D005F220006BB00014600022B008060001E6D003862007740001ED902A39200551001E9380051650011290098050004D700656C00045E01E92B00714500591A00722A00111C0003E5003EAC0104DF029145000451002178005C3F00A76F0233D500927600AB8600027A0013C8000691001FA10118D9000201009EBB002C5F00AB7900FF50
def pool24 : Nat :=
  0x94150000E7007E370010D7007DBE0003A00053CC00A7A30024DE001D1C010CC800ABBA0003930013FC002D0C0006C5009AD8002C930024D100ABAD005B080002A10013EF004E3D005EA6006F0F008D1B024FB8001E5D001F42007BC00065E2001EC900012900119200045B01E9280104DC006477006D1E00044E00688E00217500AB83005BC30262470013C5002CD50068810052A3006BB30118D60096F600A75F002C5C005F6100795600AB7600FF4D00026A0013B8001F910118C900A66D002C4F00521D00843D007C7B00958B001F840051A40000FF006ECB009929006B2000016B02796600049D0105970062000000F2000509001E190010E20011C7010CD30010D500039E00601C00585A0053CA005C7100A7A10024DC010CC6009A6A00ABB8005351005BF80013FA002D0A0099F10038E300023300A794002C9100856400029F006BDB004D56006B620001AD005584020B63005DB20077A701E933001E5B0285ED0059220065E0001EC70050020050E7005CC000045901E9260059150097F30104DA009B2500044C002173009EC300AB8100FF5800531A0063830002750013C3002CD3025CD000068C02872E0118D400A75D002C5A0067210070AD00AB7400FF4B0002680013B600067F0001EF00A66B002C4D00455D0221830011DF005ED9001F820000FD00446B0058EB00016900049B0005800000F0001159005D6E000507001E17008AFE0010E0007A1C00114C006CE50024E7001D2501042A010CD1009B5A0010D300535C00A73300039C002D15004ECC00792A0053C800A79F0024DA010CC400ABB60075060002AA009E7F0013F8002D08008986001FD1000231002C8F0067560091B400029D005674001EDF004096008CAB007BC90001AB0004DD006A0201E931001E59001122004CCE0104E500614E00004000045701E92400111500217E0104D800927C0074DC0013CE0079D8002171005C380118DF00AB7F00201300FF560002730096860013C1002CD10030E80118D200A75B01DF05002C58006FC600AB7200FF490002660001ED00A669002C4B001F140011DD005962
def pool25 : Nat :=
  0xED005D6B0010DD0065990076E700048B004FBB001E070010D0001D8E004FAE0082B30024D7010CC100ABB3005BF300649A0002A700A7230013F5002D050006BE0084F300675300ABA60006B1004E3602652300516800524D007BC60001A8001ECF00738B00012F01E92E000454001E49003F1B00217B0003DB00A765008AAA00AB7C004A6E0053150250F20013BE00A7D1004E8501044F0071210092D80118CF002C5500200300FF460002630013B1002CC100067A006B9F0118C2002C48003D96001F110059D8007B8F000171000256023AFA00808B001F7D0083BD0001DD00801200050F001E1F0065A4005DE200884000057B001E8B0072620000EB0086E20069420010DB00659700866900114700A7A7010CCC00ABBE006C6700865C0052DE005B850053C30248140024D500608100ABB10002A50096B80013F3002D03004EBA0084F1007D2F004E41001F530002980006AF006BD400013A00021F00A69B001ECD00738900012D01E92C00722B0000B400111D007642006E8000003B0076AE000452001E470021790003D90004450068850118DA00A7630003CC00820100AB7A00FF510074CA00026E0013BC005EEC01044D0030E30118CD007CF8002C53004E0A00530600FF440002610013AF002CBF0049E6002C4600016F0077E2000586009999001F7B0000F600983B00050D001E1D00007D000579001E890000E90010D900866700585E00716E00A7A50024E0010CCA00ABBC0226D40096C3002D0E002C950024D3005F9A00ABAF0002A30096B60013F1002D010006BA023F5E004E3F001F5100021D001E5F001F44005164001ECB00012B00119400045D01E92A008B390086A90104DE007295000450004F800021770003D700796500820C007A4A008ECA0013C700745C0118D800A7610003CA009F9F00AB7800391C00FF4F00026C0013BA003D3301044B000683001F930118CB0001F3002C510045610088CF00FF42006C1400017A00025F002CBD0090FD001F86002C440088C200016D0005840105990051990000F402284A00050B001E1B0010E400007B0076EE001E87
def pool26 : Nat :=
  0x2C8500AB9F001F410052460001A10066C6003016006236007384009CFD00119101E927001E4F0051540004C6001EBB00614400011B0011840000A20021740004B90105B300646900A7D700044000753E01DF080003C7009F9C0081FC00AB75021DE600FF4C00967C0013B700A7CA002CC70045D7010448010CEF0006800118C800A751002C4E005F530067FA00025C0013AA001F830001E300A65F002C4100992800512A00024F000581001E91001F760051960000F10001D6001EFD0058DF00015D005DDB00048F0061F200725B0000E4006DCB0098290004FB001E0B00502B006094009C400010D40043D9005442022331001140010CC5008A0000ABB70013F9002D09004EC0007077006CCC00A793006FFE00ABAA00029E0013EC000225009DFA002C83025C80000291005668001ED3000133002C76006B540004D1006234006ADB00012601E925001E4D007ACB0004C4006D1B00985E0021720216A80000270046C7005730005FD70118D301DF0600AB73021DE400FF4A0002670013B500A7C8002CC501044600067E0062FC0118C6006C8800A74F002C4C00AB66006368006C0F023F8E0013A80208DE000671001F810001E100A65D002C3F005DE60077DB00057F001E8F0040460000EF0011580055AB00767D009072001EFB00015B00048D0040390072590000E20216EA0004F90025CB001E090010D200039B005C6E0024D9001D17010CC300ABB500A725002D0700A79100ABA80030A500029C0013EA0006B3001FC3000223002C81004E3800740600028F005E280098EF001ED10236A3008C9D0001310076BF023ED10004CF0098E200664901E923001E4B00828B00111400217D0043340003DD0004C20105BC00870E008FB50004490060C7002170004BCE006D85016E7F00795E00719C00AB7E0053170013C00079CA02054B0118D101DF0400AB7100FF480002650096780013B3002CC30077F30089410118C40002D1002C4A004E01001F13000173000258005DF100066F0062080000FA0001DF009DB400A65B002C3D0055B60005110076F400057D001E8D005954005192
def pool27 : Nat :=
  0x105B702460800002D006DF9008FB00004440072100082790003CB009FA0016E7A0013BB01044C0118CC00A7550003BE00530500FF43007D630002600013AE00A7C1020122006785005FC30243AB01043F001F870001E700A663002C4500916A001FF3000253002CB10090F1000585001F7A0001DA002C380034DF00016100057800518D0061F60083AD0000E80076760004FF001E0F001E7B007AF9007669001D1D00543900658700039400047900601200A7970024D20104FA00798E00ABAE005BEE0002A20013F0002D0000897E00641C0074850084EE002C8700674E005F8C00ABA10002950013E3002CF3005F130051DC0088F8001F430062B10001A30242EE0083EF00020F001E51001F360040080004C80098DB001EBD00011D02A29100044F0061B200721B00110D0021760004BB0105B500002B00A7D90004420096F7016E7800AB770013B9002CC90046BE01044A010CF1003A6C005B3E0118CA00753300A75300FF4100025E0013AC001F85007CE80001E500A661009E9F002C43006B21008516000251006691000583009996001E93001F7800412F006AA80000F30001D8002C360264DA001EFF00015F0011C80004910054BD0090690004FD001E0D0010D6005099007250010CC70000600003920013FB005B80005C650024D0005F9700ABAC005345007CBE009E750013EE024C92000227

/-- Code points of all mappings, 24 bits each, 256 to a chunk. -/
def pool : List Nat := [pool0, pool1, pool2, pool3, pool4, pool5, pool6, pool7] ++
  [pool8, pool9, pool10, pool11, pool12, pool13, pool14, pool15] ++
  [pool16, pool17, pool18, pool19, pool20, pool21, pool22, pool23] ++
  [pool24, pool25, pool26, pool27]

def canon0 : Nat :=
  0x13EC40034400304200343003182003410030820034002FD040023303CD8400232024386002310137C6002300243840022F0137C40022E0232460022D0123860022C01A3060022B009BC60022A01F0440022900E6040022801838400227025044002260353040021F0265040021E030E840021B033A040021A0288840021902BD04002180413840021703138400216040484002150305840021403BA04002130382040021203A78400211037184002100425840020F0344040020E0418040020D0336840020C0288040020B035A040020A02778400209034B8400208037F8400207029C840020603700400205028E840020402C7040020303BA840020202B9040020103A8840020003E904001FF030A04001FE029504001FD036684001FC022046001FB021746001FA039D04001F902A584001F802FC04001F502C784001F4032784001F002A804001EF03A184001EE01D606001ED00CBC6001EC01D604001EB00CBC4001EA03A804001E902B104001E802EF04001E703CA84001E6031484001E3031E84001E2018386001E1025046001E001F706001DF00F686001DE019406001DC00A946001DB013406001DA01FA06001D90140C6001D8020486001D701B5C6001D600C146001D5027704001D4034A04001D3028E04001D2038184001D102CA84001D002D704001CF030384001CE03F384001CD00A104001B000A7C4001AF00B244001A100E004001A000E7040017E01CEC40017D0324840017C0401840017B02FA040017A02C5840017903E8840017802EF840017703C004001760312040017502E2840017402DE040017303AF840017203E2840017102E904001700268840016F033B040016E041F040016D031C840016C0221040016B012BC40016A00D8840016900DE840016803D1040016503FD040016402B6840016303A504001620233C4001610242C4001600406840015F0323040015E0304840015D03F4040015C0231840015B01EB040015A03F2840015902FD840015802DB040015702A1840015603FE840015503CE840015403FA840015103198400150025E040014F0351840014E013C440014D0187440014C033484001480411040014703ED040014603BD8400145033F8400144031184001430412840013E0326040013D03BE840013C03DB840013B0313040013A03328400139028A04001370253040013602E0040013503CF0400134031284001300325040012F03F7840012E0295840012D0367040012C0286040012B0358040012A02EA840012903B6840012803D0840012503F0040012403A40400123036D8400122032704001210404040012002BF040011F0285840011E029B840011D0267040011C03C2040011B02E2040011A041B0400119033904001180334040011704248400116038D040011502AB840011400FC840011301A9C400112035B040010F0368840010E03EB840010D030D840010C0425040010B0343040010A028D84001090380840010802EE040010703DB0400106035C84001050279040010400C2C4001030166440010202C4840010103B88400100031904000FF034104000FD013404000FC040204000FB028504000FA02E984000F901A304000F600BF04000F500DC44000F4029B04000F302FB04000F2034F84000F101C404000EF027604000EE02D784000ED026784000EC039D84000EB0161C4000EA03CC84000E9042104000E8022404000E7022044000E501F704000E4031C04000E300B9C4000E2031004000E1036404000E0041604000DD00A944000DC030304000DB035704000DA02F284000D9009BC4000D6012384000D500AA04000D4038E84000D3032884000D2031D04000D101C7C4000CF034984000CE03A684000CD033A84000CC02BE84000CB00D644000CA02ED04000C9027B84000C8011A84000C7021744000C500F684000C4040F04000C300C084000C203FF04000C1039704000C0
def canon1 : Nat :=
  0x3BB8401E60025A8401E5F03FE0401E5E01010601E5D01268601E5C01010401E5B01268401E5A02540401E5903360401E58034B0401E5703578401E56031E0401E5503EF8401E54013C4601E5301E74601E52018EC601E5101874601E50024E0601E4F01430601E4E00BF0601E4D01700601E4C041B8401E4B03240401E4A03760401E49033F0401E4803D38401E47039C0401E46036E0401E4502750401E44041C0401E43026A8401E4202FF0401E4103DF8401E40038F8401E3F03B60401E3E03258401E3D040B8401E3C03400401E3B03638401E3A010E8601E39009EC601E38010E8401E37009EC401E3603E78401E3503B78401E34026B8401E33040D0401E3203B80401E3103800401E3001C40601E2F01C7C601E2E03600401E2D025A0401E2C02D38401E2B02F70401E2A03010401E2903218401E2803FB8401E27041C8401E2602E58401E2503068401E2403900401E2302A38401E2202AC0401E2102758401E2002A48401E1F03810401E1E01F04601E1D00E60601E1C02818401E1B03758401E1A02D28401E1903008401E1800FC8601E1701A9C601E16014B4601E1501FB8601E14037D8401E1302798401E1204150401E1103160401E10039E8401E0F02978401E0E03F80401E0D02F60401E0C02D80401E0B03A70401E0A02240601E09011A8601E0803C60401E07038C8401E06041A8401E0503E68401E0403C18401E0302C90401E0203AE0401E0102CC8401E0002A20401B43041A0401B4103BE0401B4002BB0401B3D03B00401B3B03AC0401B12039A0401B0E02BB8401B0C02E40401B0A03D40401B0803F60401B060382840102603910400FB903588400FAC03F18400FA702C08400FA203528400F9D02AE0400F9300B04400F8104090400F7803AC8400F76037E8400F75036F0400F7303140400F6902C68400F5C04270400F5704108400F5202D68400F4D03FF8400F4303050400DDE01C94600DDD01C94400DDC02728400DDA03938400D4C02A78400D4B03F98400D4A01790600CCB01790400CCA04050400CC8039A8400CC7027D8400CC003490400C48031B0400BCC03A10400BCB02708400BCA036B0400B94028D0400B5D03DF0400B5C02808400B4C02ED8400B4B03EC8400B4802DA8400A5E03948400A5B02528400A5A02FF8400A59030E0400A3603EE8400A33029684009DF038904009DD030A84009DC02BC04009CC03E204009CB02B0040095F03C9040095E039F840095D0320040095C03B9840095B039E040095A03EA84009590369040095802BF8400934025D04009310367840092903BC04006D302CA04006C2034184006C000CD44006260201C40062502FE840062400A5C40062301F6840062203A084004F902C104004F803AA04004F502B204004F4034D04004F3026A04004F202D904004F103CB04004F0037904004EF029604004EE037B04004ED029704004EC02B584004EB035484004EA038C04004E7028704004E603A204004E502C204004E4027104004E3036204004E2032104004DF041404004DE02C284004DD039204004DC034384004DB02EB04004DA040604004D7042604004D602DB84004D303CB84004D202CB84004D103BD04004D002B504004C2038584004C103EC040047702CE04004760388840045E0426840045D03AF040045C03A30400457028F84004530414840045102CB04004500393040043902B4840041903BC840040E0345040040D03D1840040C03220400407038504004030260040040102EE840040002C984003D402F484003D3016344003CE02E484003CD02F504003CC00D4C4003CB012C84003CA013E86003B0025604003AF00A044003AE041E04003AD023FC4003AC038404003AB03D204003AA0197C6003900294840038F03B3040038E03E3040038C03FC040038A031A0400389033C04003880298C200387027E0400386036504003850660020037E04FFC200374
def canon2 : Nat :=
  0x2560401F7702B88401F7600A04401F7501DD8401F74041E0401F7303BB0401F72023FC401F7100D10401F7000920601F6F00750601F6E00370601F6D00840601F6C005C0601F6B00420601F6A00370401F6900420401F6800770601F67004C0601F6600620601F6500950601F6400450601F63007A0601F6200450401F61004C0401F6001484601F5F00FE0601F5D014FC601F5B00FE0401F5902498601F5701CB8601F5600FB0601F5502390601F540149C601F5300D40601F5200FB0401F5100D40401F5001958601F4D01328601F4C01ED4601F4B00D28601F4A01958401F4900D28401F4800DDC601F4502288601F4402348601F4300C38601F4200DDC401F4100C38401F4001CAC601F3F00B18601F3E017FC601F3D021B0601F3C01D3C601F3B00B30601F3A017FC401F3900B18401F3801A00601F3701304601F36014F0601F35019A0601F3401A54601F33013B8601F32014F0401F3101304401F3000700601F2F00400601F2E00790601F2D00850601F2C00380601F2B00300601F2A00380401F2900300401F2800410601F2700430601F2600870601F2500510601F2400480601F2300720601F2200410401F2100430401F2002144601F1D00F98601F1C01AF0601F1B024B0601F1A01AF0401F1900F98401F1801628601F1500EB4601F1401004601F1302414601F1201004401F1100EB4401F10004E0601F0F00570601F0E006F0601F0D003C0601F0C00520601F0B00890601F0A004E0401F09003C0401F0800740601F0700360601F0600310601F0500830601F04007D0601F03006D0601F0200310401F0100360401F0003510401EF904228401EF802C00401EF7038E0401EF603D58401EF502D20401EF4039F0401EF303B10401EF201880601EF1018D4601EF00212C601EEF02180601EEE023E4601EED0245C601EEC00A10601EEB00A7C601EEA01FDC601EE9010AC601EE803D80401EE702D60401EE603168401EE503E58401EE400B24601EE301658601EE201F58601EE100F2C601EE0016A0601EDF021C8601EDE02408601EDD01358601EDC01E8C601EDB00E00601EDA01520601ED9020C0601ED801694601ED7021A4601ED600DC4601ED5018C8601ED401B08601ED300AA0601ED2015EC601ED10206C601ED003EA0401ECF030C8401ECE01520401ECD020C0401ECC035D8401ECB02588401ECA04200401EC9031F0401EC801D84601EC700D1C601EC601EEC601EC500E48601EC40161C601EC3020F0601EC20236C601EC101280601EC001DF0601EBF00D64601EBE03D90401EBD02FB8401EBC03408401EBB025F0401EBA01D84401EB900D1C401EB801D18601EB700C5C601EB600C2C601EB501718601EB400F20601EB3019C4601EB2010DC601EB101BB0601EB0016C4601EAF01664601EAE01B68601EAD00AF4601EAC00C74601EAB00C08601EAA01F28601EA900F08601EA8020E4601EA7010B8601EA600B9C601EA5016AC601EA402840401EA303778401EA201B68401EA100AF4401EA002AF8401E9B032A8401E99034A8401E9803B28401E9702838401E96032D8401E9502F98401E9402700401E93034E0401E92035D0401E9102658401E9002B08401E8F037F0401E8E02940401E8D03898401E8C04028401E8B03208401E8A03F70401E8903C58401E8803978401E87029D0401E86033B8401E85030B0401E8403658401E8303350401E8203C78401E8102D00401E8003740401E7F02928401E7E02FA8401E7D03E80401E7C02210601E7B012BC601E7A00D88601E7900DE8601E78035E0401E77036C8401E7603170401E7503E70401E74037C8401E7302780401E7202E60401E7103110401E70040E8401E6F032F0401E6E02930401E6D03870401E6C03420401E6B02608401E6A02444601E6901388601E680233C601E670242C601E6602318601E6501EB0601E6402444401E6301388401E6202C80401E61
def canon3 : Nat :=
  0x62F420F918057A820F91704A2020F91606A3820F915060A420F9140507820F91306D5820F91204D1020F911053C020F9100517C20F90F06DCC20F90E06DEC20F90D0463820F90C05B1820F90B01DE820F90A0435C20F90906B8820F90806B8820F90705A3C20F90604B3820F9050547020F904047B420F903064A420F9020558C20F90104B9820F900026204030FE032A04030FA02A704030F9035504030F802DA04030F7029D84030F4002384030DD005304030DC0024C4030DA006804030D903FC84030D70009C4030D6001144030D4015084030D3000CC4030D1001044030D0000C44030C900C204030C7029F84030C5026104030C2001804030C0042804030BE0014C4030BC036A84030BA002584030B802B304030B6038484030B4000904030B2001944030B0001744030AE002784030AC0345840309E0257040309402E5040307D0338040307C027E840307A02E30403079030D0403077029E040307602BA840307403150403073032C84030710386840307002680403069035C04030670383040306503F58403062041784030600337040305E035A840305C032B040305A034C040305802698403056028F04030540386040305203AA84030500373040304E0399040304C02598402ADC0524420232A04840202329028304022ED03D984022EC037804022EB02FC84022EA031A84022E3036804022E203EE04022E1038D84022E003B504022AF02D584022AE042304022AD028484022AC02C504022890364840228803DA0402285035684022840310840228103B584022800423840227903A604022780366040227502EC840227403D884022710355840227002A5040226F02CE840226E0299040226D03CD040226203F904022600333040224902E8040224703CC0402244037D040224103D7040222602D5040222402BE040220C025B040220903C8040220402F884021CF02D484021CE02C604021CD02C384021AE03B7040219B02B7040219A0217440212B00E1020212A003702021260672020200105D5420200006610201FFD029F0401FFC02948401FFB04038401FFA03E30401FF903798401FF801EBC601FF701EBC401FF601634601FF403A38401FF3010C4601FF206C34201FEF03650401FEE03C70401FED02580401FEC03B30401FEB03428401FEA03610401FE903720401FE800D4C601FE7026C8401FE6040E0401FE503A58401FE4013E8601FE301910601FE202910401FE102A08401FE002628401FDF03E60401FDE026B0401FDD03FC0401FDB03908401FDA03B40401FD903C40401FD8012C8601FD702AE8401FD60197C601FD301EF8601FD203E10401FD103F48401FD002EA0401FCF03500401FCE03B08401FCD02590401FCC031A0401FCB02B38401FCA033C0401FC902D88401FC8011C0601FC7011C0401FC600A04601FC403538401FC301DD8601FC203C08401FC1012C8201FBE02878401FBC027E0401FBB03EB0401FBA040A8401FB904188401FB8010F4601FB7010F4401FB6023FC601FB403698401FB300D10601FB203188401FB103290401FB000920801FAF00750801FAE00370801FAD00840801FAC005C0801FAB00420801FAA01244601FA901CD0601FA800770801FA7004C0801FA600620801FA500950801FA400450801FA3007A0801FA202258601FA101094601FA000700801F9F00400801F9E00790801F9D00850801F9C00380801F9B00300801F9A01850601F99021F8601F9800410801F9700430801F9600870801F9500510801F9400480801F9300720801F9201568601F9100E9C601F90004E0801F8F00570801F8E006F0801F8D003C0801F8C00520801F8B00890801F8A01F34601F8900D94601F8800740801F8700360801F8600310801F8500830801F84007D0801F83006D0801F8201454601F8100CEC601F8001634401F7D010C4401F7C02E48401F7B03378401F7A02F50401F7902868401F78
def canon4 : Nat :=
  0x6C1020FA1D0532820FA1C04B7020FA1B064B020FA1A0689820FA190491020FA180552820FA17053E420FA16042E820FA15059E820FA120629820FA1005D4420FA0D0563820FA0C0438420FA0B05B4020FA0A05E2420FA0905D2420FA080458C20FA07057BC20FA060636020FA050667820FA04058A420FA0304E7420FA020639C20FA0104BC820FA00049D820F9FF0434820F9FE06AA020F9FD04CF020F9FC04C0420F9FB0555420F9FA057C820F9F905BD020F9F806A4020F9F7055D820F9F606AE420F9F50565420F9F406CA420F9F305FE420F9F20473820F9F105B8820F9F005F8820F9EF044BC20F9EE0529420F9ED0464C20F9EC04E2420F9EB04D7C20F9EA04D3020F9E904C7020F9E80645420F9E705B2820F9E604A3820F9E50691020F9E40613820F9E30513C20F9E206D7820F9E10465020F9E006C2420F9DF05ABC20F9DE0593420F9DD0604420F9DC04B2020F9DB0525C20F9DA06BBC20F9D904A2420F9D80546420F9D70533C20F9D60440C20F9D506AD420F9D40686820F9D304C8020F9D2010A420F9D106A3420F9D00526820F9CF05EB420F9CE0510820F9CD0487820F9CC0553820F9CB04E4020F9CA043A020F9C904D6020F9C80492420F9C704A0C20F9C60436820F9C50504420F9C405E6420F9C3052E020F9C20660820F9C10432820F9C0060A420F9BF067F020F9BE05C3820F9BD06D9C20F9BC0483C20F9BB05ECC20F9BA056B020F9B90665C20F9B8060C820F9B705FB820F9B60511420F9B504E4C20F9B405B8420F9B30632C20F9B205CC820F9B1042B820F9B0044FC20F9AF0526C20F9AE0558420F9AD0629C20F9AC0552C20F9AB045F420F9AA0571020F9A90254820F9A8050B820F9A70447420F9A60564820F9A505BFC20F9A40486C20F9A304E9820F9A20675420F9A10643020F9A00599020F99F06C5420F99E0633820F99D0452020F99C0520C20F99B0509020F99A06D8020F999051F020F99805E1820F99705AB420F9960688420F995044A020F99404CB820F99304D1820F992067BC20F991062C020F99005FEC20F98F05D6020F98E04CD420F98D0556C20F98C06BE820F98B05D7020F98A04DFC20F98904D5020F9880628020F9870567C20F9860610820F98506A9020F9840509420F983065BC20F9820508820F98106AC020F9800490C20F97F058AC20F97E04CCC20F97D04DA020F97C0492020F97B0633C20F97A04F6820F97905F4020F9780447820F9770475020F9760487C20F9750547C20F9740591820F973069E420F97206E8C20F97104C7C20F9700675420F96F0593020F96E0560420F96D0654820F96C0667420F96B04CB420F96A052B420F96906A9820F96805EB820F9670541420F966058BC20F965053A020F9640688C20F9630460420F96204B2020F96106DB420F960045F420F95F0474820F95E0614820F95D060A420F95C05E1020F95B05E7020F95A043C820F959042C420F958063EC20F9570614020F9560485020F95506D5C20F954066E020F953044A420F95205CC420F951063F420F9500664820F94F0639820F94E05A3820F94D0516420F94C0477020F94B0434C20F94A06CF420F9490558020F9480451020F947066B020F94604D3420F9450519420F9440527420F94306B0020F94204FA820F941060E820F94004FA420F93F05D4C20F93E0476020F93D0529C20F93C0485C20F93B06A7C20F93A0544C20F939044C420F9380598420F9370668020F936051D420F93504A6420F934067EC20F93306E8420F93204B0820F93104EE420F9300667C20F92F054A020F92E0568C20F92D056F820F92C0509C20F92B0576420F92A05A6420F9290466020F9280515420F92705CF020F926059E020F9250539C20F92404FA020F92304CB020F922056E820F92104D3C20F9200598020F91F06D1420F91E059EC20F91D0453820F91C05BF020F91B0626820F91A06E2020F919
def canon5 : Nat :=
  0x64E822F81006BC822F80F0443422F80E0441022F80D04C8C22F80C049A022F80B0621022F80A06C4022F8090582822F8080621422F807067E422F806067D422F805046A822F80406E4422F8030664422F8020691422F801063A022F80000E7861D1C001BEC61D1BF013D061D1BE0210861D1BD00E7841D1BC01BEC41D1BB01A6C61D16401F9461D1630197061D16201EE061D161018A461D160018A441D15F0399841D15E03D5041193803B384115BB032F84115BA037704114BE026184114BC03C684114BB033E841134C03AB841134B0374841112F02F6841112E02C404110AB033E041109C025C841109A02A9840FB4E0282040FB4D03B4840FB4C027F840FB4B03E4040FB4A00A4040FB490307840FB480281040FB47032B840FB4602F8040FB44039B840FB4303C4840FB41040C840FB400257840FB3E027F040FB3C02D3040FB3B0373840FB3A02F5840FB39026F840FB380363040FB36040B040FB35038A040FB34032D040FB3302A8840FB3203FD840FB3102D1840FB3002AF040FB2F030B840FB2E0107C60FB2D00A4060FB2C0391840FB2B032C040FB2A03CA040FB1F0378840FB1D047F420FAD905DB020FAD8055B020FAD7061C820FAD60521C20FAD50697820FAD4053D420FAD30478820FAD205C3020FAD105FC420FAD00641820FACF06B8820FACE043F820FACD0656C20FACC04E2C20FACB0582020FACA0497820FAC90532820FAC80452420FAC706B7420FAC605C2C20FAC504F7C20FAC40698820FAC304C4820FAC2045BC20FAC10534820FAC0064D020FABF044D020FABE0614820FABD05A3020FABC0512020FABB05D0420FABA05AC420FAB905A0820FAB8060DC20FAB70685820FAB60458820FAB506D4420FAB405E7C20FAB304D2820FAB20579020FAB105AB420FAB004ECC20FAAF062F020FAAE0638420FAAD0506C20FAAC0467C20FAAB05C9020FAAA0516C20FAA90681020FAA80462820FAA70552820FAA604F0C20FAA504D9820FAA4046C820FAA3060F020FAA2045CC20FAA1053E420FAA0052BC20FA9F05B0020FA9E0623020FA9D0654420FA9C04A8C20FA9B0557820FA9A062DC20FA9905BD420FA9804E4020FA9704C7C20FA960570C20FA95060CC20FA9405D5C20FA9305A6420FA92059E820FA91045A020FA9004AB420FA8F06D8820FA8E0571C20FA8D06A5420FA8C06AF020FA8B05B1020FA8A05E6020FA8905E4420FA880608C20FA870599820FA860572820FA850566020FA840617C20FA8304BEC20FA82055C420FA81057B820FA800680420FA7F0434020FA7E056C820FA7D0629820FA7C050E020FA7B0556020FA7A0548820FA790463020FA780439820FA77045E820FA76053F820FA75050A420FA74064BC20FA730678C20FA720536C20FA71054F420FA7005AC820FA6D06D4820FA6C0449420FA6B0656C20FA6A0582020FA690452420FA680444C20FA67046F020FA66045BC20FA650466820FA64064D020FA6305A3020FA6205A0820FA61059E420FA60050D020FA5F06E8020FA5E06E8020FA5D0503820FA5C04D2820FA5B05F4420FA5A058D820FA5904E1820FA5805AB420FA570638420FA5604B8C20FA55043FC20FA5406DA420FA5304A3C20FA520132020FA510631C20FA500455420FA4F051E020FA4E0493820FA4D003EC20FA4C042E420FA4B0587820FA4A0661420FA490654420FA480557820FA470583420FA460456420FA45065E420FA4406C9020FA430638020FA420498C20FA4106AF020FA4005E6020FA3F04E4820FA3E06AD020FA3D0695420FA3C048A820FA3B0581C20FA3A0488820FA3906A6C20FA3805F6020FA370463020FA360627820FA350589820FA340475420FA330443420FA320621020FA31067D420FA300431420FA2F04FDC20FA2E0682420FA2D06B2820FA2C056E420FA2B0690420FA2A0643C20FA260444C20FA2505D0420FA220480C20FA20049A820FA1E
def canon6 : Nat :=
  0x650022F910049F022F90F06E9022F90E068EC22F90D05FF022F90C062DC22F90B0647422F90A0523422F90904B8022F90804E2022F90704B7822F906068A022F90504F1022F90404D8022F90304E4022F9020456422F9010431822F90005D9C22F8FF0668422F8FE048AC22F8FD0513022F8FC05A1822F8FB0448422F8FA066E422F8F904DD422F8F805D4022F8F70566C22F8F604C7C22F8F50670822F8F405B3C22F8F30523822F8F206A5C22F8F105B8C22F8F006C9C22F8EF048D022F8EE06A5022F8ED068FC22F8EC06C7822F8EB0483822F8EA04E5022F8E9066A422F8E80478822F8E70512422F8E60580022F8E50635822F8E4044A822F8E3065E422F8E2055A422F8E106E4022F8E006B4422F8DF05FE022F8DE0481022F8DD067A022F8DC053FC22F8DB061B022F8DA05D5C22F8D905A6422F8D806AC422F8D705A9C22F8D60590C22F8D504BD422F8D4047C022F8D30680022F8D20496422F8D10581422F8D006C9022F8CF0489422F8CE068E022F8CD0464822F8CC05AF822F8CB0503022F8CA05C6C22F8C90498C22F8C806CD422F8C70636422F8C60477822F8C505F1022F8C406BA022F8C30448822F8C2045F822F8C104E8C22F8C00460C22F8BF04ED022F8BE0494822F8BD061D822F8BC069D422F8BB069EC22F8BA05F6C22F8B904ED422F8B80519822F8B70587C22F8B606D5022F8B50479C22F8B405A7022F8B30289422F8B206DEC22F8B106AF022F8B00554422F8AF0483022F8AE0498422F8AD06D1822F8AC05E6022F8AB048D822F8AA05F1422F8A90608C22F8A805F1422F8A70429C22F8A6068AC22F8A50653022F8A406AD022F8A30648422F8A2042D822F8A10666822F8A004B4422F89F06A1C22F89E0495822F89D0651C22F89C0626422F89B057D822F89A05A8422F8990597022F8980519C22F8970472C22F89605CAC22F89505CAC22F894065D422F89306ABC22F89206ABC22F89104DF022F89005C8822F88F0466022F88E05CBC22F88D0518022F88C0585822F88B04A6C22F88A0618422F88905C9422F88805E8822F88705CB022F8860690822F88505EA422F88405EB022F883066C022F8820436C22F881058F822F880067F822F87F0615422F87E06B7C22F87D056D022F87C06A0C22F87B051DC22F87A0620C22F8790695422F8780460822F87704CF822F8760494422F87506B4822F87405A1422F87305E3422F87204C1C22F871067C022F870045F422F86F0569822F86E0634C22F86D043D422F86C06CD022F86B06CD022F86A063AC22F869056CC22F86805F1C22F86705A9822F866066F422F865053F422F86405DF022F863050A022F8620696C22F86106A2C22F8600600022F85F0622022F85E05C5C22F85D046E022F85C0578822F85B05D3022F85A049E822F85905AF022F8580599C22F8570511022F85604D6C22F85504ACC22F8540543422F8530449822F85205A4C22F85104BC822F850060C022F84F049D022F84E047E022F84D05F6022F84C0502422F84B05E8C22F84A0437822F8490699022F8480556022F8470623C22F8460623C22F84504C6422F8440535422F84305C8422F8420429022F841048A422F84004F1422F83F05CFC22F83E04A4822F83D0583C22F83C0442422F83B0505822F83A04C2022F8390623822F838055D422F8370629422F8360430822F8350573422F83404C2822F83304C2822F83204C2822F83104AC022F830043B022F82F05F9C22F82E0627822F82D0431C22F82C0688C22F82B065A022F82A06E5C22F8290439822F8280589822F8270475422F826045E822F82504B1C22F82404E9022F8230541022F82206BF022F8210539022F82006DFC22F81F048EC22F81E0518422F81D0462022F81C0536C22F81B0562022F81A0610C22F819062E422F818048FC22F8170688022F81606DF022F81505DD422F81405DE822F81305B5422F812056EC22F811
def canon7 : Nat :=
  0x446C22FA10050C822FA0F048C822FA0E0609422FA0D06BD822FA0C06ACC22FA0B043F822FA0A0548C22FA09068A422FA0804FEC22FA07054D022FA0605D5022FA05062D822FA0405B9022FA03068E422FA020481822FA0106AE022FA0004E2C22F9FF04E2C22F9FE044AC22F9FD0559C22F9FC0528022F9FB0440422F9FA05AA822F9F90674C22F9F80499022F9F705C4422F9F60430022F9F50623422F9F40652C22F9F30658C22F9F20576C22F9F104B3022F9F004B1422F9EF062EC22F9EE05CD822F9ED063FC22F9EC048B022F9EB0607022F9EA0672C22F9E9043E422F9E805F9022F9E7054D422F9E6061C022F9E504DCC22F9E406E1022F9E305D5822F9E20622422F9E1050A822F9E004C4822F9DF0597C22F9DE069C422F9DD050FC22F9DC0490822F9DB04AB022F9DA0562C22F9D90432022F9D8050EC22F9D70639422F9D604BA822F9D5060B422F9D40497022F9D304BB422F9D20534822F9D1044D022F9D0046BC22F9CF06A2422F9CE06CE022F9CD062CC22F9CC042AC22F9CB05F5822F9CA042E022F9C9047CC22F9C80537822F9C7057AC22F9C60471C22F9C50523022F9C40592822F9C304CA022F9C20470822F9C10546C22F9C006B6422F9BF045AC22F9BE04D9422F9BD056C022F9BC0458822F9BB066A822F9BA068B822F9B904F0822F9B8064CC22F9B70669822F9B60654C22F9B50668022F9B4044B822F9B30593C22F9B20549022F9B10477C22F9B00645822F9AF0618822F9AE0513422F9AD0625422F9AC048B822F9AB06C9822F9AA067A422F9A90664C22F9A805B3422F9A7042B422F9A60555C22F9A505E7822F9A404F4822F9A30561822F9A20547822F9A10560C22F9A0050D022F99F04DE422F99E066D822F99D0516022F99C06DE822F99B04F3C22F99A04CEC22F9990547C22F998058C422F99704C3822F9960433C22F995067D022F99404CF422F993049E422F9920513822F991068D422F99005ADC22F98F0617022F98E05A5822F98D0457C22F98C065D422F98B05A0C22F98A05CD022F98904DB022F988055F422F987047C822F9860474422F9850459022F9840439C22F983054D822F98204E5C22F981054DC22F9800557422F97F05E0022F97E05C9C22F97D0679022F97C06C6822F97B04D2822F97A04E6822F97904A7422F9780443822F977052CC22F976059B422F9750433022F9740634822F97304EC822F972068C822F97105BA822F9700528422F96F04EB022F96E058C822F96D06E5422F96C0563422F96B0594822F96A0467422F96906CB022F9680454C22F9670559822F96606A7422F9650453C22F964060B022F9630678422F9620517822F9610588022F9600553C22F95F056BC22F95E056BC22F95D0543C22F95C045A422F95B064A822F95A043FC22F95906C7C22F9580528C22F95704B7022F956055E822F95504B6822F9540631C22F9530461022F95204C6C22F9510467C22F9500485C22F94F04BD022F94E0592422F94D060B822F94C0699C22F94B0593822F94A0697822F9490516C22F948046F822F947046F822F94604F5022F94505CE022F944042F022F9430674422F94205EDC22F9410681022F94006D3422F93F04AF822F93E0556822F93D0639022F93C054C422F93B05FD822F93A050DC22F9390460422F93806C0422F93706B9422F936052F022F935051C022F9340676422F933065C822F93206D8422F931045CC22F9300649C22F92F0453422F92E052A422F92D052A422F92C0555022F92B05C4C22F92A0677822F92904B0422F9280667022F9270464422F926064C422F9250579C22F92406E9822F92306C3C22F92205B0022F92105AE022F92006E3822F91F0689422F91E046F422F91D05C6022F91C058A822F91B061AC22F91A06A9C22F91905CCC22F91805EF022F917066FC22F916051B422F91504A8C22F91405BEC22F9130602422F912069CC22F911
def canon8 : Nat :=
  0x5FAC22FA1D057F022FA1C051D022FA1B055D022FA1A04EA022FA19052F822FA180588C22FA170624822FA1605C0C22FA1506D2022FA1404C4C22FA130574C22FA12047A422FA11

/-- Full canonical decompositions. -/
def canon : List Nat := [canon0, canon1, canon2, canon3, canon4, canon5, canon6, canon7] ++
  [canon8]

def compat0 : Nat :=
  0xB9020209300A2420209200FC8202091001602020900008020208E0006820208D0121020208C0461420208B06D0020208A0054820208900768202088008A8202087004982020860094820208500738202084006182020830017020208200444202081004F82020800168C20207F0008020207E0006820207D0121020207C0461420207B06D0020207A0054820207900768202078008A8202077004982020760094820207500738202074004D4202071004F82020700000C20205F0088080205702DF8402049037B840204802E1840204703D0040203E037A040203C022286020370222840203600880602034008804020330000C20202F013DC602026013DC402025003D420202402E70402017054B42020110000C20200A0000C2020090000C2020080000C2020070000C2020060000C2020050000C2020040000C2020030000C2020020000C2020010000C20200001A84401FFE02998401FFD01928601FEE01310601FED01A84601FDF02114601FDE01AD8601FDD02468601FCF00F8C601FCE01478601FCD0128C601FC104010401FC000F8C401FBF00F8C401FBD02C80401E9B036B8401E9A05048201DBF02A80201DBE06A70201DBD0473C201DBC00E70201DBB04468201DBA04CA8201DB9063D8201DB8042D0201DB704B2C201DB6060AC201DB504714201DB404F74201DB305AA4201DB2061D4201DB1057C4201DB006048201DAF05658201DAE054AC201DAD05ED8201DAC06250201DAB05150201DAA05BF8201DA9060C4201DA804A30201DA706310201DA60592C201DA5061A0201DA40686C201DA306598201DA206444201DA100AC8201DA006B40201D9F0615C201D9E04390201D9D006B4201D9C04A94201D9B046D0201D7806B8C201D6A04820201D6903A58201D68055E0201D6704C08201D66004D0201D6500A10201D640015C201D63004D4201D6206B8C201D6104820201D6004D74201D5F055E0201D5E04C08201D5D06130201D5C004D0201D5B05D84201D5A06DC8201D5900A10201D5801368201D57003D0201D560694C201D550461C201D5404BFC201D5300A24201D52056FC201D51003D8201D50006B0201D4F007FC201D4D06B40201D4C047EC201D4B04690201D4A00FC8201D4900164201D4801B24201D4704A28201D4606C94201D4504904201D4400160201D430099C201D4200A7C201D4101724201D4001224201D3F009CC201D3E05F48201D3D009BC201D3C022F8201D3A00BDC201D39009EC201D3800E10201D37017B8201D3600804201D3500ABC201D34014CC201D3304DD0201D3200D1C201D31009B4201D3000BC4201D2E031E8201D2D00AF4201D2C05E482010FC00B00600F7901F7C600F7705004200F0C03980400EDD041D0400EDC02A00400EB302B98400E3303468400678032284006770264040067602DD840067502D9840058705CF82003F900EB42003F505E2C2003F40455C2003F203A582003F1051EC2003F0043D82003D6048202003D5038404003D403B304003D300FE02003D2050482003D104C082003D0019286003850299840038402A6040037A06D6C2002E400B902002E30016C2002E2006BC2002E1067182002E003FA04002DD02AB04002DC02F184002DB027C04002DA03DA84002D9025D84002D800AB02002B8018E42002B7057F42002B60538C2002B5052502002B40015C2002B3015FC2002B2060182002B100FF82002B000E6C4001F301AE44001F201CE84001F102C184001CC028984001CB031F84001CA028B84001C902B184001C8040704001C700E6C6001C601AE46001C501CE86001C40016C20017F03F08400149038784001400298840013F0422040013303B90400132014486000BE010346000BD011186000BC00A242000BA004442000B9034604000B8028002000B5029984000B4006182000B3001702000B2042404000AF001602000AA0128C4000A80000C2000A0
def compat1 : Nat :=
  0x470802A0C004F82024EA00E702024E900AB02024E800B902024E7018E42024E6004D02024E500A102024E4013682024E30016C2024E20015C2024E101A1C2024E0003D02024DF00A242024DE0168C2024DD003D82024DC006BC2024DB006B02024DA015FC2024D9004D42024D800FF82024D7007FC2024D600AC82024D500FC82024D4001642024D3006B42024D201B242024D1001602024D000F542024CF023102024CE011342024CD0099C2024CC008002024CB00A7C2024CA017242024C9013882024C8012242024C700CCC2024C6009CC2024C5009BC2024C4022F82024C300BDC2024C2009EC2024C100E102024C0017B82024BF008042024BE00ABC2024BD014CC2024BC0125C2024BB00D1C2024BA009B42024B9007F02024B800BC42024B700AF42024B601C4C6024B500AAC6024B401E506024B3018E06024B2011486024B101AFC6024B0013646024AF018206024AE021D46024AD01A186024AC023F06024AB00CF86024AA016886024A900F446024A8023006024A7011246024A6015F86024A501F406024A4017CC6024A3010586024A200AC46024A101E806024A000CA460249F0207860249E01B2060249D0139460249C0236060249B0200060249A018BC6024990229460249801ACC6024970152C60249600DAC602495022E860249401B746024930143C60249201E1460249102004402490018C040248F0229840248E01AD040248D0153040248C00DB040248B022EC40248A01B7840248901440402488006408024870054080248600760802485008A0802484004908024830094080248200730802481006108024800044080247F006C080247E004F080247D0098C60247C00E1860247B017F060247A01064602479019F460247801E986024770170C6024760209C60247501904602474006444024730054440247200764402471008A44024700049440246F0094440246E0073440246D0061440246C0044440246B006C440246A004F44024690054820246800768202467008A8202466004982024650094820246400738202463006182024620017020246100444202460010706022300107040222F0047060222D0047040222C0248C602189003D820217F0016420217E006B420217D006BC20217C00B9060217B00B9040217A00B9020217903CF8402178004D0802177004D0602176004D0402175004D020217403C30402173004D4602172004D4402171004D420217000BDC20216F009B420216E007F020216D009EC20216C01DA860216B01DA840216A01134202169035B840216800800802167008006021660080040216500800202164034C84021630080460216200804402161008042021600078040215F00D0460215E01CA060215D00AE860215C012A460215B00BB460215A011CC60215900BE460215800F5C60215701D0C60215600BA860215501C3460215400B0C6021530078080215200D7060215100C80602150015FC202149004D420214800FC820214700164202146009B420214504E44202140063E820213F063CC20213E055E020213D043D820213C0125C60213B004D4202139032D020213802A8820213703B4820213602AF020213500A2420213400BDC2021330125C20213100D1C20213000FC820212F007F020212D00BC420212C00F5420212800F542021240383840212201724602121030604021200122420211D0122420211C0122420211B00CCC20211A009CC20211904208402116022F8202115006BC202113009EC20211200804202111008042021100484C20210F00FF820210E00ABC20210D00ABC20210C00ABC20210B007FC20210A03E1840210904F5420210700C8C60210600A1C60210502568402103007F02021020153860210101988602100032E04020A80136820209C0016C20209B003D020209A0168C202099003D8202098006BC202097006B020209600FF820209504690202094
def compat2 : Nat :=
  0x6D10203149000742031480006C2031470482C203146005F4203145056AC203144046DC20314300814203142004B420314105AD820314004E6020313F044CC20313E04D0420313D0554C20313C04B8420313B053E820313A003442031390441420313800594203137048BC203136051582031350067420313404FC020313304AE020313200208203131041004030FF041E840309F038F040309C03E9840309B06C1420303A048982030390114020303804F6C2030360000C20300006E78202FD506B88202FD405044202FD304CC0202FD2059A4202FD1057F0202FD0046B4202FCF0468C202FCE04BF8202FCD05B6C202FCC0588C202FCB04720202FCA05688202FC9061E8202FC805C0C202FC704528202FC6060E8202FC506C0C202FC405368202FC306124202FC204490202FC104F94202FC0056A0202FBF061F4202FBE05F8C202FBD063BC202FBC05EEC202FBB057A4202FBA06578202FB906C88202FB804448202FB706D2C202FB604364202FB5059B0202FB4061FC202FB304430202FB205040202FB104574202FB004960202FAF046B0202FAE058D4202FAD051F4202FAC044B4202FAB06510202FAA04F60202FA904A98202FA804D44202FA701DE8202FA604D30202FA505B5C202FA405868202FA30522C202FA2068B4202FA106E8C202FA004EF4202F9F064A4202F9E0502C202F9D04BC0202F9C054BC202F9B05EC0202F9A068F8202F9905080202F9804BB4202F9704A54202F9605B20202F9506AB0202F94054F0202F9305B40202F9206D8C202F9105230202F9005D24202F8F066BC202F8E055C0202F8D04B64202F8C04AE4202F8B046CC202F8A043E8202F89056A4202F88053B0202F87064AC202F8606B84202F8500E34202F8401644202F8305B94202F8204BE4202F81044F8202F80050AC202F7F066D0202F7E048F0202F7D04A64202F7C049A8202F7B04BA0202F7A049C0202F79051FC202F78065AC202F7704394202F7606DD0202F7506A40202F7404B6C202F730469C202F7205450202F7105A28202F700685C202F6F06580202F6E069A8202F6D06404202F6C068F0202F6B065FC202F6A0698C202F6906DE0202F6805310202F6705730202F66047F8202F6505444202F6405744202F6305B74202F62054FC202F610606C202F6006620202F5F06BDC202F5E059CC202F5D06AEC202F5C06974202F5B05540202F5A04FB4202F5904CE0202F58052AC202F5705C58202F5601428202F5501650202F540644C202F53069D0202F520624C202F5106634202F5004F80202F4F06334202F4E0570C202F4D06244202F4C062D4202F4B016F8202F4A009A8202F49052E8202F48009DC202F470621C202F4605A60202F45066C4202F440669C202F4306DC0202F42051D8202F410575C202F4005F50202F3F06BE0202F3E06830202F3D06E3C202F3C05DA4202F3B06320202F3A04694202F3906D60202F3804E04202F3704DF0202F3605954202F35049C4202F3404F40202F3305BD8202F3205628202F3106838202F3005FDC202F2F06AF8202F2E06290202F2D06954202F2C0605C202F2B04944202F2A05748202F2906274202F2806C28202F27054C8202F2605088202F2503320202F2406200202F23049B8202F2204418202F210616C202F20020D0202F1F04A00202F1E058DC202F1D06104202F1C04CD8202F1B04568202F1A04EB4202F190611C202F1801140202F1705298202F16061DC202F1506748202F1404C00202F1305D70202F1204FE4202F1105184202F1005DE0202F0F05E9C202F0E06B10202F0D05570202F0C01254202F0B05C7C202F0A04C50202F0906650202F0804C9C202F07009FC202F0606738202F05052F4202F04064FC202F0306794202F0204454202F0101D4C202F000648C202EF30510C202E9F05508202D6F00800202C7D015FC202C7C02480602A7602480402A7501208602A74
def compat3 : Nat :=
  0x33104032B602CD04032B5034E84032B403AE84032B3040584032B2039B04032B105DC42032B001D702032AF01C682032AE01BFC2032AD014702032AC015B42032AB04EA82032AA04B502032A9052002032A8069AC2032A705D642032A6051042032A5065A42032A4033242032A3064202032A2022802032A105C742032A005A2420329F04AA020329E06B2420329D06C5020329C0508820329B043E020329A0606420329900CE4203298013202032970108C203296023A0203295019BC203294003EC20329301158203292003E0203291009DC203290020D020328F01DE820328E016F820328D0165020328C0142820328B009A820328A0114020328901BD82032880125420328701680203286010A420328501A7C20328400FD820328300F00203282009FC20328101D4C2032800407840327E0033080327D001FCA0327C0058440327B0046440327A007B4403279003A4403278001FC403277008E4403276008B4403275005F440327400814403273004B440327200344403271005944032700067440326F0066440326E0013820326D0046420326C007B420326B003A420326A001FC203269000742032680006C203267005F420326600814203265004B42032640034420326300594203262006742032610020820326003F6840325F038B040325E03E4840325D037A840325C016B840325B00F8040325A01F4C403259017D84032580218C40325700AD040325601418403255009E040325401DC040325301868403252010D040325101754603250066F020324706DC0203246050B02032450506820324400E30603243016406032420227C603241019AC60324001D6C60323F01C6460323E01BF860323D0146C60323C015B060323B01E2C60323A01BE060323900CE06032380131C603237010886032360239C603235019B86032340179C603233011546032320182C60323101B80603230020CC60322F01DE460322E016F460322D0164C60322C0142460322B009A460322A0113C60322901BD4603228012506032270167C603226010A060322501A7860322400FD4603223024A460322200EA860322101D486032200012CC0321E00068E0321D005E080321C0058080321B0046080321A007B0803219003A080321800500803217008E0803216008B0803215005F080321400810803213004B080321200340803211005908032100067080320F0066080320E00A8860320D01E3860320C00C5060320B0202460320A01AB460320900B6060320801550603207023CC60320600A6460320500F14603204022D0603203024F8603202012F8603201021686032000665020319F06A2020319E05DD820319D0684820319C054B820319B052F420319A0494020319905D6420319805104203197065A420319600FD820319500F00203194009FC20319301D4C203192052B820318E059C420318D064DC20318C0637420318B06BD420318A04294203189049C820318806BB4203187061582031860699420318505FC820318405374203183049AC2031820613C2031810669420318006AB820317F04A4420317E0477420317D04E3420317C056D420317B04CDC20317A0551C20317905DD020317805C7820317705AFC203176058242031750609820317405F2C20317305DC02031720660C203171061802031700600420316F05C5420316E05D2C20316D05BBC20316C058E820316B05E5820316A0437020316906C5C203168062AC2031670607C203166068D020316505D1C2031640507C2031630033C20316204F282031610579420316004DAC20315F0561020315E04C3420315D0013C20315C04AD020315B0534020315A05BCC20315905204203158000702031570505C203156058FC20315504EFC2031540007820315305FF8203152055F020315105E682031500020020314F0013820314E0046420314D007B420314C003A420314B001FC20314A
def compat4 : Nat :=
  0x30F84033B603B204033B5038A84033B402F304033B302C884033B202A104033B1027A04033B00015CC033AF0015CA033AE0015C6033AD016046033AC021386033AB009C86033AA009CC4033A9009308033A8009306033A701D906033A6010444033A5010406033A4013F46033A3022DC6033A2015844033A1015806033A00191C60339F01D9040339E0104040339D013F440339C0293840339B0272040339A037C0403399033D840339802F90403397031B840339602F4040339501D00603394014CC60339301E5C6033920133460339101338403390007F840338F0356040338E032E840338D0419840338C03F8840338B03D6840338A006B0803389006B460338803598403387027404033860417040338502D4040338402AC840338302800403382025B8403381040F8403380003E080337F02A2840337E0332040337D02A3040337C0289040337B03A9840337A0154460337901A906033780154440337702CD8403376030C040337501BBC603374040304033730307040337200FF8603371009E060337001DC060336F0186860336E010D060336D01A4860336C0173060336B00FEC60336A0098060336901D78603368017E460336701FE8603366019E8603365011FC60336400B3C603363020906033620173440336100FF04033600098440335F01D7C40335E017E840335D009E440335C019EC40335B0120040335A00B4040335901A4C403358002A460335700084C033560309040335500210A0335400970803353030F04033520082080335101490603350021EC60334F008C080334E000EC80334D00274A0334C0027460334B000FCC0334A000FC40334900630803348001E8A03347015BC60334601EA460334500D34603344006A080334300B84603342023D860334100238A0334002A6840333F0053080333E00288A0333D0068080333C0024CA0333B0096080333A014C0603339005508033380245060333700260A0333601A246033350009CC03334003F0803333000B4C033320150860333101FF4603330004A080332F00114C0332E00224A0332D005B080332C000CCC0332B0238460332A00B4860332903448403328001CC40332700A3460332600C2060332500690803324000D860332302150603322001D4A03321002B0A033200091080331F0035080331E0122C60331D00EC060331C003B080331B00144C0331A001BCC03319001948033180029CA03317000E4C033160018CC03315000E440331400174C03313008F0803312005A0803311005608033100086080330F0071080330E0032080330D0065080330C01B9860330B020D860330A00E84603309006E0803308001A4C03307014E460330600FBC603305002ECA0330400B6C603303002C4A0330200900803301002D8A03300025484032FF032A02032FE02A702032FD035502032FC002A42032FB000E82032FA000842032F9000B02032F8001002032F7000BC2032F6060382032F5014902032F4008C02032F305BE02032F2000EC2032F1001A02032F0000FC2032EF001E82032EE002382032ED0024C2032EC0009C2032EB001142032EA000CC2032E900B482032E8003BC2032E7045082032E6002F02032E5012342032E40008C2032E300C202032E2005BC2032E1002B82032E0001802032DF024582032DE000D82032DD001202032DC000A82032DB002B02032DA003502032D9000902032D8001442032D7000E42032D6002782032D500E842032D4001A42032D3014E42032D2001542032D10011C2032D001AA86032CF025E84032CE018086032CD041304032CC012EC6032CB017846032CA0215C6032C9025584032C803B184032C7027B04032C602D104032C5037084032C402F384032C3039604032C2012F04032C1017884032C0034784032BF02A904032BE030804032BD029804032BC02F784032BB028B04032BA02EC04032B9033D04032B802DD04032B7
def compat5 : Nat :=
  0x1DCC60FC0301C1C60FC0200CD460FC01011D860FC00007C420FBFF007C420FBFE007C420FBFD007C420FBFC01DCC60FBFB01DCC60FBFA01DCC60FBF9018B060FBF8018B060FBF7018B060FBF60205460FBF50205460FBF401F8860FBF301F8860FBF201A6060FBF101A6060FBF00235460FBEF0235460FBEE0151460FBED0151460FBEC015C860FBEB015C860FBEA0000820FBE90000820FBE8018B820FBE7018B820FBE6018B820FBE5018B820FBE40540420FBE30540420FBE2063C020FBE1063C020FBE00558820FBDF0558820FBDE0322840FBDD0205C20FBDC0205C20FBDB01F9020FBDA01F9020FBD901A6820FBD801A6820FBD704B4020FBD604B4020FBD504B4020FBD404B4020FBD303BC040FBB103BC040FBB001B1C20FBAF01B1C20FBAE067A820FBAD067A820FBAC067A820FBAB067A820FBAA02CA020FBA902CA020FBA802CA020FBA702CA020FBA60341840FBA50341840FBA405CA820FBA305CA820FBA205CA820FBA105CA820FBA00650420FB9F0650420FB9E0679820FB9D0679820FB9C0679820FB9B0679820FB9A0692420FB990692420FB980692420FB970692420FB960663820FB950663820FB940663820FB930663820FB920486820FB910486820FB900486820FB8F0486820FB8E05C1C20FB8D05C1C20FB8C057E420FB8B057E420FB8A05EC820FB8905EC820FB88050BC20FB87050BC20FB86061C420FB85061C420FB840595020FB830595020FB82054A820FB81054A820FB80054A820FB7F054A820FB7E05D7820FB7D05D7820FB7C05D7820FB7B05D7820FB7A0646C20FB790646C20FB780646C20FB770646C20FB7605BE820FB7505BE820FB7405BE820FB7305BE820FB7204F8420FB7104F8420FB7004F8420FB6F04F8420FB6E04E0020FB6D04E0020FB6C04E0020FB6B04E0020FB6A043B420FB69043B420FB68043B420FB67043B420FB660619820FB650619820FB640619820FB630619820FB620670C20FB610670C20FB600670C20FB5F0670C20FB5E06B5820FB5D06B5820FB5C06B5820FB5B06B5820FB5A069F020FB59069F020FB58069F020FB57069F020FB5605EA020FB5505EA020FB5405EA020FB5305EA020FB52069C020FB51069C020FB50040D840FB4F06D0020FB2903E4020FB280307820FB270586420FB26027F020FB250282020FB24038A020FB23032D020FB2202AF020FB21052E420FB20029A040FB1703D7840FB16034F040FB150323840FB14027C840FB13025C040FB06025C040FB050121460FB04016DC60FB030121840FB02016E040FB010121440FB0004E0C20AB690541C20AB5F05A7C20AB5E0430420AB5D0586C20AB5C04A5C20A7F906A4C20A7F800CCC20A7F40125C20A7F3007F020A7F205C3420A770061F020A69D046EC20A69C0200C6033FF016B86033FE00F806033FD01F4C6033FC017D86033FB0218C6033FA00AD06033F9014186033F800CB06033F7020846033F601B2C6033F5013A06033F401D306033F301A3C6033F2012746033F101C706033F0014A86033EF00F746033EE023306033ED011846033EC009D46033EB00E546033EA018446033E901A404033E8012784033E701C744033E600AD44033E500F784033E400CB44033E3011884033E2009D84033E100E584033E0017A86033DF00E906033DE027304033DD035F84033DC042184033DB026604033DA01FC46033D9003D08033D802E784033D7022A06033D600A706033D5039404033D4040804033D30110C6033D202AA04033D1041584033D002BD84033CF040A04033CE03FB04033CD026F04033CC02B804033CB03C504033CA036084033C9040004033C801C886033C7007F08033C6040C04033C5029184033C402AA84033C3008D08033C2026D84033C1026E84033C003C884033BF03C984033BE03A284033BD037684033BC035204033BB033004033BA041D84033B9041F84033B8033884033B7
def compat6 : Nat :=
  0xFA840FD030161440FD0200DBC40FD0100DF840FD000159C40FCFF0348040FCFE03A4840FCFD0398840FCFC03F3040FCFB03E0040FCFA0264840FCF9035F040FCF803BF040FCF7027D040FCF602E1040FCF501C0460FCF400A2860FCF301DFC60FCF20002C40FCF10174840FCF003DE840FCEF00ADC40FCEE0004040FCED01B8C40FCEC02CF840FCEB0395040FCEA0185C40FCE903E0840FCE8015A440FCE70318040FCE60309840FCE503C1040FCE400C4440FCE303DD840FCE203D4840FCE101CF460FCE001C1C60FCDF0002C40FCDE0174840FCDD0330840FCDC0203040FCDB018F840FCDA02F2040FCD900EE440FCD803AD040FCD703DE840FCD600ADC40FCD50271840FCD400E2440FCD300A4C40FCD200B5840FCD10102840FCD00060040FCCF0004440FCCE0001840FCCD0004040FCCC00DA040FCCB00DF440FCCA0101C40FCC901B8C40FCC802CF840FCC702EB840FCC6033C840FCC502DC840FCC400ECC40FCC303E3840FCC20251040FCC10117840FCC00361840FCBF03C3840FCBE00D5840FCBD0372840FCBC0039840FCBB011E440FCBA026D040FCB9038B840FCB8035E840FCB7012D440FCB60140040FCB502BA040FCB4014D840FCB30354040FCB200E3C40FCB1015A440FCB000FA440FCAF0176040FCAE00C9840FCAD00DA440FCAC0199840FCAB0060440FCAA0176440FCA900A5040FCA800C9C40FCA70309840FCA603C1040FCA500C4440FCA40173C40FCA3013AC40FCA200BCC40FCA103DD840FCA003D4840FC9F020FC40FC9E0194C40FC9D0329840FC9C01CF460FC9B01C1C60FC9A012E060FC9900CD460FC98011D860FC9700ED440FC9602DE840FC95023B040FC940174840FC93034D840FC9203AD840FC9103D3040FC900396840FC8F03F1040FC8E0263840FC8D00ADC40FC8C0290840FC8B02F0840FC8A00B5840FC8903F5040FC880002840FC870000440FC860004040FC850408840FC84028C840FC8301B8C40FC8202CF840FC810315840FC8002DF040FC7F0333840FC7E0253840FC7D02B7840FC7C02D0840FC7B0328040FC7A02AD840FC790309840FC78039C840FC770331840FC76036F840FC7503CE040FC740350840FC7300C4440FC72026C040FC7102CC040FC700395840FC6F03EF040FC6E0263040FC6D03D4840FC6C0290040FC6B007E840FC6A0189860FC6901DCC60FC680227060FC6701C1C60FC66024C860FC6500ED860FC640119C60FC6300EF060FC62022B860FC6100B7860FC600155C60FC5F00DD060FC5E03D3040FC5D0292040FC5C03E5040FC5B00ED440FC5A02DE840FC590174840FC580330840FC570203040FC56018F840FC550416840FC54029A840FC5300EE440FC5203AD040FC510396840FC5003F1040FC4F00ADC40FC4E0271840FC4D00E2440FC4C00A4C40FC4B00D5C40FC4A00AE040FC4900B5840FC480102840FC470060040FC460004440FC450002840FC440000440FC430004040FC4200DA040FC4100DF440FC400101C40FC3F0408840FC3E028C840FC3D01B8C40FC3C02CF840FC3B02EB840FC3A033C840FC3902DC840FC380315840FC3702DF040FC360333840FC3500ECC40FC3403E3840FC330253840FC3202B7840FC310251040FC300117840FC2F0361840FC2E03C3840FC2D00D5840FC2C0372840FC2B0039840FC2A011E440FC29026D040FC2800B5440FC27038B840FC26035E840FC25012D440FC240140040FC2302BA040FC22014D840FC2100E3C40FC20015A440FC1F00FA440FC1E0176040FC1D00C9840FC1C00DA440FC1B0362840FC1A0199840FC190060440FC180176440FC1700A5040FC1600C9C40FC1502D0840FC140328040FC130309840FC12036C040FC11036F840FC1003CE040FC0F00C4440FC0E0173C40FC0D013AC40FC0C00BCC40FC0B0395840FC0A03EF040FC0903D4840FC08020FC40FC070194C40FC060329840FC050189860FC04
def compat7 : Nat :=
  0x2E3840FE700608820FE6B04F2C20FE6A0457820FE6904FC420FE680121020FE6602A5020FE6502CE820FE6406E9420FE6306D0020FE620499820FE61046D420FE6004DB420FE5F00A0020FE5E009F820FE5D0656020FE5C0640820FE5B0008020FE5A0006820FE59057D020FE5802DF820FE5702DFC20FE560120820FE550660020FE54003D420FE5204C5C20FE51028AC20FE50048C020FE4F048C020FE4E048C020FE4D03D0040FE4C03D0040FE4B03D0040FE4A03D0040FE490478020FE480461820FE470444020FE4404C8420FE43042A020FE4204B0C20FE410524420FE400484020FE3F0537C20FE3E049CC20FE3D045B420FE3C04DE820FE3B00A0020FE3A009F820FE390656020FE380640820FE370008020FE360006820FE35048C020FE34048C020FE330605020FE32057D020FE31013DC40FE30013DC60FE19049EC20FE1806BE420FE1702DFC20FE1602DF820FE150660020FE140120820FE130565020FE1204C5C20FE11028AC20FE10007C080FDFC0004900FDFB0000240FDFA0000060FDF90003880FDF80002480FDF7005D080FDF60039080FDF50060080FDF4007E080FDF30001080FDF20247460FDF101B1460FDF00224C60FDC7015E060FDC6014D860FDC5011E460FDC401F1060FDC30194C60FDC20251060FDC101D2460FDC0019D060FDBF0104C60FDBE0167060FDBD019DC60FDBC01F1060FDBB019DC60FDBA0102860FDB90167060FDB801B8C60FDB70177860FDB60219860FDB5012B060FDB400E2460FDB300ECC60FDB201BC860FDB10174860FDB0018F860FDAF0203060FDAE0206060FDAD0221C60FDAC0140060FDAB01D9C60FDAA00E3C60FDA900FA460FDA800C6860FDA70159860FDA60129860FDA500C4460FDA4022AC60FDA301CC460FDA20173C60FDA100DB860FDA00242060FD9F020FC60FD9E01B4460FD9D01B4460FD9C00ADC60FD9B020B460FD9A01C1060FD9900A4C60FD9800A4C60FD97023B460FD96011B460FD9500EE460FD9401FD060FD9300BFC60FD92023C060FD8F0199460FD8E0203C60FD8D0116C60FD8C024BC60FD8B0060060FD8A01E2060FD89024EC60FD88024EC60FD8700DA060FD8600DA060FD850101C60FD840101C60FD830237860FD8200DF460FD810219860FD800223460FD7F012B060FD7E0117860FD7D0117860FD7C022C460FD7B00D5860FD7A0110060FD7901CDC60FD7801B5060FD7701B5060FD76011E460FD75023A860FD7400B5460FD73017C060FD72017C060FD71012D460FD70012D460FD6F0193460FD6E0185C60FD6D0185C60FD6C01F1C60FD6B01F1C60FD6A0161060FD690212060FD680212060FD67014D860FD6601E0860FD6501E0860FD64024D460FD63024D460FD6201AC060FD61015A460FD60015A460FD5F01DB460FD5E00C9860FD5D0176060FD5C011F060FD5B0188C60FD5A011E860FD59011E860FD580119060FD57016D060FD5601C2860FD5501B3860FD54013AC60FD530196460FD520196460FD5100BCC60FD500388040FD3D0388040FD3C026D040FD3B00B5440FD3A02F0040FD3901D9C40FD380161040FD3700FA440FD360176040FD3500C9840FD3400B5440FD330395040FD3203E0840FD310185C40FD3002F0040FD2F01D9C40FD2E0161040FD2D0278840FD2C03D2840FD2B02F1040FD2A029E840FD290185C40FD2802F0040FD2701D9C40FD260161040FD250326840FD24037E040FD2302A4040FD220302040FD210102C40FD2000FA840FD1F0161440FD1E00DBC40FD1D00DF840FD1C0159C40FD1B0348040FD1A03A4840FD190398840FD1803F3040FD1703E0040FD160264840FD15035F040FD1403BF040FD13027D040FD1202E1040FD110278840FD1003D2840FD0F02F1040FD0E029E840FD0D0185C40FD0C02F0040FD0B01D9C40FD0A0161040FD090326840FD08037E040FD0702A4040FD060302040FD050102C40FD04
def compat8 : Nat :=
  0x27820FF7600E8420FF75001A420FF74014E420FF730015420FF720011C20FF71000D420FF70000A420FF6F001F420FF6E008F420FF6D065B420FF6C014E820FF6B000AC20FF6A0693020FF69003F420FF68000B820FF67032A020FF660527020FF6504C5C20FF64042A020FF6304B0C20FF620565020FF610503420FF60058E020FF5F05D1820FF5E0656020FF5D05BA420FF5C0640820FF5B00E7020FF5A00AB020FF5900B9020FF58018E420FF57004D020FF5600A1020FF550136820FF540016C20FF530015C20FF5201A1C20FF51003D020FF5000A2420FF4F0168C20FF4E003D820FF4D006BC20FF4C006B020FF4B015FC20FF4A004D420FF4900FF820FF48007FC20FF4700AC820FF4600FC820FF450016420FF44006B420FF4301B2420FF420016020FF4106C3420FF40048C020FF3F0515C20FF3E0478020FF3D04FC420FF3C0461820FF3B00F5420FF3A0231020FF390113420FF380099C20FF370080020FF3600A7C20FF350172420FF340138820FF330122420FF3200CCC20FF31009CC20FF30009BC20FF2F022F820FF2E00BDC20FF2D009EC20FF2C00E1020FF2B017B820FF2A0080420FF2900ABC20FF28014CC20FF270125C20FF2600D1C20FF25009B420FF24007F020FF2300BC420FF2200AF420FF210608820FF2002DFC20FF1F02A5020FF1E0121020FF1D02CE820FF1C0660020FF1B0120820FF1A0054820FF190076820FF18008A820FF170049820FF160094820FF150073820FF140061820FF130017020FF120044420FF11004F820FF1000A2020FF0F003D420FF0E06E9420FF0D028AC20FF0C06D0020FF0B0499820FF0A0008020FF090006820FF0806A2820FF07046D420FF0604F2C20FF050457820FF0404DB420FF03043F420FF0202DF820FF010005840FEFC0005840FEFB0201860FEFA0201860FEF900A5860FEF800A5860FEF701F6460FEF601F6460FEF50002C20FEF40002C20FEF30002C20FEF20002C20FEF10000820FEF00000820FEEF0003820FEEE0003820FEED0001C20FEEC0001C20FEEB0001C20FEEA0001C20FEE900A4C20FEE800A4C20FEE700A4C20FEE600A4C20FEE50004420FEE40004420FEE30004420FEE20004420FEE10000420FEE00000420FEDF0000420FEDE0000420FEDD007E420FEDC007E420FEDB007E420FEDA007E420FED900ECC20FED800ECC20FED700ECC20FED600ECC20FED50117820FED40117820FED30117820FED20117820FED100D5820FED000D5820FECF00D5820FECE00D5820FECD0002420FECC0002420FECB0002420FECA0002420FEC9026D020FEC8026D020FEC7026D020FEC6026D020FEC500B5420FEC400B5420FEC300B5420FEC200B5420FEC1012D420FEC0012D420FEBF012D420FEBE012D420FEBD0000020FEBC0000020FEBB0000020FEBA0000020FEB90161020FEB80161020FEB70161020FEB60161020FEB50003C20FEB40003C20FEB30003C20FEB20003C20FEB1024D020FEB0024D020FEAF005D020FEAE005D020FEAD03E5020FEAC03E5020FEAB0060C20FEAA0060C20FEA900C0420FEA800C0420FEA700C0420FEA600C0420FEA50060420FEA40060420FEA30060420FEA20060420FEA10004820FEA00004820FE9F0004820FE9E0004820FE9D02AD820FE9C02AD820FE9B02AD820FE9A02AD820FE9900BCC20FE9800BCC20FE9700BCC20FE9600BCC20FE9504C9820FE9404C9820FE93007E820FE92007E820FE91007E820FE90007E820FE8F0001020FE8E0001020FE8D00CD440FE8C00CD440FE8B00CD440FE8A00CD440FE890201C40FE880201C40FE8702FE840FE8602FE840FE8500A5C40FE8400A5C40FE8301F6840FE8201F6840FE810470420FE800409840FE7F02B4040FE7E03A0040FE7D0119C40FE7C01C0440FE7B00EF040FE7A00A2840FE79022B840FE7801DFC40FE7700B7840FE760155C40FE7400DD040FE72025F840FE71
def compat9 : Nat :=
  0x3D021D45D00A2421D45C0168C21D45B003D821D45A006BC21D459006B021D458015FC21D457004D421D456007FC21D45400AC821D45300FC821D4520016421D451006B421D45001B2421D44F0016021D44E00F5421D44D0231021D44C0113421D44B0099C21D44A0080021D44900A7C21D4480172421D4470138821D4460122421D44500CCC21D444009CC21D443009BC21D442022F821D44100BDC21D440009EC21D43F00E1021D43E017B821D43D0080421D43C00ABC21D43B014CC21D43A0125C21D43900D1C21D438009B421D437007F021D43600BC421D43500AF421D43400E7021D43300AB021D43200B9021D431018E421D430004D021D42F00A1021D42E0136821D42D0016C21D42C0015C21D42B01A1C21D42A003D021D42900A2421D4280168C21D427003D821D426006BC21D425006B021D424015FC21D423004D421D42200FF821D421007FC21D42000AC821D41F00FC821D41E0016421D41D006B421D41C01B2421D41B0016021D41A00F5421D4190231021D4180113421D4170099C21D4160080021D41500A7C21D4140172421D4130138821D4120122421D41100CCC21D410009CC21D40F009BC21D40E022F821D40D00BDC21D40C009EC21D40B00E1021D40A017B821D4090080421D40800ABC21D407014CC21D4060125C21D40500D1C21D404009B421D403007F021D40200BC421D40100AF421D400056842107BA05A8C2107B9055642107B805E0C2107B7053F02107B60663C2107B506D982107B4063A82107B30690C2107B2044582107B0053A82107AF067B82107AE047F02107AD05E082107AC05F742107AB04DF42107AA04C902107A9054E82107A806B902107A705C242107A601A1C2107A5050C42107A40595C2107A303E902107A206A142107A1045D82107A00602C21079F065C421079E0449C21079D0687821079C0647C21079B0587021079A060EC210799050F821079806A042107970692C2107960484C210795045F021079406E50210793043CC21079205EA82107910570821079006CBC21078F0683C21078E0478C21078D0451C21078C066E821078B05CB421078A06660210789069D82107880651421078706E182107850448021078402950210783068502107820452C2107810696420FFEE05F2020FFED053D020FFEC03B7020FFEB052A820FFEA02B7020FFE9046AC20FFE80475820FFE604AF420FFE50428C20FFE40424040FFE3046FC20FFE2049B420FFE106BB020FFE00507C20FFDC0033C20FFDB04F2820FFDA0579420FFD704DAC20FFD60561020FFD504C3420FFD40013C20FFD304AD020FFD20534020FFCF05BCC20FFCE0520420FFCD0007020FFCC0505C20FFCB058FC20FFCA04EFC20FFC70007820FFC605FF820FFC5055F020FFC405E6820FFC30020020FFC20013820FFBE0046420FFBD007B420FFBC003A420FFBB001FC20FFBA06D1020FFB90007420FFB80006C20FFB70482C20FFB6005F420FFB5056AC20FFB4046DC20FFB30081420FFB2004B420FFB105AD820FFB004E6020FFAF044CC20FFAE04D0420FFAD0554C20FFAC04B8420FFAB053E820FFAA0034420FFA90441420FFA80059420FFA7048BC20FFA60515820FFA50067420FFA404FC020FFA304AE020FFA20020820FFA105D1C20FFA0000D020FF9F0009420FF9E0008820FF9D002A420FF9C000E820FF9B0008420FF9A000B020FF990010020FF98000BC20FF970603820FF960149020FF95008C020FF9405BE020FF93000EC20FF92001A020FF91000FC20FF90001E820FF8F0023820FF8E0024C20FF8D0009C20FF8C0011420FF8B000CC20FF8A00B4820FF89003BC20FF880450820FF87002F020FF860123420FF850008C20FF8400C2020FF83005BC20FF82002B820FF810018020FF800245820FF7F000D820FF7E0012020FF7D000A820FF7C002B020FF7B0035020FF7A0009020FF790014420FF78000E420FF77
def compat10 : Nat :=
  0x80421D57400ABC21D573014CC21D5720125C21D57100D1C21D570009B421D56F007F021D56E00BC421D56D00AF421D56C00E7021D56B00AB021D56A00B9021D569018E421D568004D021D56700A1021D5660136821D5650016C21D5640015C21D56301A1C21D562003D021D56100A2421D5600168C21D55F003D821D55E006BC21D55D006B021D55C015FC21D55B004D421D55A00FF821D559007FC21D55800AC821D55700FC821D5560016421D555006B421D55401B2421D5530016021D5520231021D5500113421D54F0099C21D54E0080021D54D00A7C21D54C0172421D54B0138821D54A009BC21D54600BDC21D544009EC21D54300E1021D542017B821D5410080421D540014CC21D53E0125C21D53D00D1C21D53C009B421D53B00BC421D53900AF421D53800E7021D53700AB021D53600B9021D535018E421D534004D021D53300A1021D5320136821D5310016C21D5300015C21D52F01A1C21D52E003D021D52D00A2421D52C0168C21D52B003D821D52A006BC21D529006B021D528015FC21D527004D421D52600FF821D525007FC21D52400AC821D52300FC821D5220016421D521006B421D52001B2421D51F0016021D51E0231021D51C0113421D51B0099C21D51A0080021D51900A7C21D5180172421D5170138821D51600CCC21D514009CC21D513009BC21D512022F821D51100BDC21D510009EC21D50F00E1021D50E017B821D50D014CC21D50A0125C21D50900D1C21D508009B421D50700BC421D50500AF421D50400E7021D50300AB021D50200B9021D501018E421D500004D021D4FF00A1021D4FE0136821D4FD0016C21D4FC0015C21D4FB01A1C21D4FA003D021D4F900A2421D4F80168C21D4F7003D821D4F6006BC21D4F5006B021D4F4015FC21D4F3004D421D4F200FF821D4F1007FC21D4F000AC821D4EF00FC821D4EE0016421D4ED006B421D4EC01B2421D4EB0016021D4EA00F5421D4E90231021D4E80113421D4E70099C21D4E60080021D4E500A7C21D4E40172421D4E30138821D4E20122421D4E100CCC21D4E0009CC21D4DF009BC21D4DE022F821D4DD00BDC21D4DC009EC21D4DB00E1021D4DA017B821D4D90080421D4D800ABC21D4D7014CC21D4D60125C21D4D500D1C21D4D4009B421D4D3007F021D4D200BC421D4D100AF421D4D000E7021D4CF00AB021D4CE00B9021D4CD018E421D4CC004D021D4CB00A1021D4CA0136821D4C90016C21D4C80015C21D4C701A1C21D4C6003D021D4C50168C21D4C3003D821D4C2006BC21D4C1006B021D4C0015FC21D4BF004D421D4BE00FF821D4BD00AC821D4BB0016421D4B9006B421D4B801B2421D4B70016021D4B600F5421D4B50231021D4B40113421D4B30099C21D4B20080021D4B100A7C21D4B00172421D4AF0138821D4AE00CCC21D4AC009CC21D4AB009BC21D4AA022F821D4A900E1021D4A6017B821D4A5014CC21D4A2009B421D49F007F021D49E00AF421D49C00E7021D49B00AB021D49A00B9021D499018E421D498004D021D49700A1021D4960136821D4950016C21D4940015C21D49301A1C21D492003D021D49100A2421D4900168C21D48F003D821D48E006BC21D48D006B021D48C015FC21D48B004D421D48A00FF821D489007FC21D48800AC821D48700FC821D4860016421D485006B421D48401B2421D4830016021D48200F5421D4810231021D4800113421D47F0099C21D47E0080021D47D00A7C21D47C0172421D47B0138821D47A0122421D47900CCC21D478009CC21D477009BC21D476022F821D47500BDC21D474009EC21D47300E1021D472017B821D4710080421D47000ABC21D46F014CC21D46E0125C21D46D00D1C21D46C009B421D46B007F021D46A00BC421D46900AF421D46800E7021D46700AB021D46600B9021D465018E421D464004D021D46300A1021D4620136821D4610016C21D4600015C21D45F01A1C21D45E
def compat11 : Nat :=
  0xD1C21D674009B421D673007F021D67200BC421D67100AF421D67000E7021D66F00AB021D66E00B9021D66D018E421D66C004D021D66B00A1021D66A0136821D6690016C21D6680015C21D66701A1C21D666003D021D66500A2421D6640168C21D663003D821D662006BC21D661006B021D660015FC21D65F004D421D65E00FF821D65D007FC21D65C00AC821D65B00FC821D65A0016421D659006B421D65801B2421D6570016021D65600F5421D6550231021D6540113421D6530099C21D6520080021D65100A7C21D6500172421D64F0138821D64E0122421D64D00CCC21D64C009CC21D64B009BC21D64A022F821D64900BDC21D648009EC21D64700E1021D646017B821D6450080421D64400ABC21D643014CC21D6420125C21D64100D1C21D640009B421D63F007F021D63E00BC421D63D00AF421D63C00E7021D63B00AB021D63A00B9021D639018E421D638004D021D63700A1021D6360136821D6350016C21D6340015C21D63301A1C21D632003D021D63100A2421D6300168C21D62F003D821D62E006BC21D62D006B021D62C015FC21D62B004D421D62A00FF821D629007FC21D62800AC821D62700FC821D6260016421D625006B421D62401B2421D6230016021D62200F5421D6210231021D6200113421D61F0099C21D61E0080021D61D00A7C21D61C0172421D61B0138821D61A0122421D61900CCC21D618009CC21D617009BC21D616022F821D61500BDC21D614009EC21D61300E1021D612017B821D6110080421D61000ABC21D60F014CC21D60E0125C21D60D00D1C21D60C009B421D60B007F021D60A00BC421D60900AF421D60800E7021D60700AB021D60600B9021D605018E421D604004D021D60300A1021D6020136821D6010016C21D6000015C21D5FF01A1C21D5FE003D021D5FD00A2421D5FC0168C21D5FB003D821D5FA006BC21D5F9006B021D5F8015FC21D5F7004D421D5F600FF821D5F5007FC21D5F400AC821D5F300FC821D5F20016421D5F1006B421D5F001B2421D5EF0016021D5EE00F5421D5ED0231021D5EC0113421D5EB0099C21D5EA0080021D5E900A7C21D5E80172421D5E70138821D5E60122421D5E500CCC21D5E4009CC21D5E3009BC21D5E2022F821D5E100BDC21D5E0009EC21D5DF00E1021D5DE017B821D5DD0080421D5DC00ABC21D5DB014CC21D5DA0125C21D5D900D1C21D5D8009B421D5D7007F021D5D600BC421D5D500AF421D5D400E7021D5D300AB021D5D200B9021D5D1018E421D5D0004D021D5CF00A1021D5CE0136821D5CD0016C21D5CC0015C21D5CB01A1C21D5CA003D021D5C900A2421D5C80168C21D5C7003D821D5C6006BC21D5C5006B021D5C4015FC21D5C3004D421D5C200FF821D5C1007FC21D5C000AC821D5BF00FC821D5BE0016421D5BD006B421D5BC01B2421D5BB0016021D5BA00F5421D5B90231021D5B80113421D5B70099C21D5B60080021D5B500A7C21D5B40172421D5B30138821D5B20122421D5B100CCC21D5B0009CC21D5AF009BC21D5AE022F821D5AD00BDC21D5AC009EC21D5AB00E1021D5AA017B821D5A90080421D5A800ABC21D5A7014CC21D5A60125C21D5A500D1C21D5A4009B421D5A3007F021D5A200BC421D5A100AF421D5A000E7021D59F00AB021D59E00B9021D59D018E421D59C004D021D59B00A1021D59A0136821D5990016C21D5980015C21D59701A1C21D596003D021D59500A2421D5940168C21D593003D821D592006BC21D591006B021D590015FC21D58F004D421D58E00FF821D58D007FC21D58C00AC821D58B00FC821D58A0016421D589006B421D58801B2421D5870016021D58600F5421D5850231021D5840113421D5830099C21D5820080021D58100A7C21D5800172421D57F0138821D57E0122421D57D00CCC21D57C009CC21D57B009BC21D57A022F821D57900BDC21D578009EC21D57700E1021D576017B821D575
def compat12 : Nat :=
  0x41021D77604EDC21D77500EB421D77404D7421D773055E021D77204C0821D7710031021D770059C021D76F0037021D76E0573C21D76D05FB021D76C055B821D76B00FE021D76A0542421D76905CF821D76805E2C21D7670258021D766063E821D76500D2821D764062A021D763058A021D7620611421D7610695821D76005F9821D75F00B1821D75E05E2C21D75D0030021D75C0433821D75B00F9821D75A06DBC21D759063CC21D75806C3021D757003C021D756043D821D75503A5821D7540482021D753051EC21D7520504821D75100EB421D75005F3821D74F0045021D74E0497C21D74D06B8C21D74C0482021D74B00D4021D74A046C421D74904F0421D7480455C21D74703A5821D746043D821D74500C3821D74406E6021D74304ABC21D7420280021D7410493C21D740051EC21D73F012C821D73E0504821D73D0041021D73C04EDC21D73B00EB421D73A04D7421D739055E021D73804C0821D7370031021D736059C021D7350037021D7340573C21D73305FB021D732055B821D73100FE021D7300542421D72F05CF821D72E05E2C21D72D0258021D72C063E821D72B00D2821D72A062A021D729058A021D7280611421D7270695821D72605F9821D72500B1821D72405E2C21D7230030021D7220433821D72100F9821D72006DBC21D71F063CC21D71E06C3021D71D003C021D71C043D821D71B03A5821D71A0482021D719051EC21D7180504821D71700EB421D71605F3821D7150045021D7140497C21D71306B8C21D7120482021D71100D4021D710046C421D70F04F0421D70E0455C21D70D03A5821D70C043D821D70B00C3821D70A06E6021D70904ABC21D7080280021D7070493C21D706051EC21D705012C821D7040504821D7030041021D70204EDC21D70100EB421D70004D7421D6FF055E021D6FE04C0821D6FD0031021D6FC059C021D6FB0037021D6FA0573C21D6F905FB021D6F8055B821D6F700FE021D6F60542421D6F505CF821D6F405E2C21D6F30258021D6F2063E821D6F100D2821D6F0062A021D6EF058A021D6EE0611421D6ED0695821D6EC05F9821D6EB00B1821D6EA05E2C21D6E90030021D6E80433821D6E700F9821D6E606DBC21D6E5063CC21D6E406C3021D6E3003C021D6E2043D821D6E103A5821D6E00482021D6DF051EC21D6DE0504821D6DD00EB421D6DC05F3821D6DB0045021D6DA0497C21D6D906B8C21D6D80482021D6D700D4021D6D6046C421D6D504F0421D6D40455C21D6D303A5821D6D2043D821D6D100C3821D6D006E6021D6CF04ABC21D6CE0280021D6CD0493C21D6CC051EC21D6CB012C821D6CA0504821D6C90041021D6C804EDC21D6C700EB421D6C604D7421D6C5055E021D6C404C0821D6C30031021D6C2059C021D6C10037021D6C00573C21D6BF05FB021D6BE055B821D6BD00FE021D6BC0542421D6BB05CF821D6BA05E2C21D6B90258021D6B8063E821D6B700D2821D6B6062A021D6B5058A021D6B40611421D6B30695821D6B205F9821D6B100B1821D6B005E2C21D6AF0030021D6AE0433821D6AD00F9821D6AC06DBC21D6AB063CC21D6AA06C3021D6A9003C021D6A8052DC21D6A5068F421D6A400E7021D6A300AB021D6A200B9021D6A1018E421D6A0004D021D69F00A1021D69E0136821D69D0016C21D69C0015C21D69B01A1C21D69A003D021D69900A2421D6980168C21D697003D821D696006BC21D695006B021D694015FC21D693004D421D69200FF821D691007FC21D69000AC821D68F00FC821D68E0016421D68D006B421D68C01B2421D68B0016021D68A00F5421D6890231021D6880113421D6870099C21D6860080021D68500A7C21D6840172421D6830138821D6820122421D68100CCC21D680009CC21D67F009BC21D67E022F821D67D00BDC21D67C009EC21D67B00E1021D67A017B821D6790080421D67800ABC21D677014CC21D6760125C21D675
def compat13 : Nat :=
  0x21EE510002421EE4F0003C21EE4E00A4C21EE4D0000421EE4B0002C21EE490060421EE470004821EE4200D5821EE3B012D421EE3900C0421EE3702AD821EE3600BCC21EE350161021EE3400ECC21EE320000021EE310117821EE300002421EE2F0003C21EE2E00A4C21EE2D0004421EE2C0000421EE2B007E421EE2A0002C21EE290060421EE270001C21EE240004821EE22007E821EE210683421EE1F042CC21EE1E0650421EE1D0450C21EE1C00D5821EE1B026D021EE1A012D421EE1903E5021EE1800C0421EE1702AD821EE1600BCC21EE150161021EE14005D021EE1300ECC21EE120000021EE110117821EE100002421EE0F0003C21EE0E00A4C21EE0D0004421EE0C0000421EE0B007E421EE0A0002C21EE0900B5421EE080060421EE07024D021EE060003821EE050060C21EE030004821EE02007E821EE010001021EE0004C4421E06D047BC21E06C0481C21E06B053B821E06A05F0C21E06903A3021E06806C5821E06703A0821E066046EC21E0650459C21E06403AA021E0630442021E062065E821E06106E8821E06002D9021E05F0498821E05E0482821E05D038C021E05C0457021E05B03AF021E05A0271021E0590321021E05802B5021E05702CB021E0560495C21E055028F821E0540480821E0530505421E05202CB821E051068E821E05004ADC21E04F02B5821E04E0580C21E04D03A3021E04C0343821E04B0526021E04A0635C21E049037B021E04803A0821E0470459C21E04603AA021E0450442021E044065E821E04306E8821E04202D9021E04106CF821E0400498821E03F06B9821E03E0482821E03D038C021E03C04F2421E03B0457021E03A03AF021E0390271021E0380321021E03702B5021E03602CB021E0350495C21E034028F821E0330480821E0320505421E03102CB821E0300054821D7FF0076821D7FE008A821D7FD0049821D7FC0094821D7FB0073821D7FA0061821D7F90017021D7F80044421D7F7004F821D7F60054821D7F50076821D7F4008A821D7F30049821D7F20094821D7F10073821D7F00061821D7EF0017021D7EE0044421D7ED004F821D7EC0054821D7EB0076821D7EA008A821D7E90049821D7E80094821D7E70073821D7E60061821D7E50017021D7E40044421D7E3004F821D7E20054821D7E10076821D7E0008A821D7DF0049821D7DE0094821D7DD0073821D7DC0061821D7DB0017021D7DA0044421D7D9004F821D7D80054821D7D70076821D7D6008A821D7D50049821D7D40094821D7D30073821D7D20061821D7D10017021D7D00044421D7CF004F821D7CE068C421D7CB05F0021D7CA043D821D7C903A5821D7C80482021D7C7051EC21D7C60504821D7C500EB421D7C405F3821D7C30045021D7C20497C21D7C106B8C21D7C00482021D7BF00D4021D7BE046C421D7BD04F0421D7BC0455C21D7BB03A5821D7BA043D821D7B900C3821D7B806E6021D7B704ABC21D7B60280021D7B50493C21D7B4051EC21D7B3012C821D7B20504821D7B10041021D7B004EDC21D7AF00EB421D7AE04D7421D7AD055E021D7AC04C0821D7AB0031021D7AA059C021D7A90037021D7A80573C21D7A705FB021D7A6055B821D7A500FE021D7A40542421D7A305CF821D7A205E2C21D7A10258021D7A0063E821D79F00D2821D79E062A021D79D058A021D79C0611421D79B0695821D79A05F9821D79900B1821D79805E2C21D7970030021D7960433821D79500F9821D79406DBC21D793063CC21D79206C3021D791003C021D790043D821D78F03A5821D78E0482021D78D051EC21D78C0504821D78B00EB421D78A05F3821D7890045021D7880497C21D78706B8C21D7860482021D78500D4021D784046C421D78304F0421D7820455C21D78103A5821D780043D821D77F00C3821D77E06E6021D77D04ABC21D77C0280021D77B0493C21D77A051EC21D779012C821D7780504821D777
def compat14 : Nat :=
  0x54821FBF90076821FBF8008A821FBF70049821FBF60094821FBF50073821FBF40061821FBF30017021FBF20044421FBF1004F821FBF004EF821F25106C1C21F25001BA461F24800D7C61F24701FAC61F24601D5461F2450251C61F2440176C61F243009F861F24200EFC61F24101EC861F24005B4421F23B0681821F23A0541021F23906CC821F238009A821F2370115821F2360660421F23505EF821F23404FC821F233053C421F23201D5821F231054BC21F2300564C21F22F0520021F22E0510421F22D069AC21F22C0583821F22B00F0021F22A01D4C21F22904BC421F2280523C21F22705DF421F22606DC421F22505BC021F22405F4C21F2230574421F2220589421F221062F821F22005D2821F21F06DF021F21E06D7421F21D0678821F21C067F021F21B0673021F21A05FF421F21904F8821F21805DD821F217045E021F21605C5C21F215009FC21F21400C2041F213063E421F212050F021F21105F5021F210002B021F20202C3041F20103A9041F2000274841F1900400841F16C0282841F16B02E6841F16A0371041F14F01E4461F14E0269041F14D031D841F14C041D841F14B02E8841F14A00F5421F1490231021F1480113421F1470099C21F1460080021F14500A7C21F1440172421F1430138821F1420122421F14100CCC21F140009CC21F13F009BC21F13E022F821F13D00BDC21F13C009EC21F13B00E1021F13A017B821F1390080421F13800ABC21F137014CC21F1360125C21F13500D1C21F134009B421F133007F021F13200BC421F13100AF421F1300300041F12E02AD041F12D0122421F12C007F021F12B0158C61F12A00F5061F1290230C61F1280113061F1270099861F1260134C61F1250181461F124021BC61F12301A0C61F1220122061F12100CC861F120020A861F11F00F3861F11E022F461F11D00BD861F11C015D461F11B00E0C61F11A017B461F11901C5861F11800AB861F11701E6861F116016E861F1150116061F114009B061F1130137061F11200BC061F111021E061F11002DC041F10A0427841F10902FE041F1080347041F10703ED841F106036A041F1050411841F104028A841F10303DC041F10202B2841F10101E1841F10000D5821EEBB026D021EEBA012D421EEB903E5021EEB800C0421EEB702AD821EEB600BCC21EEB50161021EEB4005D021EEB300ECC21EEB20000021EEB10117821EEB00002421EEAF0003C21EEAE00A4C21EEAD0004421EEAC0000421EEAB0002C21EEA900B5421EEA80060421EEA7024D021EEA60003821EEA50060C21EEA30004821EEA2007E821EEA100D5821EE9B026D021EE9A012D421EE9903E5021EE9800C0421EE9702AD821EE9600BCC21EE950161021EE94005D021EE9300ECC21EE920000021EE910117821EE900002421EE8F0003C21EE8E00A4C21EE8D0004421EE8C0000421EE8B0002C21EE8900B5421EE880060421EE87024D021EE860003821EE850001C21EE840060C21EE830004821EE82007E821EE810001021EE80042CC21EE7E0450C21EE7C00D5821EE7B026D021EE7A012D421EE7900C0421EE7702AD821EE7600BCC21EE750161021EE7400ECC21EE720000021EE710117821EE700002421EE6F0003C21EE6E00A4C21EE6D0004421EE6C007E421EE6A0002C21EE6900B5421EE680060421EE670001C21EE640004821EE62007E821EE610683421EE5F0650421EE5D00D5821EE5B012D421EE5900C0421EE570161021EE5400ECC21EE52

/-- Full compatibility decompositions that differ from the canonical ones. -/
def compat : List Nat := [compat0, compat1, compat2, compat3, compat4, compat5, compat6, compat7] ++
  [compat8, compat9, compat10, compat11, compat12, compat13, compat14]

def lower0 : Nat :=
  0x46C42003A404F042003A303A582003A1043D82003A000C3820039F06E6020039E04ABC20039D0280020039C0493C20039B051EC20039A012C8200399050482003980041020039704EDC20039600EB420039504D74200394055E020039304C08200392003102003910276820038F0440820038E065D820038C0531420038A04190200389051BC20038802738200386053CC20037F04874200376058102003720569420037006B2020024E0501420024C04EA420024A04D4020024804BBC2002460446820024504B2C2002440563020024305190200241057DC20023E0445020023D04D1C20023B04DD820023A06260200232060D420023005F6820022E05DFC20022C05CA020022A05B2C20022806C0020022606A802002240691C200222047182002200662C20021E064F420021C04A1020021A0486420021804728200216045C820021404460200212042C020021006D4020020E0526420020C050E820020A04F6420020804DE020020604C7820020404B0020020205C1020020005A902001FE059442001FC057B42001FA056442001F805CB82001F7049D42001F6053642001F4064602001F2064602001F1061942001EE060142001EC05E982001EA05D482001E806E2C2001E606CAC2001E406B342001E2069B82001E0068282001DE043802001DB06E042001D906C702001D706B082001D5050002001D304E882001D104D2C2001CF04BB02001CD04A682001CB04A682001CA0518C2001C80518C2001C7058742001C5058742001C405B382001BC058502001B802A802001B705F5C2001B505DEC2001B304CA82001B2042D02001B105B1C2001AF053A82001AE062402001AC047142001A9067802001A704DF42001A6042D42001A406D4C2001A206BEC2001A0061D420019F0565820019D05D8420019C04C94200198061A02001970592C2001960671820019406E50200193050CC200191047EC2001900469020018F066D420018E04C6820018B0451C20018A066E8200189049B020018704BFC2001860509820018404F3820018206E182001810549420017D0535820017B06448200179062E0200178059102001760578420017406840200172066EC2001700658420016E0642C20016C062D020016A0616820016804664200166045002001640437420016206DF820016006C6020015E06AFC20015C0698020015A04E7C20015804D2020015604BA420015404A5C200152048D42001500479820014E0585C20014C056FC20014A04B8820014705CA420014505B30200143059DC2001410584820013F056E020013D0553020013B0663020013905B0C200136059C820013406A64200132041204001300677420012E0661C20012C064E020012A063782001280484C2001260470C200124045B02001220443C2001200429820011E06D2420011C06BB820011A050B420011804F4420011604DC420011404C5420011204AE82001100499420010E05A6C20010C0591420010A0579820010805614200106054742001040534420010205208200100059002000DE061742000DD057782000DC05FFC2000DB0682C2000DA05E6C2000D903E902000D8065702000D605BAC2000D50641C2000D406C742000D3062BC2000D206B0C2000D10615C2000D0069982000CF05FCC2000CE067FC2000CD044EC2000CC066AC2000CB043582000CA065542000C906DE42000C8063F82000C7029502000C6048E02000C506AE82000C4047A82000C3069702000C2046342000C104E702000C000E7020005A00AB020005900B90200058018E4200057004D020005600A10200055013682000540016C2000530015C20005201A1C200051003D020005000A2420004F0168C20004E003D820004D006BC20004C006B020004B015FC20004A004D420004900FF8200048007FC20004700AC820004600FC820004500164200044006B420004301B2420004200160200041
def lower1 : Nat :=
  0x60202013A2068742013A1045502013A004D702010CD049142010C7047D02010C5050182010C4058C02010C304EAC2010C2057382010C104D482010C0055B42010BF04BD82010BE054202010BD05CF42010BC052FC2010BB05B702010BA051A02010B905A102010B804FF02010B70589C2010B6061102010B5057182010B405F942010B3055902010B205E282010B1054082010B005CD42010AF065282010AE05B482010AD063C42010AC059F02010AB0626C2010AA06AA42010A9060E02010A80693C2010A705F702010A6067AC2010A505E042010A4066542010A30430C2010A2065082010A106D902010A00657C20055606E0C2005550642820055406C8C20055302D9C20055206B1C20055106160200550069A420054F03D7820054E0680C20054D044F420054C066B820054B0436020054A0655C20054906DF420054804A70200547027CC200546048E8200545027C8200544047B020054304FD82005420464020054104E78200540044DC20053F04D1420053E029A420053D04B9C20053C034F420053B04A5820053A052D8200539048CC200538051742005370479020053602D982005350585420053404E58200533056F420053204D00200531046E820052E0459820052C0563C20052A0549C20052805360200526052282005240507420052204F2020052004DA820051E05E8420051C05D3C20051A05BC820051805A54200516058F42005140577420051206814200510066CC20050E0656820050C0641420050A062B82005080615020050605FC0200504044E42005020435420050006DDC2004FE06C4C2004FC06ADC2004FA069682004F804E642004F604D0C2004F404B942004F204A502004F0048C42004EE047842004EC0584C2004EA02B582004E8055342004E6053E02004E4052C42004E2051482004E004FB02004DE060A82004DC05F3C2004DA034382004D805C702004D605AF42004D4059AC2004D206A582004D005F242004CD05DB82004CB042A82004C906D302004C706BC42004C506A3C2004C3068C02004C1068E82004C00442C2004BE042882004BC06D082004BA06BA82004B80508C2004B604F342004B404DC02004B204C442004B004ADC2004AE049742004AC0481C2004AA059082004A8057802004A6056002004A4054602004A2053342004A0051E820049E062C820049C0616420049A05FD420049805E5420049605D1020049405B9820049206C5820049006AF420048E0697C20048C067E820048A047942004800462420047E044C820047C0433420047A06DB8200478052C820047603EC020047404FBC20047204E3C20047004CE820046E04B6020046C04A3420046A05B08200468059BC20046605830200464056B82004620551020046006D1C20042F0635C20042E037B020042D061F020042C03A0820042B046EC20042A068B02004290459C20042803AA020042704420200426065E820042506E8820042402D9020042306CF82004220498820042106B982004200482820041F038C020041E046D020041D04F2420041C0457020041B03AF020041A043F0200419027102004180321020041702B5020041602CB02004150495C200414028F8200413048082004120505420041102CB8200410053B820040F05C6820040E064D820040D05AE820040C0637020040B059A020040A062082004090580C2004080608420040703A3020040605F0C2004050676C20040405DAC200403065F820040205C40200401064C020040004CC42003FF055142003FE04B4C2003FD0476C2003FA04A2C2003F904E302003F7050482003F40512C2003EE04F9C2003EC04E142003EA05F282003E805DBC2003E605C502003E405AD02003E2059942003E0058042003DE068C42003DC0675C2003DA065EC2003D8064B42003CF06E7C2003AB064902003AA004502003A90497C2003A806B8C2003A7048202003A600D402003A5
def lower2 : Nat :=
  0x3028201F0A027A8201F0903D60201F0806C64201EFE06B04201EFC06984201EFA04E80201EF804D24201EF604BAC201EF404A60201EF2048DC201EF0047A0201EEE05860201EEC05704201EEA05558201EE8053EC201EE6052D0201EE405168201EE204FCC201EE0060BC201EDE05F54201EDC05DE4201EDA05C8C201ED805B14201ED6059D0201ED406A68201ED206900201ED00677C201ECE06624201ECC064E4201ECA0637C201EC806218201EC604710201EC4045B8201EC204444201EC0042A4201EBE06D28201EBC06BC0201EBA050C0201EB804F4C201EB604DC8201EB404C60201EB204AF0201EB0049A4201EAE05A78201EAC05920201EAA057A0201EA805624201EA605484201EA405350201EA205214201EA0044D4201E9E05BB4201E9406C84201E9206B18201E90069A0201E8E06808201E8C066B4201E8A06558201E8806400201E86048E4201E84047AC201E820463C201E80044D8201E7E04344201E7C06DD4201E7A052D4201E7805170201E7604FD0201E7404E54201E7204CFC201E7004B7C201E6E05C98201E6C05B24201E6A059D4201E6805840201E66056D8201E6405520201E62053D8201E60064F0201E5E0638C201E5C06228201E5A0609C201E5805F30201E5605DC8201E54042B0201E5206D3C201E5006BCC201E4E06A44201E4C068D8201E4A06768201E48065F4201E4604AFC201E44049BC201E4204834201E40046E4201E3E04594201E3C0441C201E3A05498201E380535C201E3605224201E3405070201E3204F1C201E3004DA4201E2E04C30201E2C05D38201E2A05BC4201E2805A50201E26058F0201E2405770201E22055EC201E20066C8201E1E06564201E1C06410201E1A062B4201E180614C201E1605FBC201E14044E0201E1204350201E1006DD8201E0E06C48201E0C06AD8201E0A06960201E08067E0201E0604D08201E0404B90201E0204A4C201E0004980201CBF05220201CBE04824201CBD04F18201CBA0456C201CB904D9C201CB805608201CB704C2C201CB605468201CB504AC4201CB405338201CB30494C201CB2051F8201CB105A48201CB00504C201CAF058EC201CAE04EE8201CAD05768201CAC05FE8201CAB055E4201CAA05E5C201CA905448201CA805D14201CA705318201CA605BA0201CA50640C201CA405A2C201CA3062B0201CA2058CC201CA106144201CA005750201C9F05FB4201C9E067F4201C9D05E48201C9C066A0201C9B05D00201C9A06550201C9905B78201C98063F0201C9706C44201C96062A4201C9506AC8201C9406120201C930695C201C920462C201C91067DC201C9005B4C2013F5063C82013F406C2C2013F3062702013F206AA82013F1060E42013F005E382013EF066882013EE05CE42013ED065342013EC05B582013EB063D02013EA059F82013E90627C2013E806AAC2013E7060F42013E6069442013E505F782013E4067C42013E305E142013E2066642013E1043242013E0065182013DF06DA02013DE063B02013DD06C182013DC0489C2013DB06A8C2013DA047642013D9069342013D8045FC2013D70679C2013D60448C2013D504CC82013D4042F42013D304B542013D206D702013D104A182013D006BF82013CF048802013CE0511C2013CD047402013CC04F902013CB045DC2013CA04E102013C90569C2013C804CAC2013C7055002013C604B342013C5053AC2013C4049FC2013C30527C2013C205AC02013C1051002013C0059882013BF04F782013BE057F82013BD04DF82013BC056802013BB05EFC2013BA054EC2013B905DA02013B8053942013B705C282013B6052542013B505AAC2013B4063502013B3059642013B2061E42013B1057D42013B0060542013AF068902013AE05EE42013AD067502013AC05D8C2013AB065D02013AA05C042013A9064882013A806CEC2013A7063182013A606B802013A5061A82013A406A102013A3
def lower3 : Nat :=
  0x6D64202CF204730202CED045D0202CEB04854202CE205974202CE0057E8202CDE05674202CDC054E0202CDA05384202CD80524C202CD606340202CD4061CC202CD20603C202CD005ED0202CCE05D7C202CCC05BF4202CCA06CE4202CC806B68202CC6069F8202CC406860202CC206710202CC006590202CBE06440202CBC04930202CBA047E4202CB804684202CB604514202CB404388202CB206E14202CB00530C202CAE051B8202CAC05010202CAA04E9C202CA804D38202CA604BB8202CA404A78202CA205B68202CA005A00202C9E05888202C9C05714202C9A0557C202C9805400202C9606524202C94063B8202C9206258202C90060D0202C8E05F64202C8C05DF8202C8A042F8202C8806D7C202C8606BFC202C8406A78202C8206918202C8004FE0202C7F05890202C7E06A60202C75045C0202C7204A94202C7004904202C6F05ED8202C6E06C94202C6D049E0202C6B04848202C6905968202C67054E8202C6404B5C202C6305A7C202C6205D90202C6005C08202C2F05240202C2E05A88202C2D06324202C2C05940202C2B061B4202C2A057B0202C2906028202C2805640202C2705EBC202C2606724202C2505D68202C24065A8202C2305BDC202C220645C202C2105A68202C20062FC202C1F06B4C202C1E0618C202C1D069DC202C1C0600C202C1B0684C202C1A05E90202C1906700202C18043A4202C1706588202C1606E24202C1506434202C1406CA0202C1304918202C1206B2C202C11047D4202C10069B0202C0F0466C202C0E0681C202C0D04504202C0C04D4C202C0B0437C202C0A04BDC202C0906E00202C0804A80202C0706C6C202C06048F4202C05051A4202C04047B8202C0304FF4202C0204654202C0104E84202C000500C2024CF058B82024CE061342024CD0572C2024CC05FA82024CB055A82024CA05E402024C9054182024C805CEC2024C70653C2024C605B642024C5063DC2024C4059FC2024C3062882024C2058842024C1060FC2024C0069502024BF05F802024BE067CC2024BD05E1C2024BC0666C2024BB05CC02024BA065202024B906DAC2024B8063B42024B706C202024B6052882021830580820216F0607820216E068CC20216D05F0420216C0676020216B05DA820216A065F020216905C3C202168064B820216706D0C2021660635420216506BAC202164061EC20216306A3020216206060202161068A820216005B9C202132048E020212B006B020212A0045020212606E1C201FFC066DC201FFB03358201FFA04A88201FF906C80201FF804A7C201FEC06574201FEB06E08201FEA05A04201FE904FE8201FE804900201FDB06B14201FDA060D8201FD905700201FD806920201FCC047C4201FCB02668201FCA0465C201FC904E94201FC804464201FBC044F0201FBB03750201FBA042C8201FB904B24201FB804DEC201FAF05670201FAE04C88201FAD054CC201FAC04B10201FAB05380201FAA05C18201FA905248201FA8054A4201F9F05D74201F9E05370201F9D05BE4201F9C06468201F9B05A74201F9A06308201F990591C201F9806E30201F8F06438201F8E06CB4201F8D062E8201F8C06B38201F8B06178201F8A069BC201F8904678201F8803590201F6F02E08201F6E026E0201F6D03018201F6C029C0201F6B03F20201F6A036E8201F6903088201F68056F0201F5F05548201F5D06640201F5B064F8201F59042DC201F4D064EC201F4C06D54201F4B06388201F4A06BF4201F4904858201F4804B18201F3F06D38201F3E049DC201F3D05258201F3C04844201F3B050D8201F3A04700201F3904F58201F3803488201F2F02CF0201F2E036D0201F2D03C28201F2C028C0201F2B03DE0201F2A02B60201F2903040201F280578C201F1D06008201F1C06844201F1B05E80201F1A066F8201F1905D34201F1803178201F0F03BF8201F0E03398201F0D03DD0201F0C02550201F0B
def lower4 : Nat :=
  0x6E9C21059004AEC21058F06D0421058E0499C21058D06BA421058C0508421058A046D821058904F302105880458021058704DB82105860561C21058504C3C2105840548021058304AD42105820534C210581049682105800521021057F05A5C21057E0506021057D0590421057C0577C21057A04D8C210579055F821057805E742105770545821057605D202105750532C21057405BB02105730642421057205A40210571062C421057004B742104D306DA82104D204A402104D1052C02104D0048A02104CF051442104CE047682104CD04FAC2104CC046002104CB04E282104CA056C42104C904CD02104C8055182104C704B582104C6053C82104C504A1C2104C4052A02104C305AEC2104C2051282104C1059A82104C004F982104BF058182104BE060902104BD056A82104BC05F182104BB055042104BA05DB42104B9053B42104B805C482104B7064C82104B605ACC2104B5063682104B40598C2104B3061F82104B2057FC2104B1060742104B006734210427043EC210426065B821042506E6C2104240647021042306CDC2104220495421042106B602104200480421041F069F421041E046A421041D04EF021041C0454421041B04D8821041A043BC21041904C1821041806E3421041704AA8210416053202104150492C210414051C8210413047DC210412050202104110468021041004EBC21040F0575821040E04D5C21040D055CC21040C04BE821040B0543021040A05D0C2104090530821040805B80210407051B021040605A2021040505008210404058B42104030612C2104020572421040105FA4210400050D420FF3A0596020FF39061E020FF38057CC20FF370604C20FF360565C20FF3505EE020FF34054B020FF3305D8820FF32065CC20FF3105C0020FF300648020FF2F05A8020FF2E0631420FF2D06B7820FF2C061A420FF2B06A0820FF2A0601C20FF290687020FF2805EAC20FF270671C20FF26043D020FF250659C20FF2406E5820FF230645020FF2206CC020FF21053BC20A7F506CFC20A7D806B9C20A7D60673C20A7D006B6C20A7C9069FC20A7C7067D820A7C604F7420A7C50625C20A7C4043C020A7C206E4820A7C00532420A7BE051CC20A7BC0502820A7BA04EC020A7B804D6420A7B604BF020A7B404BCC20A7B3060C420A7B2049F820A7B106A8820A7B00631020A7AE0647C20A7AD0659820A7AC06B4020A7AB0601820A7AA055AC20A7A80669020A7A60654020A7A4063E020A7A20628C20A7A00610020A79E05F8420A79C05E2020A79A0432C20A79806DB020A79606A9420A7920693820A7900686C20A78D042FC20A78B0488420A7860474C20A784045E420A7820447020A7800550C20A77E0488C20A77D04A0420A77B05AD420A77905C3420A76E05AB020A76C0596C20A76A057E020A7680566420A7660675820A764065DC20A7620649420A7600632820A75E061B820A75C0603020A75A0456020A758043DC20A75606E6420A75406CC420A75206B5020A750069E020A74E04EE020A74C04D7820A74A04C0C20A74804A9C20A7460491C20A744047D820A7420467020A7400574020A73E055BC20A73C0542820A73A0530020A738051A820A73604FF820A7340611820A73205E3020A72E05CDC20A72C05B5020A72A059F420A7280586C20A7260694020A724067B420A7220662820A69A04B3C20A69804A0820A6960486020A6940472420A692045C420A6900445C20A68E042BC20A68C0539820A68A0526020A688050E420A68604F5C20A68404DDC20A68204C7420A6800630020A66C0619020A66A0601020A66805E9420A666043A820A66406E2820A66206CA820A66006B3020A65E069B420A65C0682020A65A04D5420A65804BE020A65604A8420A654048F820A652047BC20A6500465820A64E044E820A64C0559420A64A0540C20A648052EC20A6460518820A64404FD420A64204E6C20A640
def lower5 : Nat :=
  0x48B421E9210514C21E920059D821E91F04FB821E91E0584421E91D04E3821E91C056DC21E91B04CE421E91A0552421E91905DDC21E918053DC21E91705C8021E916052B021E91505B0421E9140514021E913059B821E9120622C21E9110582C21E910060A021E90F056B421E90E05F3421E90D0677021E90C05DCC21E90B0661821E90A05C6421E909064D421E90805AE421E9070636C21E90606BD021E9050620421E90406A4821E9030608021E902068DC21E90105F0821E9000689C216E5F04584216E5E04DBC216E5D04400216E5C04C40216E5B06E74216E5A04AD8216E5906CF0216E580496C216E5705218216E5604814216E5505064216E54046C0216E5304F00216E5204558216E5104D90216E50055FC216E4F04C24216E4E0545C216E4D04AB8216E4C05330216E4B05BB8216E4A051E4216E4905A44216E480503C216E47058E4216E4604ED8216E4505760216E4405FD0216E43055DC216E4205E50216E4105440216E40060582118BF056682118BE05EE82118BD054C02118BC05D942118BB065E02118BA05C142118B9064982118B805A942118B7063302118B60594C2118B5061BC2118B406A182118B3060342118B20687C2118B105EC42118B0067282118AF05D6C2118AE065B02118AD06E682118AC064642118AB06CCC2118AA063042118A906B542118A8047FC2118A7069E82118A6046982118A5068542118A4045302118A3067042118A2043AC2118A104C102118A004AC8210CB206CD8210CB104950210CB006B5C210CAF04800210CAE05050210CAD046A0210CAC04EEC210CAB04540210CAA04D84210CA9043B8210CA804C14210CA705454210CA604AA4210CA50531C210CA404928210CA3051C4210CA205A34210CA10501C210CA0058D0210C9F04EB8210C9E05754210C9D04D58210C9C055C8210C9B05E4C210C9A0542C210C9905D08210C9805304210C9705B7C210C96051AC210C9505A1C210C94062A8210C93058B0210C9206128210C9105720210C9005FA0210C8F055A0210C8E05E3C210C8D0668C210C8C05CE8210C8B06538210C8A05B60210C89063D4210C8806C38210C8706284210C8606AB4210C85060F8210C8406948210C8305F7C210C82067C8210C81044C0210C80068BC210595045A82105940442821059204C58210591

/-- Full unconditional lowercase mappings. -/
def lower : List Nat := [lower0, lower1, lower2, lower3, lower4, lower5]

def fold0 : Nat :=
  0x280020039C0493C20039B051EC20039A012C8200399050482003980041020039704EDC20039600EB420039504D74200394055E020039304C08200392003102003910197C6003900276820038F0440820038E065D820038C0531420038A04190200389051BC20038802738200386053CC20037F048742003760581020037205694200370012C820034506B2020024E0501420024C04EA420024A04D4020024804BBC2002460446820024504B2C2002440563020024305190200241057DC20023E0445020023D04D1C20023B04DD820023A06260200232060D420023005F6820022E05DFC20022C05CA020022A05B2C20022806C0020022606A802002240691C200222047182002200662C20021E064F420021C04A1020021A0486420021804728200216045C820021404460200212042C020021006D4020020E0526420020C050E820020A04F6420020804DE020020604C7820020404B0020020205C1020020005A902001FE059442001FC057B42001FA056442001F805CB82001F7049D42001F6053642001F4064602001F2064602001F1032784001F0061942001EE060142001EC05E982001EA05D482001E806E2C2001E606CAC2001E406B342001E2069B82001E0068282001DE043802001DB06E042001D906C702001D706B082001D5050002001D304E882001D104D2C2001CF04BB02001CD04A682001CB04A682001CA0518C2001C80518C2001C7058742001C5058742001C405B382001BC058502001B802A802001B705F5C2001B505DEC2001B304CA82001B2042D02001B105B1C2001AF053A82001AE062402001AC047142001A9067802001A704DF42001A6042D42001A406D4C2001A206BEC2001A0061D420019F0565820019D05D8420019C04C94200198061A02001970592C2001960671820019406E50200193050CC200191047EC2001900469020018F066D420018E04C6820018B0451C20018A066E8200189049B020018704BFC2001860509820018404F3820018206E182001810016C20017F0549420017D0535820017B06448200179062E0200178059102001760578420017406840200172066EC2001700658420016E0642C20016C062D020016A0616820016804664200166045002001640437420016206DF820016006C6020015E06AFC20015C0698020015A04E7C20015804D2020015604BA420015404A5C200152048D42001500479820014E0585C20014C056FC20014A03F0840014904B8820014705CA420014505B30200143059DC2001410584820013F056E020013D0553020013B0663020013905B0C200136059C820013406A64200132041204001300677420012E0661C20012C064E020012A063782001280484C2001260470C200124045B02001220443C2001200429820011E06D2420011C06BB820011A050B420011804F4420011604DC420011404C5420011204AE82001100499420010E05A6C20010C0591420010A057982001080561420010605474200104053442001020520820010002BC84000DF059002000DE061742000DD057782000DC05FFC2000DB0682C2000DA05E6C2000D903E902000D8065702000D605BAC2000D50641C2000D406C742000D3062BC2000D206B0C2000D10615C2000D0069982000CF05FCC2000CE067FC2000CD044EC2000CC066AC2000CB043582000CA065542000C906DE42000C8063F82000C7029502000C6048E02000C506AE82000C4047A82000C3069702000C2046342000C104E702000C0028002000B500E7020005A00AB020005900B90200058018E4200057004D020005600A10200055013682000540016C2000530015C20005201A1C200051003D020005000A2420004F0168C20004E003D820004D006BC20004C006B020004B015FC20004A004D420004900FF8200048007FC20004700AC820004600FC820004500164200044006B420004301B2420004200160200041
def fold1 : Nat :=
  0x51A02010B905A102010B804FF02010B70589C2010B6061102010B5057182010B405F942010B3055902010B205E282010B1054082010B005CD42010AF065282010AE05B482010AD063C42010AC059F02010AB0626C2010AA06AA42010A9060E02010A80693C2010A705F702010A6067AC2010A505E042010A4066542010A30430C2010A2065082010A106D902010A002D984005870657C20055606E0C2005550642820055406C8C20055302D9C20055206B1C20055106160200550069A420054F03D7820054E0680C20054D044F420054C066B820054B0436020054A0655C20054906DF420054804A70200547027CC200546048E8200545027C8200544047B020054304FD82005420464020054104E78200540044DC20053F04D1420053E029A420053D04B9C20053C034F420053B04A5820053A052D8200539048CC200538051742005370479020053602D982005350585420053404E58200533056F420053204D00200531046E820052E0459820052C0563C20052A0549C20052805360200526052282005240507420052204F2020052004DA820051E05E8420051C05D3C20051A05BC820051805A54200516058F42005140577420051206814200510066CC20050E0656820050C0641420050A062B82005080615020050605FC0200504044E42005020435420050006DDC2004FE06C4C2004FC06ADC2004FA069682004F804E642004F604D0C2004F404B942004F204A502004F0048C42004EE047842004EC0584C2004EA02B582004E8055342004E6053E02004E4052C42004E2051482004E004FB02004DE060A82004DC05F3C2004DA034382004D805C702004D605AF42004D4059AC2004D206A582004D005F242004CD05DB82004CB042A82004C906D302004C706BC42004C506A3C2004C3068C02004C1068E82004C00442C2004BE042882004BC06D082004BA06BA82004B80508C2004B604F342004B404DC02004B204C442004B004ADC2004AE049742004AC0481C2004AA059082004A8057802004A6056002004A4054602004A2053342004A0051E820049E062C820049C0616420049A05FD420049805E5420049605D1020049405B9820049206C5820049006AF420048E0697C20048C067E820048A047942004800462420047E044C820047C0433420047A06DB8200478052C820047603EC020047404FBC20047204E3C20047004CE820046E04B6020046C04A3420046A05B08200468059BC20046605830200464056B82004620551020046006D1C20042F0635C20042E037B020042D061F020042C03A0820042B046EC20042A068B02004290459C20042803AA020042704420200426065E820042506E8820042402D9020042306CF82004220498820042106B982004200482820041F038C020041E046D020041D04F2420041C0457020041B03AF020041A043F0200419027102004180321020041702B5020041602CB02004150495C200414028F8200413048082004120505420041102CB8200410053B820040F05C6820040E064D820040D05AE820040C0637020040B059A020040A062082004090580C2004080608420040703A3020040605F0C2004050676C20040405DAC200403065F820040205C40200401064C020040004CC42003FF055142003FE04B4C2003FD0476C2003FA04A2C2003F904E302003F700EB42003F5050482003F403A582003F1051EC2003F00512C2003EE04F9C2003EC04E142003EA05F282003E805DBC2003E605C502003E405AD02003E2059942003E0058042003DE068C42003DC0675C2003DA065EC2003D8043D82003D6048202003D5050482003D104C082003D0064B42003CF04F042003C2013E86003B006E7C2003AB064902003AA004502003A90497C2003A806B8C2003A7048202003A600D402003A5046C42003A404F042003A303A582003A1043D82003A000C3820039F06E6020039E04ABC20039D
def fold2 : Nat :=
  0x2E08201F6E026E0201F6D03018201F6C029C0201F6B03F20201F6A036E8201F6903088201F68056F0201F5F05548201F5D06640201F5B064F8201F5901CB8601F5602390601F5400D40601F5200D40401F50042DC201F4D064EC201F4C06D54201F4B06388201F4A06BF4201F4904858201F4804B18201F3F06D38201F3E049DC201F3D05258201F3C04844201F3B050D8201F3A04700201F3904F58201F3803488201F2F02CF0201F2E036D0201F2D03C28201F2C028C0201F2B03DE0201F2A02B60201F2903040201F280578C201F1D06008201F1C06844201F1B05E80201F1A066F8201F1905D34201F1803178201F0F03BF8201F0E03398201F0D03DD0201F0C02550201F0B03028201F0A027A8201F0903D60201F0806C64201EFE06B04201EFC06984201EFA04E80201EF804D24201EF604BAC201EF404A60201EF2048DC201EF0047A0201EEE05860201EEC05704201EEA05558201EE8053EC201EE6052D0201EE405168201EE204FCC201EE0060BC201EDE05F54201EDC05DE4201EDA05C8C201ED805B14201ED6059D0201ED406A68201ED206900201ED00677C201ECE06624201ECC064E4201ECA0637C201EC806218201EC604710201EC4045B8201EC204444201EC0042A4201EBE06D28201EBC06BC0201EBA050C0201EB804F4C201EB604DC8201EB404C60201EB204AF0201EB0049A4201EAE05A78201EAC05920201EAA057A0201EA805624201EA605484201EA405350201EA205214201EA002BC8401E9E053D8201E9B036B8401E9A032A8401E99034A8401E9803B28401E9702838401E9605BB4201E9406C84201E9206B18201E90069A0201E8E06808201E8C066B4201E8A06558201E8806400201E86048E4201E84047AC201E820463C201E80044D8201E7E04344201E7C06DD4201E7A052D4201E7805170201E7604FD0201E7404E54201E7204CFC201E7004B7C201E6E05C98201E6C05B24201E6A059D4201E6805840201E66056D8201E6405520201E62053D8201E60064F0201E5E0638C201E5C06228201E5A0609C201E5805F30201E5605DC8201E54042B0201E5206D3C201E5006BCC201E4E06A44201E4C068D8201E4A06768201E48065F4201E4604AFC201E44049BC201E4204834201E40046E4201E3E04594201E3C0441C201E3A05498201E380535C201E3605224201E3405070201E3204F1C201E3004DA4201E2E04C30201E2C05D38201E2A05BC4201E2805A50201E26058F0201E2405770201E22055EC201E20066C8201E1E06564201E1C06410201E1A062B4201E180614C201E1605FBC201E14044E0201E1204350201E1006DD8201E0E06C48201E0C06AD8201E0A06960201E08067E0201E0604D08201E0404B90201E0204A4C201E0004980201CBF05220201CBE04824201CBD04F18201CBA0456C201CB904D9C201CB805608201CB704C2C201CB605468201CB504AC4201CB405338201CB30494C201CB2051F8201CB105A48201CB00504C201CAF058EC201CAE04EE8201CAD05768201CAC05FE8201CAB055E4201CAA05E5C201CA905448201CA805D14201CA705318201CA605BA0201CA50640C201CA405A2C201CA3062B0201CA2058CC201CA106144201CA005750201C9F05FB4201C9E067F4201C9D05E48201C9C066A0201C9B05D00201C9A06550201C9905B78201C98063F0201C9706C44201C96062A4201C9506AC8201C9406120201C930695C201C920462C201C91067DC201C9005594201C88056B8201C87046EC201C8606CF8201C8506CF8201C8404988201C83038C0201C820495C201C8104808201C80067B02013FD044B02013FC066582013FB043102013FA0650C2013F906D942013F804D702010CD049142010C7047D02010C5050182010C4058C02010C304EAC2010C2057382010C104D482010C0055B42010BF04BD82010BE054202010BD05CF42010BC052FC2010BB05B702010BA
def fold3 : Nat :=
  0x57E8202CDE05674202CDC054E0202CDA05384202CD80524C202CD606340202CD4061CC202CD20603C202CD005ED0202CCE05D7C202CCC05BF4202CCA06CE4202CC806B68202CC6069F8202CC406860202CC206710202CC006590202CBE06440202CBC04930202CBA047E4202CB804684202CB604514202CB404388202CB206E14202CB00530C202CAE051B8202CAC05010202CAA04E9C202CA804D38202CA604BB8202CA404A78202CA205B68202CA005A00202C9E05888202C9C05714202C9A0557C202C9805400202C9606524202C94063B8202C9206258202C90060D0202C8E05F64202C8C05DF8202C8A042F8202C8806D7C202C8606BFC202C8406A78202C8206918202C8004FE0202C7F05890202C7E06A60202C75045C0202C7204A94202C7004904202C6F05ED8202C6E06C94202C6D049E0202C6B04848202C6905968202C67054E8202C6404B5C202C6305A7C202C6205D90202C6005C08202C2F05240202C2E05A88202C2D06324202C2C05940202C2B061B4202C2A057B0202C2906028202C2805640202C2705EBC202C2606724202C2505D68202C24065A8202C2305BDC202C220645C202C2105A68202C20062FC202C1F06B4C202C1E0618C202C1D069DC202C1C0600C202C1B0684C202C1A05E90202C1906700202C18043A4202C1706588202C1606E24202C1506434202C1406CA0202C1304918202C1206B2C202C11047D4202C10069B0202C0F0466C202C0E0681C202C0D04504202C0C04D4C202C0B0437C202C0A04BDC202C0906E00202C0804A80202C0706C6C202C06048F4202C05051A4202C04047B8202C0304FF4202C0204654202C0104E84202C000500C2024CF058B82024CE061342024CD0572C2024CC05FA82024CB055A82024CA05E402024C9054182024C805CEC2024C70653C2024C605B642024C5063DC2024C4059FC2024C3062882024C2058842024C1060FC2024C0069502024BF05F802024BE067CC2024BD05E1C2024BC0666C2024BB05CC02024BA065202024B906DAC2024B8063B42024B706C202024B6052882021830580820216F0607820216E068CC20216D05F0420216C0676020216B05DA820216A065F020216905C3C202168064B820216706D0C2021660635420216506BAC202164061EC20216306A3020216206060202161068A820216005B9C202132048E020212B006B020212A0045020212603DC8401FFC066DC201FFB03358201FFA04A88201FF906C80201FF802264601FF701EBC401FF602768401FF403DC8401FF303358401FF204A7C201FEC06574201FEB06E08201FEA05A04201FE904FE8201FE800D4C601FE7026C8401FE603A58401FE4013E8601FE301910601FE204900201FDB06B14201FDA060D8201FD905700201FD8012C8601FD702AE8401FD60197C601FD301EF8601FD203928401FCC047C4201FCB02668201FCA0465C201FC904E94201FC801574601FC7011C0401FC604190401FC403928401FC302668401FC2012C8201FBE03AB0401FBC044F0201FBB03750201FBA042C8201FB904B24201FB801460601FB7010F4401FB602738401FB403AB0401FB303750401FB203590401FAF02E08401FAE026E0401FAD03018401FAC029C0401FAB03F20401FAA036E8401FA903088401FA803590401FA702E08401FA6026E0401FA503018401FA4029C0401FA303F20401FA2036E8401FA103088401FA003488401F9F02CF0401F9E036D0401F9D03C28401F9C028C0401F9B03DE0401F9A02B60401F9903040401F9803488401F9702CF0401F96036D0401F9503C28401F94028C0401F9303DE0401F9202B60401F9103040401F9003178401F8F03BF8401F8E03398401F8D03DD0401F8C02550401F8B03028401F8A027A8401F8903D60401F8803178401F8703BF8401F8603398401F8503DD0401F8402550401F8303028401F82027A8401F8103D60401F8003590201F6F
def fold4 : Nat :=
  0x5D0C2104090530821040805B80210407051B021040605A2021040505008210404058B42104030612C2104020572421040105FA4210400050D420FF3A0596020FF39061E020FF38057CC20FF370604C20FF360565C20FF3505EE020FF34054B020FF3305D8820FF32065CC20FF3105C0020FF300648020FF2F05A8020FF2E0631420FF2D06B7820FF2C061A420FF2B06A0820FF2A0601C20FF290687020FF2805EAC20FF270671C20FF26043D020FF250659C20FF2406E5820FF230645020FF2206CC020FF21029A040FB1703D7840FB16034F040FB150323840FB14027C840FB13025C040FB06025C040FB050121460FB04016DC60FB030121840FB02016E040FB010121440FB00063A420ABBF06C0820ABBE0489020ABBD06A8420ABBC0475C20ABBB0692820ABBA045EC20ABB904E1C20ABB80447C20ABB704CBC20ABB6042EC20ABB504B4820ABB406D6820ABB304A1420ABB20529020ABB10487020ABB00511820ABAF0473420ABAE04F8C20ABAD045D420ABAC04E0820ABAB0569020ABAA04CA420ABA9054F820ABA804B2820ABA7053A420ABA6049F420ABA50527820ABA405AB820ABA3050F420ABA20597820ABA104F7020ABA0057EC20AB9F0606820AB9E0567820AB9D05EF420AB9C054E420AB9B05D9820AB9A0538820AB9905C2020AB98064A020AB9705AA020AB960634420AB950595820AB94061D020AB93057C020AB920604020AB910688820AB9005ED420AB8F0674020AB8E05D8020AB8D065C020AB8C06E7020AB8B0647820AB8A06CE820AB890630C20AB8806B7020AB870619C20AB8606A0020AB85046B820AB840686420AB830454820AB820671420AB81043C420AB800659420AB7F06E4C20AB7E04AAC20AB7D06CB820AB7C0493420AB7B06B3C20AB7A047E820AB79069C820AB780468820AB7704EC420AB760451820AB7504D6820AB740438C20AB7304BF420AB720543820AB7104A9020AB70053BC20A7F506CFC20A7D806B9C20A7D60673C20A7D006B6C20A7C9069FC20A7C7067D820A7C604F7420A7C50625C20A7C4043C020A7C206E4820A7C00532420A7BE051CC20A7BC0502820A7BA04EC020A7B804D6420A7B604BF020A7B404BCC20A7B3060C420A7B2049F820A7B106A8820A7B00631020A7AE0647C20A7AD0659820A7AC06B4020A7AB0601820A7AA055AC20A7A80669020A7A60654020A7A4063E020A7A20628C20A7A00610020A79E05F8420A79C05E2020A79A0432C20A79806DB020A79606A9420A7920693820A7900686C20A78D042FC20A78B0488420A7860474C20A784045E420A7820447020A7800550C20A77E0488C20A77D04A0420A77B05AD420A77905C3420A76E05AB020A76C0596C20A76A057E020A7680566420A7660675820A764065DC20A7620649420A7600632820A75E061B820A75C0603020A75A0456020A758043DC20A75606E6420A75406CC420A75206B5020A750069E020A74E04EE020A74C04D7820A74A04C0C20A74804A9C20A7460491C20A744047D820A7420467020A7400574020A73E055BC20A73C0542820A73A0530020A738051A820A73604FF820A7340611820A73205E3020A72E05CDC20A72C05B5020A72A059F420A7280586C20A7260694020A724067B420A7220662820A69A04B3C20A69804A0820A6960486020A6940472420A692045C420A6900445C20A68E042BC20A68C0539820A68A0526020A688050E420A68604F5C20A68404DDC20A68204C7420A6800630020A66C0619020A66A0601020A66805E9420A666043A820A66406E2820A66206CA820A66006B3020A65E069B420A65C0682020A65A04D5420A65804BE020A65604A8420A654048F820A652047BC20A6500465820A64E044E820A64C0559420A64A0540C20A648052EC20A6460518820A64404FD420A64204E6C20A64006D64202CF204730202CED045D0202CEB04854202CE205974202CE0
def fold5 : Nat :=
  0x48B421E9210514C21E920059D821E91F04FB821E91E0584421E91D04E3821E91C056DC21E91B04CE421E91A0552421E91905DDC21E918053DC21E91705C8021E916052B021E91505B0421E9140514021E913059B821E9120622C21E9110582C21E910060A021E90F056B421E90E05F3421E90D0677021E90C05DCC21E90B0661821E90A05C6421E909064D421E90805AE421E9070636C21E90606BD021E9050620421E90406A4821E9030608021E902068DC21E90105F0821E9000689C216E5F04584216E5E04DBC216E5D04400216E5C04C40216E5B06E74216E5A04AD8216E5906CF0216E580496C216E5705218216E5604814216E5505064216E54046C0216E5304F00216E5204558216E5104D90216E50055FC216E4F04C24216E4E0545C216E4D04AB8216E4C05330216E4B05BB8216E4A051E4216E4905A44216E480503C216E47058E4216E4604ED8216E4505760216E4405FD0216E43055DC216E4205E50216E4105440216E40060582118BF056682118BE05EE82118BD054C02118BC05D942118BB065E02118BA05C142118B9064982118B805A942118B7063302118B60594C2118B5061BC2118B406A182118B3060342118B20687C2118B105EC42118B0067282118AF05D6C2118AE065B02118AD06E682118AC064642118AB06CCC2118AA063042118A906B542118A8047FC2118A7069E82118A6046982118A5068542118A4045302118A3067042118A2043AC2118A104C102118A004AC8210CB206CD8210CB104950210CB006B5C210CAF04800210CAE05050210CAD046A0210CAC04EEC210CAB04540210CAA04D84210CA9043B8210CA804C14210CA705454210CA604AA4210CA50531C210CA404928210CA3051C4210CA205A34210CA10501C210CA0058D0210C9F04EB8210C9E05754210C9D04D58210C9C055C8210C9B05E4C210C9A0542C210C9905D08210C9805304210C9705B7C210C96051AC210C9505A1C210C94062A8210C93058B0210C9206128210C9105720210C9005FA0210C8F055A0210C8E05E3C210C8D0668C210C8C05CE8210C8B06538210C8A05B60210C89063D4210C8806C38210C8706284210C8606AB4210C85060F8210C8406948210C8305F7C210C82067C8210C81044C0210C80068BC210595045A82105940442821059204C5821059106E9C21059004AEC21058F06D0421058E0499C21058D06BA421058C0508421058A046D821058904F302105880458021058704DB82105860561C21058504C3C2105840548021058304AD42105820534C210581049682105800521021057F05A5C21057E0506021057D0590421057C0577C21057A04D8C210579055F821057805E742105770545821057605D202105750532C21057405BB02105730642421057205A40210571062C421057004B742104D306DA82104D204A402104D1052C02104D0048A02104CF051442104CE047682104CD04FAC2104CC046002104CB04E282104CA056C42104C904CD02104C8055182104C704B582104C6053C82104C504A1C2104C4052A02104C305AEC2104C2051282104C1059A82104C004F982104BF058182104BE060902104BD056A82104BC05F182104BB055042104BA05DB42104B9053B42104B805C482104B7064C82104B605ACC2104B5063682104B40598C2104B3061F82104B2057FC2104B1060742104B006734210427043EC210426065B821042506E6C2104240647021042306CDC2104220495421042106B602104200480421041F069F421041E046A421041D04EF021041C0454421041B04D8821041A043BC21041904C1821041806E3421041704AA8210416053202104150492C210414051C8210413047DC210412050202104110468021041004EBC21040F0575821040E04D5C21040D055CC21040C04BE821040B0543021040A

/-- Case foldings of status C and F. -/
def fold : List Nat := [fold0, fold1, fold2, fold3, fold4, fold5]

def ccc0 : Nat :=
  0x804020E573002020E173004020DB00806020D873008020D400804020D273004020D06E00201DFF7300201DFE6E00201DFD7480201DFC7300201DFB6D00201DFA6E00201DF97200401DF77400201DF67304A01DD16500201DD06E00201DCF6B00201DCE7500201DCD7300401DCB6E00201DCA7300E01DC36E00201DC27300401DC07300401CF87300201CF46E00201CED0080E01CE27300201CE06E00801CDC7300401CDA6E00A01CD50080201CD47300601CD00380201C370480401BF20380201BE60480401BAA7300E01B6D6E00201B6C7300201B6B0480201B440380201B347300801ACB6E00201ACA7300A01AC56E00401AC37300401AC16E00401ABF6E00201ABD7300401ABB6E00C01AB57300A01AB06E00201A7F7301001A750480201A606E00201A187300201A176E0020193B730020193A6F0020193972002018A973002017DD04802017D204802017340480401714730060135D6E0020108D048040103903802010376E00200FC67300400F860480200F847300400F824100200F804100800F7A4200200F744100200F724080200F716C00200F396E00200F376E00200F356E00400F183D00800EC80480200EBA3B00400EB83580800E480480200E3A3380400E380480200DCA0480200D4D0480400D3B0480200CCD0380200CBC2D80200C562A00200C550480200C4D0380200C3C0480200BCD0480200B4D0380200B3C0480200ACD0380200ABC0480200A4D0380200A3C73002009FE04802009CD03802009BC73004009536E002009527300200951048020094D038020093C7300A008FB6E004008F973004008F76E002008F673006008F30E802008F20E002008F10D802008F06E006008ED73006008EA6E002008E973004008E76E002008E673004008E46E002008E37301C008D46E00A008CF7300A008CA730080089C6E0060089973002008986E006008597300A008297300600825730120081B73008008166E002007FD73002007F36E002007F27300E007EB73004007496E0020074873002007476E0020074673002007456E0020074473002007436E00200742730060073F6E0020073E730020073D6E0040073B730020073A6E0060073773004007356E0020073473004007326E00200731730020073012002007116E002006ED73004006EB6E002006EA73004006E773002006E46E002006E373008006DF7300E006D611802006706E0020065F730040065D6E0020065C7300A006576E0040065573004006531100200652108020065110002006500F8020064F0F0020064E0E8020064D0E0020064C0D8020064B100020061A0F802006190F00200618730100061009002005C76E002005C573002005C40C802005C20C002005C10B802005BF0B002005BD0A802005BC0A002005BB09804005B909002005B808802005B708002005B607802005B507002005B406802005B306002005B205802005B105002005B073002005AF72002005AE6F002005AD73004005AB6E002005AA73004005A86E00C005A27300C0059C6E0020059B6F0020059A73006005976E0020059673008005926E002005917300A004837301A0036374802003627500400360748020035F750040035D748020035C730020035B6E00400359740020035873002003576E0080035373006003506E0040034D730060034A6E0060034773002003467800200345730100033D6E008003390080A003346E0160032965004003276E0080032365004003216E00A0031C6C0020031B740020031A6E0080031674002003157302A00300
def ccc1 : Nat :=
  0x38021E94A7300C1E9446E00E1E8D0730021E4EF6E0021E4EE740041E4EC730081E2EC730021E2AE7300E1E130730021E08F7300A1E026730041E0237300E1E01B730221E0087300E1E000730061D242730081D1AA6E0041D18A7300A1D1856E0101D17B6C00A1D16E710021D16D008061D1676C0041D165008021BC9E0300416FF07300E16B300080A16AF00480411F410480211D970480411D440380211D420480211C3F0480211A990480211A470480211A3404802119E00380211943048041193D038021183A0480211839048021172B03802116B704802116B6048021163F03802115C004802115BF03802114C304802114C2730021145E038021144604802114427300A113707300E11366048021134D038041133B04802112EA03802112E90380211236048021123503802111CA04802111C003802111730480411133730061110003802110BA04802110B9048021107F048021107004802110466E00210F857300210F846E00210F837300210F826E00810F4D7300210F4C6E00210F4B7300610F486E00410F466E00610EFD7300410EAB7300810D246E00210AE67300210AE50480210A3F6E00210A3A0080210A397300210A387300210A0F6E00210A0D7300A103766E002102E06E002101FD730040FE2E6E00E0FE277300E0FE200D0020FB1E048020ABED048020AAF6730020AAC1730040AABE730040AAB76E0020AAB4730040AAB2730020AAB0048020A9C0038020A9B3048020A9536E0060A92B730240A8E0048020A8C4048020A82C048020A806730040A6F0730040A69E730140A674730020A66F0400403099700040302E6F0020302D740020302C720020302B6D0020302A7304002DE00480202D7F7300602CEF73002020F06E008020EC00804020EA73002020E96E002020E873002020E7

/-- Runs of equal combining class: first in bits 20:0, length in bits 30:21, class from bit 31. -/
def ccc : List Nat := [ccc0, ccc1]

def comp0 : Nat :=
  0x4AC000D2003040004A4000D2003030003B8000D2003020003B4000D2003010003B0000D200300007A58000D0003310078AC000D00032E0078A4000D000327007894000D00032300087C000D00030C00789C000D00030800788C000D000307000494000D00030200048C000CE0032700079C000CE0030C000484000CE0030700047C000CE00306007884000CE00304000474000CE003020007D4000CE0030100787C000CC0030700786C000CA00330007864000CA0032D000464000CA003280008A4000CA00327007AE4000CA0032300081C000CA00311000814000CA0030F00046C000CA0030C007AEC000CA003090003AC000CA0030800045C000CA00307000454000CA0030600044C000CA00304007AF4000CA003030003A8000CA003020003A4000CA003010003A0000CA0030000783C000C80033100784C000C80032D007844000C800327007834000C80032300043C000C80030C00782C000C80030700039C000C600327000434000C60030C00042C000C600307000424000C60030200041C000C60030100781C000C400331007814000C40032300780C000C400307000414000C200328007804000C200325007A84000C20032300080C000C200311000804000C20030F000738000C20030C000394000C20030A007A8C000C200309000390000C20030800089C000C20030700040C000C200306000404000C20030400038C000C200303000388000C200302000384000C200301000380000C200300007A50000B400331007A48000B4003230005F4000B40030C0005EC000B400307007A40000B4003020005E4000B400301007BD0000B200323007BD8000B2003090005E0000B200308007A38000B2003070008C8000B200304007BE0000B2003030005D8000B200302000374000B200301007BC8000B200300007A30000B000308007A28000B000307007A20000AE00323007A10000AE00308007A18000AE003070005D0000AE00302007A08000AE00301007A00000AE003000079F8000AC003230079F0000AC003030079D0000AA003300079D8000AA0032D0005C8000AA003280079C8000AA00324007B90000AA003230006BC000AA0031B000858000AA00311000850000AA0030F00074C000AA0030C0005C0000AA0030B0005B8000AA0030A007B98000AA00309000370000AA003080005B0000AA003060005A8000AA003040005A0000AA0030300036C000AA00302000368000AA00301000364000AA003000079B8000A8003310079C0000A80032D000588000A800327000868000A8003260079B0000A800323000590000A80030C0079A8000A800307000578000A600327000860000A600326007988000A600323000580000A60030C007980000A600307000570000A600302000568000A600301007978000A400331000558000A400327007968000A400323000848000A400311000840000A40030F000560000A40030C007960000A400307000550000A400301007958000A000307007950000A0003010007A80009E00328007B300009E003230006800009E0031B0008380009E003110008300009E0030F0007440009E0030C0005400009E0030B007B380009E003090003580009E003080008B80009E003070005380009E003060005300009E003040003540009E003030003500009E0030200034C0009E003010003480009E003000079200009C003310079280009C0032D0005140009C003270079180009C0032300051C0009C0030C0079100009C003070003440009C0030300050C0009C003010007E00009C003000079080009A003230079000009A003070078F80009A003010078E800098003310078F0000980032D0004EC00098003270078D800098003230004F4000980030C0004E400098003010078D000096003310004D800096003270078C800096003230007A0000960030C0078C000096003010004D000094003020078B000092003300004B80009200328007B2800092003230008280009200311000820000920030F00073C000920030C007B20000920030900033C00092003080004C000092003070004B000092003060004A800092003040004A000092003030003380009200302000334000920030100033000092003000078A8000900032E0078A000090003270078900009000323000878000900030C0078980009000308007888000900030700049000090003020004880008E003270007980008E0030C0004800008E003070004780008E003060078800008E003040004700008E003020007D00008E003010078780008C003070078680008A003300078600008A0032D0004600008A003280008A00008A00327007AE00008A003230008180008A003110008100008A0030F0004680008A0030C007AE80008A0030900032C0008A003080004580008A003070004500008A003060004480008A00304007AF00008A003030003280008A003020003240008A003010003200008A003000078380008800331007848000880032D00784000088003270078300008800323000438000880030C007828000880030700031C0008600327000430000860030C00042800086003070004200008600302000418000860030100781800084003310078100008400323007808000840030700041000082003280078000008200325007A8000082003230008080008200311000800000820030F000734000820030C000314000820030A007A880008200309000310000820030800089800082003070004080008200306000400000820030400030C00082003030003080008200302000304000820030100030000082003000089BC0007C003380089800007A003380089B80007800338
def comp1 : Nat :=
  0x7CE40073200314007CE00073200313000EA80073200308007F600073200306007F640073200304000E280073200301007F680073200300007F300072E00345007CA40072E00314007CA00072E00313000E240072E00301007F280072E00300007C640072A00314007C600072A00313000E200072A00301007F200072A00300007EF00072200345007C240072200314007C200072200313007EE00072200306007EE40072200304000E180072200301007EE800722003000007BC005240030C0008C40045E003040008C00045C00304007874004520030600787000450003060007840044E003040007800044C003040007B4003D6003040007B0003D4003040007B80036E0030C007BC40036000323007BB40036000309007BBC0036000303007BA40036000301007BAC0036000300007BC00035E00323007BB00035E00309007BB80035E00303007BA00035E00301007BA80035E00300007B8C0034200323007B7C0034200309007B840034200303007B6C0034200301007B740034200300007B880034000323007B780034000309007B800034000303007B680034000301007B700034000300007A6C002FE003070079EC002D6003080079E8002D4003080079E4002D2003010079E0002D00030100799C002C200307007998002C000307007994002B600307007990002B40030700794C0029A003010079440029A003000079480029800301007940002980030000785C0022600301007854002260030000785800224003010078500022400300007ACC0020600309007AD40020600303007ABC0020600301007AC40020600300007AC80020400309007AD00020400303007AB80020400301007AC00020400300000768001F80030C000758001F800304000760001F800301000770001F8003000007FC001F0003010008AC001EC0030400793C001EA003080008B4001EA00304007934001EA00301007B54001E800309007B5C001E800303007B44001E800301007B4C001E8003000078BC001DE00301007B0C001D400309007B14001D400303007AFC001D400301007B04001D400300007824001CE0030100078C001CC003040007F4001CC003010007EC001CA0030100077C001C800304007AA4001C400309007AAC001C400303007A94001C400301007A9C001C400300000764001B80030C000754001B80030400075C001B80030100076C001B8003000007F8001B0003010008A8001AC00304007938001AA003080008B0001AA00304007930001AA00301007B50001A800309007B58001A800303007B40001A800301007B48001A8003000078B80019E00301007B080019400309007B100019400303007AF80019400301007B0000194003000078200018E003010007880018C003040007F00018C003010007E80018A003010007780018800304007AA00018400309007AA80018400303007A900018400301007A980018400300007F040015000342000E140015000301007FB40015000300007A54000F400331007A4C000F4003230005F8000F40030C0005F0000F400307007A44000F4003020005E8000F400301007BD4000F200323007A64000F20030A007BDC000F2003090003FC000F200308007A3C000F2003070008CC000F200304007BE4000F2003030005DC000F2003020003F4000F200301007BCC000F200300007A34000F000308007A2C000F000307007A24000EE00323007A60000EE0030A007A14000EE00308007A1C000EE003070005D4000EE00302007A0C000EE00301007A04000EE003000079FC000EC003230079F4000EC003030079D4000EA003300079DC000EA0032D0005CC000EA003280079CC000EA00324007B94000EA003230006C0000EA0031B00085C000EA00311000854000EA0030F000750000EA0030C0005C4000EA0030B0005BC000EA0030A007B9C000EA003090003F0000EA003080005B4000EA003060005AC000EA003040005A4000EA003030003EC000EA003020003E8000EA003010003E4000EA003000079BC000E8003310079C4000E80032D00058C000E80032700086C000E8003260079B4000E800323000594000E80030C007A5C000E8003080079AC000E80030700057C000E600327000864000E60032600798C000E600323000584000E60030C007984000E600307000574000E60030200056C000E60030100797C000E40033100055C000E40032700796C000E40032300084C000E400311000844000E40030F000564000E40030C007964000E400307000554000E40030100795C000E000307007954000E0003010007AC000DE00328007B34000DE00323000684000DE0031B00083C000DE00311000834000DE0030F000748000DE0030C000544000DE0030B007B3C000DE003090003D8000DE003080008BC000DE0030700053C000DE00306000534000DE003040003D4000DE003030003D0000DE003020003CC000DE003010003C8000DE00300007924000DC0033100792C000DC0032D000518000DC0032700791C000DC00323000520000DC0030C007914000DC003070003C4000DC00303000510000DC003010007E4000DC0030000790C000DA00323007904000DA003070078FC000DA003010078EC000D8003310078F4000D80032D0004F0000D8003270078DC000D8003230004F8000D80030C0004E8000D8003010078D4000D6003310004DC000D6003270078CC000D6003230007A4000D60030C0078C4000D6003010007C0000D40030C0004D4000D4003020078B4000D2003300004BC000D200328007B2C000D20032300082C000D200311000824000D20030F000740000D20030C007B24000D2003090003BC000D2003080004B4000D200306
def comp2 : Nat :=
  0x7CF003E7000301007CE803E7000300007CDC03E6200342007CD403E6200301007CCC03E6200300007CD803E6000342007CD003E6000301007CC803E6000300007E7C03E5E00345007E7803E5C00345007E7403E5A00345007E7003E5800345007E6C03E5600345007E6803E5400345007E6403E5200345007CBC03E5200342007CB403E5200301007CAC03E5200300007E6003E5000345007CB803E5000342007CB003E5000301007CA803E5000300007E5C03E4E00345007E5803E4C00345007E5403E4A00345007E5003E4800345007E4C03E4600345007E4803E4400345007E4403E4200345007C9C03E4200342007C9403E4200301007C8C03E4200300007E4003E4000345007C9803E4000342007C9003E4000301007C8803E4000300007C7403E3200301007C6C03E3200300007C7003E3000301007C6803E3000300007C5403E2200301007C4C03E2200300007C5003E2000301007C4803E2000300007E3C03E1E00345007E3803E1C00345007E3403E1A00345007E3003E1800345007E2C03E1600345007E2803E1400345007E2403E1200345007C3C03E1200342007C3403E1200301007C2C03E1200300007E2003E1000345007C3803E1000342007C3003E1000301007C2803E1000300007E1C03E0E00345007E1803E0C00345007E1403E0A00345007E1003E0800345007E0C03E0600345007E0803E0400345007E0403E0200345007C1C03E0200342007C1403E0200301007C0C03E0200300007E0003E0000345007C1803E0000342007C1003E0000301007C0803E0000300007B6403D9A00302007B6003D9800302007B1C03D7200302007B1803D7000302007ADC03D4200306007AB403D4200302007AD803D4000306007AB003D40003020079A403CC6003070079A003CC40030700797403CB60030400797003CB4003040078E403C6E003040078E003C6C00304006D0C0368401B35006D040367E01B35006D000367C01B35006CF40367801B35006CEC0367401B35006C480362201B35006C380361A01B35006C300361601B35006C280361201B35006C200360E01B35006C180360A01B350040980204A0102E00377401BB800DCA00377801BB200DDF00377001BB200DCF00376801BB200DCA00352C01A8E00D3E00353001A8C00D5700352801A8C00D3E00332C0199400CD50033200198C00CD600331C0198C00CD50033280198C00CC20033000197E00CD50031200188C00C56002F2C0178E00BBE002F300178C00BD7002F280178C00BBE002E500172400BD7002D300168E00B57002D200168E00B56002D2C0168E00B3E0027300138E009D700272C0138E009BE0024D0012660093C0024C4012600093C0024A4012500093C001B0000DAA00654001B4C00DA400654001B0800D820065400189800C940065400189000C900065400189400C4E0065500188C00C4E0065400188800C4E006530013AC009D2003080013A8009D00030800136C009B200308001368009B0003080011DC008EA0030F0011D8008E80030F00115C008AC003080013B40089A003080013E400896003080013D40088E003080013CC008860030B0013C4008860030800117800886003060013BC008860030400139C0087C00308001170008740030100139400870003080010E4008700030600138C0087000304001174008700030000137C0086E003080013740086C003080013080086C003060011440086A0030800135C0086A003060011400086A0030000114C008660030100134C008600030800134400860003060013B00085A003080013E000856003080013D00084E003080013C8008460030B0013C0008460030800103800846003060013B800846003040013980083C00308001030008340030100139000830003080010640083000306001388008300030400103400830003000013780082E003080013700082C003080013040082C003060010040082A003080013580082A003060010000082A0030000100C00826003010013480082000308001340008200030600101C0080C00308000F50007A400308000F4C007A400301007FD00079C00345007F9C0079600342000EC00079600301007F880079600300007F5C0079400342000E400079400301007F480079400300007FCC0079200345007FD80079200342007D840079200314007D800079200313000F380079200301007DF00079200300007F980078A00342007D440078A00314007D400078A00313000F2C0078A00308007F800078A00306007F840078A00304000F340078A00301007DE80078A00300007F940078200314007F900078200313007D040077E00314007D000077E00313000F300077E00301007DE00077E00300007F580077200342007CC40077200314007CC00077200313000F280077200308007F400077200306007F440077200304000EBC0077200301007DD80077200300007F0C0076E00345007F180076E00342007C840076E00314007C800076E00313000EB80076E00301007DD00076E00300007C440076A00314007C400076A00313000EB40076A00301007DC80076A00300007ECC0076200345007ED80076200342007C040076200314007C000076200313007EC00076200306007EC40076200304000EB00076200301007DC00076200300007F100075C00345007ED00075800345007FF00075200345007DA40075200314007DA00075200313000E3C0075200301007FE80075200300007D640074A00314000EAC0074A00308007FA00074A00306007FA40074A00304000E380074A00301007FA80074A00300007FB00074200314007D240073E00314007D200073E00313000E300073E00301007FE00073E00300
def comp3 : Nat :=
  0x464E02326A119300456EC22B72115AF0456E822B70115AF0452F822972114BD0452EC22972114BA0452F022972114B0044D302268E11357044D2C2268E1133E0444BC22264111270444B822262111270442AC2214A110BA04427022136110BA04426822132110BA00C3F8061FA0309900C3E8061E40309900C3E4061E20309900C3E0061E00309900C3DC061DE0309900C374061B60309A00C370061B60309900C368061B00309A00C364061B00309900C35C061AA0309A00C358061AA0309900C350061A40309A00C34C061A40309900C3440619E0309A00C3400619E0309900C324061900309900C31C0618C0309900C314061880309900C308061820309900C3000617E0309900C2F80617A0309900C2F0061760309900C2E8061720309900C2E00616E0309900C2D80616A0309900C2D0061660309900C2C8061620309900C2C00615E0309900C2B80615A0309900C2B0061560309900C3D00614C0309900C2780613A0309900C1F4060F60309A00C1F0060F60309900C1E8060F00309A00C1E4060F00309900C1DC060EA0309A00C1D8060EA0309900C1D0060E40309A00C1CC060E40309900C1C4060DE0309A00C1C0060DE0309900C1A4060D00309900C19C060CC0309900C194060C80309900C188060C20309900C180060BE0309900C178060BA0309900C170060B60309900C168060B20309900C160060AE0309900C158060AA0309900C150060A60309900C148060A20309900C1400609E0309900C1380609A0309900C130060960309900C2500608C03099008BB40456A00338008BB00456800338008BAC0456600338008BA80456400338008ABC0455600338008AB80455200338008AB40455000338008AB00454400338008B8C0452400338008B880452200338008A240450E00338008A200450C00338008A140450600338008A100450400338008B84044FA00338008B80044F800338008A04044F600338008A00044F4003380089E4044EE003380089E0044EC003380089D4044E6003380089D0044E4003380089C4044CA003380089C0044C800338008988044C2003380089B40449A00338008924044900033800891C0448A00338008910044860033800890404478003380088980444A003380088900444600338008830044160033800882404410003380088100440600338008738043A80033800873C043A400338008734043A0003380086B8043280033800866C04324003380086680432000338007F7C03FFC00342007F7803FFC00301007F7403FFC00300007FDC03FEC00345007F1C03F8C00345007F3C03F7E00342007F3803F7E00301007F3403F7E00300007EDC03F6C00345007FC803EF800345007F0803EE800345007EC803EE000345007EBC03EDE00345007EB803EDC00345007EB403EDA00345007EB003ED800345007EAC03ED600345007EA803ED400345007EA403ED200345007DBC03ED200342007DB403ED200301007DAC03ED200300007EA003ED000345007DB803ED000342007DB003ED000301007DA803ED000300007E9C03ECE00345007E9803ECC00345007E9403ECA00345007E9003EC800345007E8C03EC600345007E8803EC400345007E8403EC200345007D9C03EC200342007D9403EC200301007D8C03EC200300007E8003EC000345007D9803EC000342007D9003EC000301007D8803EC000300007D7C03EB200342007D7403EB200301007D6C03EB200300007D5C03EA200342007D5403EA200301007D4C03EA200300007D5803EA000342007D5003EA000301007D4803EA000300007D3403E9200301007D2C03E9200300007D3003E9000301007D2803E9000300007D1403E8200301007D0C03E8200300007D1003E8000301007D0803E8000300007CFC03E7200342007CF403E7200301007CEC03E7200300007CF803E7000342

/-- Canonical compositions: second in bits 20:0, first in bits 41:21, result from bit 42, in order of first, then second. -/
def comp : List Nat := [comp0, comp1, comp2, comp3]

/-! Numbers of records. -/

def canonCount : Nat := 2061
def compatCount : Nat := 3812
def lowerCount : Nat := 1433
def foldCount : Nat := 1530
def cccCount : Nat := 388
def compCount : Nat := 941

end Sys2Proof.Machine.Ucd
end

