-- ==== Sys2Proof/Machine/Unicode.lean ====
section
/-! DEFINITION. Characters of text and the Unicode functions of R128 and R131. A character is a code point or, under the raw
policy, a raw byte (R129). -/
namespace Sys2Proof.Machine
open Sys2Proof

/-- A character of a text: a code point, or a raw byte (R129). -/
inductive Chr where
  | cp (n : Nat)
  | raw (b : Byte)
  deriving DecidableEq, Repr

/-! ### Tables -/

namespace Ucd

/-- Record i of a packed table of w-bit records. -/
def recAt (tab : List Nat) (w i : Nat) : Nat := ((tab.getD (i / 256) 0) >>> (w * (i % 256))) % 2 ^ w

/-- Binary search: the number of records whose key is at most k, with fuel. -/
def upTo (key : Nat → Nat) (k : Nat) : Nat → Nat → Nat → Nat
  | 0, lo, _ => lo
  | n + 1, lo, hi =>
    if lo < hi then
      let m := (lo + hi) / 2
      if key m ≤ k then upTo key k n (m + 1) hi else upTo key k n lo m
    else lo

/-- The last record whose key is at most k. -/
def lastRec (tab : List Nat) (w count keyBits k : Nat) : Option Nat :=
  let i := upTo (fun i => recAt tab w i % 2 ^ keyBits) k 13 0 count
  if i == 0 then none else some (recAt tab w (i - 1))

/-- The mapping of a code point in a table. -/
def mapping (tab : List Nat) (count c : Nat) : Option (List Nat) :=
  match lastRec tab 44 count 21 c with
  | none => none
  | some r =>
    if r % 2 ^ 21 == c then
      let n := r >>> 21 % 32
      let off := r >>> 26
      some ((List.range n).map (fun i => recAt pool 24 (off + i)))
    else none

/-- Canonical combining class. -/
def cccOf (c : Nat) : Nat :=
  if c < 0x300 then 0
  else match lastRec ccc 40 cccCount 21 c with
    | none => 0
    | some r => if c < r % 2 ^ 21 + (r >>> 21) % 1024 then r >>> 31 else 0

/-- Canonical composition of two code points, Hangul syllables included. -/
def compose (a b : Nat) : Option Nat :=
  if 0x1100 ≤ a && a < 0x1113 && 0x1161 ≤ b && b < 0x1176 then some (0xAC00 + ((a - 0x1100) * 21 + (b - 0x1161)) * 28)
  else if 0xAC00 ≤ a && a < 0xD7A4 && (a - 0xAC00) % 28 == 0 && 0x11A8 ≤ b && b < 0x11C3 then some (a + (b - 0x11A7))
  else if b < 0x300 then none
  else
    let k := b + a * 2 ^ 21
    let i := upTo (fun i => recAt comp 64 i % 2 ^ 42) k 13 0 compCount
    if i == 0 then none
    else
      let r := recAt comp 64 (i - 1)
      if r % 2 ^ 42 == k then some (r >>> 42) else none

/-- Full canonical or compatibility decomposition of one code point. -/
def decompose (k : Bool) (c : Nat) : List Nat :=
  if c < 0xA0 then [c]
  else if 0xAC00 ≤ c && c < 0xD7A4 then
    let s := c - 0xAC00
    [0x1100 + s / 588, 0x1161 + s % 588 / 28] ++ (if s % 28 == 0 then [] else [0x11A7 + s % 28])
  else
    match (if k then mapping compat compatCount c else none) with
    | some l => l
    | none => (mapping canon canonCount c).getD [c]

end Ucd

/-! ### Decoding and encoding UTF-8 (R128, R129) -/

/-- The invalid policy of a document (R129). -/
inductive Policy where
  | replace | refuse | raw
  deriving DecidableEq, Repr

/-- The code point of a well-formed sequence. -/
def codePoint (bs : Bytes) : Nat :=
  match bs with
  | [] => 0
  | b :: rest =>
    let k := rest.length
    rest.foldl (fun v x => v * 64 + x.toNat % 64) (if k == 0 then b.toNat else b.toNat % 2 ^ (6 - k))

/-- The bytes of a code point. -/
def utf8Bytes (c : Nat) : Bytes :=
  let t (k : Nat) : Byte := BitVec.ofNat 8 (0x80 + c / 64 ^ k % 64)
  if c < 0x80 then [BitVec.ofNat 8 c]
  else if c < 0x800 then [BitVec.ofNat 8 (0xC0 + c / 64), t 0]
  else if c < 0x10000 then [BitVec.ofNat 8 (0xE0 + c / 4096), t 1, t 0]
  else [BitVec.ofNat 8 (0xF0 + c / 262144), t 2, t 1, t 0]

/-- The bytes of a character. -/
def Chr.bytes : Chr → Bytes
  | .cp c => utf8Bytes c
  | .raw b => [b]

/-- An ill-formed subpart under a policy; none under refuse. -/
def badPart (p : Policy) (bs : Bytes) : Option (List (Chr × Nat)) :=
  match p with
  | .replace => some [(.cp 0xFFFD, bs.length)]
  | .refuse => none
  | .raw => some (bs.map (fun b => (.raw b, 1)))

/-- utf8_decode of bytes to characters with the number of bytes each stands for, with fuel; atEnd judges a cut sequence as ill-formed, else it is left over. None where the refuse
policy refuses. -/
def utf8Decode (p : Policy) (atEnd : Bool) : Nat → Bytes → Option (List (Chr × Nat) × Bytes)
  | 0, bs => some ([], bs)
  | k + 1, bs =>
    if bs.isEmpty then some ([], [])
    else
      let step (n : Nat) (cs : Option (List (Chr × Nat))) : Option (List (Chr × Nat) × Bytes) :=
        match cs, utf8Decode p atEnd k (bs.drop n) with
        | some cs, some (rest, left) => some (cs ++ rest, left)
        | _, _ => none
      match utf8Front bs with
      | .good n => step n (some [(.cp (codePoint (bs.take n)), n)])
      | .bad n => step n (badPart p (bs.take n))
      | .cut n => if atEnd then step n (badPart p (bs.take n)) else some ([], bs)

/-! ### Steps of normalise (R130, R131) -/

/-- Combining class of a character; a raw byte is a starter (R129). -/
def Chr.ccc : Chr → Nat
  | .cp c => Ucd.cccOf c
  | .raw _ => 0

/-- Whether a character is the given code point. -/
def Chr.is (n : Nat) (c : Chr) : Bool := c == .cp n

/-- Non-starters at the front, at the end, and all of the compatibility decomposition of a character (UAX #15 section 13). -/
def streamCounts (c : Chr) : Nat × Nat × Nat × Bool :=
  match c with
  | .raw _ => (0, 0, 1, true)
  | .cp n =>
    if n < 0xA0 then (0, 0, 1, true)
    else
      let d := (Ucd.decompose true n).map Ucd.cccOf
      ((d.takeWhile (· != 0)).length, (d.reverse.takeWhile (· != 0)).length, d.length, d.contains 0)

/-- A character with the number of received bytes that stand for it; 0 for one that normalisation inserts. -/
abbrev TChr := Chr × Nat

/-- The stream-safe step from a count of non-starters on (R131). -/
def streamSafe : Nat → List TChr → List TChr
  | _, [] => []
  | n, c :: cs =>
    let (front, back, all, starter) := streamCounts c.1
    if 30 < n + front then (.cp 0x34F, 0) :: c :: streamSafe (if starter then back else all) cs
    else c :: streamSafe (if starter then back else n + all) cs

/-- CRLF (R130): each pair becomes a line feed. -/
def dropCr : List TChr → List TChr
  | [] => []
  | c :: cs => if c.1.is 13 && (cs.headD (.cp 0, 0)).1.is 10 then dropCr cs else c :: dropCr cs

/-- CONTROLS (R130): the code points removed. -/
def isControl : Chr → Bool
  | .cp c => c ≤ 8 || c == 11 || c == 12 || (14 ≤ c && c ≤ 31) || c == 127
  | .raw _ => false

/-- Code points of general category Zs (R130). -/
def isSpace : Chr → Bool
  | .cp c => [0x20, 0xA0, 0x1680, 0x202F, 0x205F, 0x3000].contains c || (0x2000 ≤ c && c ≤ 0x200A)
  | .raw _ => false

/-- COLLAPSE (R130): after tells whether the previous character was a space. -/
def collapse : Bool → List TChr → List TChr
  | _, [] => []
  | after, c :: cs => if c.1.is 0x20 && after then collapse true cs else c :: collapse (c.1.is 0x20) cs

/-- A mapping of code points to code points over a text; raw bytes pass. -/
def mapChars (f : Nat → List Nat) (l : List Chr) : List Chr :=
  l.flatMap (fun c => match c with | .cp n => (f n).map .cp | .raw b => [.raw b])

/-- A mapping of code points over characters with their received bytes, which stay with the first of an image. -/
def mapTracked (f : Nat → List Nat) (l : List TChr) : List TChr :=
  l.flatMap (fun c => match c.1 with
    | .cp n => ((f n).zipIdx).map (fun x => (.cp x.1, if x.2 == 0 then c.2 else 0))
    | .raw _ => [c])

/-- Full lowercase mapping (R128). -/
def lowerOf (c : Nat) : List Nat :=
  if c < 0x80 then [if 65 ≤ c && c ≤ 90 then c + 32 else c] else (Ucd.mapping Ucd.lower Ucd.lowerCount c).getD [c]

/-- Full case folding (R128). -/
def foldOf (c : Nat) : List Nat :=
  if c < 0x80 then [if 65 ≤ c && c ≤ 90 then c + 32 else c] else (Ucd.mapping Ucd.fold Ucd.foldCount c).getD [c]

/-- Canonical ordering: each run of non-starters sorted stably by combining class. run holds the run so far. -/
def reorder : List Chr → List Chr → List Chr
  | run, [] => sortBy (fun a b => decide (a.ccc < b.ccc)) run
  | run, c :: cs =>
    if c.ccc == 0 then sortBy (fun a b => decide (a.ccc < b.ccc)) run ++ c :: reorder [] cs
    else reorder (run ++ [c]) cs

/-- Canonical composition: the last starter with what follows it so far (reversed), and the class of the last character
after it. -/
def recompose : Option Chr → List Chr → List Chr → List Chr
  | st, mid, [] => st.toList ++ mid.reverse
  | none, mid, c :: cs =>
    if c.ccc == 0 then mid.reverse ++ recompose (some c) [] cs else recompose none (c :: mid) cs
  | some st, mid, c :: cs =>
    let last := (mid.head?.map (·.ccc)).getD 0
    let k := c.ccc
    let free := mid.isEmpty || (last != 0 && decide (last < k))
    match st, c with
    | .cp a, .cp b =>
      match (if free then Ucd.compose a b else none) with
      | some x => recompose (some (.cp x)) mid cs
      | none =>
        if k == 0 then st :: (mid.reverse ++ recompose (some c) [] cs) else recompose (some st) (c :: mid) cs
    | _, _ => if k == 0 then st :: (mid.reverse ++ recompose (some c) [] cs) else recompose (some st) (c :: mid) cs

/-- NFC, or NFKC with k set (R131). A text below U+0300 that maps to itself is unchanged by NFC. -/
def composed (k : Bool) (l : List Chr) : List Chr :=
  recompose none [] (reorder [] (mapChars (Ucd.decompose k) l))

end Sys2Proof.Machine
end

