-- ==== Sys2Proof/Machine/Encode.lean ====
section
/-! DEFINITION. The reference encoding (R118 to R143): normalise, find_literals, presplit, cut and segment, with the tokens
that are decided while a document is still open (R120). -/
namespace Sys2Proof.Machine
open Sys2Proof

/-- A normalised text: each byte with whether a character or a raw byte begins there. -/
abbrev Text := List (Byte × Bool)

/-- The bytes of a text. -/
def Text.bytes (t : Text) : Bytes := t.map (·.1)

/-- A vocabulary: a profile with its special tokens. -/
structure Vocab where
  prof : Profile
  special : List Special
  deriving DecidableEq, Repr

/-- The vocabulary of a version. -/
def Version.vocab (v : Version) : Vocab := { prof := v.prof, special := v.special }

/-- PFLAGS and WSFLAGS (R122, R130). -/
def Profile.form (p : Profile) : Nat := bits p.pflags 1 0
def Profile.caseMap (p : Profile) : Nat := bits p.pflags 3 2
def Profile.byteLevel (p : Profile) : Bool := bit p.pflags 4
def Profile.byteFallback (p : Profile) : Bool := bit p.pflags 5
def Profile.ws (p : Profile) (n : Nat) : Bool := bit p.wsflags n

/-! ### normalise (R131) -/

/-- Whether some canonical composition has the code point as its second. -/
def isSecond (d : Nat) : Bool :=
  (0x1161 ≤ d && d < 0x1176) || (0x11A8 ≤ d && d < 0x11C3) ||
  (decide (0x300 ≤ d) && (List.range Ucd.compCount).any (fun i => Ucd.recAt Ucd.comp 64 i % 2 ^ 21 == d))

/-- Whether some canonical composition has the code point as its first. -/
def isFirst (a : Nat) : Bool :=
  (0x1100 ≤ a && a < 0x1113) || (0xAC00 ≤ a && a < 0xD7A4 && (a - 0xAC00) % 28 == 0) ||
  (let i := Ucd.upTo (fun i => Ucd.recAt Ucd.comp 64 i % 2 ^ 42) (a * 2 ^ 21 + 2 ^ 21 - 1) 13 0 Ucd.compCount
   i != 0 && Ucd.recAt Ucd.comp 64 (i - 1) >>> 21 % 2 ^ 21 == a)

/-- Whether composition never joins a character to what stands before it. -/
def stableStart (k : Bool) : Chr → Bool
  | .raw _ => true
  | .cp n =>
    decide (n < 0x300) ||
    (let d := (Ucd.decompose k n).headD n
     Ucd.cccOf d == 0 && !isSecond d)

/-- Whether nothing that follows a character can change its composed form. -/
def finalAfter (k : Bool) (c : Chr) : Bool :=
  match (composed k [c]).getLast? with
  | some (.cp m) => Ucd.cccOf m == 0 && !isFirst m
  | _ => true

/-- Received characters cut where the composed form of what stands before is final: the decided ones, and those that await
composition. -/
def splitStable (k : Bool) (l : List TChr) : List TChr × List TChr :=
  let held := ((l.reverse.takeWhile (fun c => !stableStart k c.1)).length)
  let n := l.length - held
  -- the character at n - 1 begins the part that a later character may still change
  match n with
  | 0 => ([], l)
  | m + 1 =>
    match l.drop m with
    | [c] => if finalAfter k c.1 then (l, []) else (l.take m, [c])
    | tl => (l.take m, tl)

/-- The text of characters, with METASPACE applied (R131). -/
def textOf (p : Profile) (l : List Chr) : Text :=
  l.flatMap (fun c =>
    let c := if p.ws 5 && c.is 0x20 then .cp 0x2581 else c
    (c.bytes.zipIdx).map (fun x => (x.1, x.2 == 0)))

/-- The bytes with which the normal form of held characters can begin, each as a string; none when that is not known. -/
def nextBytes (p : Profile) (k : Bool) (held : List Chr) : List Bytes :=
  match held with
  | .cp n :: rest =>
    if !stableStart k (.cp n) then []
    else
      let d := (Ucd.decompose k n).headD n
      let now := (composed k (.cp n :: rest)).take 1
      let comps := ((List.range Ucd.compCount).map (fun i => Ucd.recAt Ucd.comp 64 i >>> 42)).filter
        (fun c => (Ucd.decompose false c).headD c == d)
      let hangul := if 0x1100 ≤ d && d < 0x1113 then [0xAC00 + 588 * (d - 0x1100), 0xAC00 + 588 * (d - 0x1100) + 587] else []
      (now ++ (comps ++ hangul).map Chr.cp).map (fun c => (Text.bytes (textOf p [c])).take 1)
  | .raw b :: _ => [[b]]
  | [] => []

/-- The strings with which the text can go on when a character certainly follows: whole where nothing later changes its form. -/
def nextOf (p : Profile) (k : Bool) (c : Chr) : List Bytes :=
  if p.form == 0 then [Text.bytes (textOf p [c])]
  else if finalAfter k c && (composed k [c]).length == 1 then [Text.bytes (textOf p (composed k [c]))]
  else nextBytes p k [c]

/-- The code points that a cut UTF-8 sequence may still become (R128). -/
def completions (left : Bytes) : List Nat :=
  match left with
  | [] => []
  | b :: rest =>
    let n := if b.toNat < 0xE0 then 1 else if b.toNat < 0xF0 then 2 else 3
    let v := rest.foldl (fun v x => v * 64 + x.toNat % 64) (b.toNat % 2 ^ (6 - n))
    let k := 64 ^ (n - rest.length)
    ((List.range k).map (v * k + ·)).filter (fun c => left.isPrefixOf (utf8Bytes c) && decide (c < 0x110000) && !(0xD800 ≤ c && c < 0xE000))

/-- What a cut sequence may turn out to be under a policy (R129); the refuse policy lets no ill-formed one in. -/
def sequels (pol : Policy) (left : Bytes) : List (List Chr) :=
  (completions left).map (fun c => [.cp c]) ++ (match pol with
    | .replace => [[.cp 0xFFFD]]
    | .refuse => []
    | .raw => [left.map .raw])

/-- The steps of normalise before the normal form (R131), on characters that the stream-safe step has passed. -/
def Profile.preForm (p : Profile) (first : Bool) (l0 : List TChr) : List TChr :=
  let l1 := if p.ws 0 then dropCr l0 else l0
  let l2 := if p.ws 1 then l1.filter (fun c => !isControl c.1) else l1
  let l3 := if p.ws 2 then l2.map (fun c => if isSpace c.1 then (.cp 0x20, c.2) else c) else l2
  let l4 := if p.ws 3 then collapse false l3 else l3
  let l5 := if p.ws 4 && first && !l4.isEmpty && !(l4.headD (.cp 0, 0)).1.is 0x20 then (.cp 0x20, 0) :: l4 else l4
  if p.caseMap == 1 then mapTracked lowerOf l5 else if p.caseMap == 2 then mapTracked foldOf l5 else l5

/-- What normalisation makes of the bytes received so far: the normalised text that is decided, the number of received bytes
that are not (R120), and the strings with which it may go on when it certainly does. -/
structure Norm where
  text : Text
  held : Nat
  nexts : List Bytes
  deriving DecidableEq, Repr

/-- normalise (R131) of a document, or of what has arrived of it when fin is clear. None where the refuse policy refuses. -/
def normalise (p : Profile) (pol : Policy) (first fin : Bool) (doc : Bytes) : Option Norm :=
  match utf8Decode pol fin doc.length doc with
  | none => none
  | some (cs, left) =>
    let ss := streamSafe 0 cs
    let cr := p.ws 0 && !fin && left.isEmpty && ((ss.getLast?.map (·.1)) == some (.cp 13))
    let l6 := p.preForm first (if cr then ss.dropLast else ss)
    let k := p.form == 2
    -- whatever a cut sequence becomes, a character may certainly follow that composes with nothing before it
    let follow := if fin then [] else (sequels pol left).map (fun x =>
      ((p.preForm first (streamSafe 0 (cs ++ x.map (fun c => (c, 1))))).drop l6.length).head?.map (·.1))
    let sure := !follow.isEmpty && follow.all (fun x => match x with
      | some c => p.form == 0 || stableStart k c
      | none => false)
    -- whatever an awaited carriage return becomes, nothing composes across it
    let (dec, held) := if p.form == 0 || fin || cr || sure then (l6, []) else splitStable k l6
    let ways := if sure then (follow.filterMap id).map (nextOf p k) else if cr then [[[0x0A#8], [0x0D#8]]]
      else if held.isEmpty then [] else [nextBytes p k (held.map (·.1))]
    let chars := dec.map (·.1)
    let out := if p.form == 0 then chars else composed k chars
    some { text := textOf p out,
           held := (held.map (·.2)).foldl (· + ·) 0 + (if cr then 1 else 0) + left.length,
           nexts := if ways.any List.isEmpty then [] else ways.flatten }

/-! ### find_literals (R132, R133) -/

/-- The enabled literals with their tokens. -/
def Vocab.literals (v : Vocab) (noSpecial : Bool) : List (Bytes × Nat) :=
  if noSpecial then [] else (v.special.filter (fun s => bit s.spfl 0)).map (fun s => (s.lit, s.canon))

/-- The longest literal at the front of a text. -/
def literalAt (lits : List (Bytes × Nat)) (t : Bytes) : Option (Bytes × Nat) :=
  minBy (fun l => 32 - l.1.length) (lits.filter (fun l => l.1.isPrefixOf t))

/-- A part of a text. -/
inductive Part where
  | plain (t : Text)
  | lit (bytes : Bytes) (token : Nat)
  deriving DecidableEq, Repr

/-- Whether two strings can both begin one text. -/
def agree (a b : Bytes) : Bool := a.isPrefixOf b || b.isPrefixOf a

/-- The decided parts of a text, the plain part that is still open at the end, and the bytes at which a literal may begin
that needs bytes still to come; with fuel. fin: nothing is to come. nexts: the strings that may come next. -/
def findLiterals (lits : List (Bytes × Nat)) (fin : Bool) (nexts : List Bytes) : Nat → Text → Text → List Part × Text × Text
  | 0, cur, t => ([], cur, t)
  | k + 1, cur, t =>
    match t with
    | [] => ([], cur, [])
    | c :: cs =>
      let bs := t.bytes
      let open_ := !fin && lits.any (fun l => decide (t.length < l.1.length) && bs.isPrefixOf l.1 &&
        (nexts.isEmpty || nexts.any (agree (l.1.drop t.length))))
      if open_ then ([], cur, t)
      else
        match literalAt lits bs with
        | some l =>
          let (ps, o, r) := findLiterals lits fin nexts k [] (t.drop l.1.length)
          ((if cur.isEmpty then [] else [.plain cur]) ++ .lit l.1 l.2 :: ps, o, r)
        | none => findLiterals lits fin nexts k (cur ++ [c]) cs

/-! ### presplit (R134, R135) and cut (R136) -/

/-- Length of the character at the front of a text. -/
def charLen (t : Text) : Nat := 1 + ((t.drop 1).takeWhile (fun x => !x.2)).length

/-- A run of the pre-split DFA: the last accepting position and whether it died. -/
def munch (p : Profile) : Nat → Nat → Option Nat → Text → Option Nat × Bool
  | st, _, last, [] => (last, st == 0)
  | st, n, last, c :: cs =>
    if st == 0 then (last, true)
    else
      let e := p.split.getD (256 * st + c.1.toNat) 0
      munch p (bits e 11 0) (n + 1) (if bit e 15 then some (n + 1) else last) cs

/-- The pre-tokens of a plain part and what is left undecided; fin: the part has ended. With fuel. -/
def presplit (p : Profile) (fin : Bool) : Nat → Text → List Text × Text
  | 0, t => ([], t)
  | k + 1, t =>
    if t.isEmpty then ([], [])
    else if p.splitStates == 1 then (if fin then ([t], []) else ([], t))
    else
      let (last, died) := munch p 1 0 none t
      if !fin && !died then ([], t)
      else
        let n := last.getD (charLen t)
        let (ws, r) := presplit p fin k (t.drop n)
        (t.take n :: ws, r)

/-- The largest character boundary of a text at or below k. -/
def boundaryBelow (t : Text) : Nat → Nat
  | 0 => 0
  | k + 1 => if (t.getD (k + 1) (0#8, true)).2 then k + 1 else boundaryBelow t k

/-- cut (R136), with fuel. -/
def cut : Nat → Text → List Text
  | 0, t => [t]
  | k + 1, t => if 4096 < t.length then let n := boundaryBelow t 4096; t.take n :: cut k (t.drop n) else [t]

/-- The pieces of a pre-token. -/
def piecesOf (t : Text) : List Text := cut (t.length / 4093 + 1) t

/-! ### segment (R138 to R143) -/

/-- The excluded score of R126. -/
def excluded : Nat := 0x80000000

/-- Whether a token is a special token of the profile. -/
def Vocab.isSpecial (v : Vocab) (c : Nat) : Bool := v.special.any (fun s => s.canon == c)

/-- Segmentable tokens (R125). -/
def Vocab.segmentable (v : Vocab) (c : Nat) : Bool :=
  !(v.prof.tokens.getD c []).isEmpty && !v.isSpecial c && (v.prof.algo != 1 || v.prof.scores.getD c 0 != excluded)

/-- The segmentable tokens whose bytes pass a test, ascending. -/
def Vocab.tokensWhere (v : Vocab) (f : Bytes → Bool) : List Nat :=
  ((v.prof.tokens.zipIdx).filter (fun x => f x.1 && v.segmentable x.2)).map (·.2)

/-- The representative of a byte string (R125): the segmentable token with the lowest model ID. -/
def Vocab.representative (v : Vocab) (b : Bytes) : Option Nat :=
  minBy (fun c => v.prof.c2m.getD c 0) (v.tokensWhere (fun x => x == b))

/-- The token of a byte. -/
def Profile.byteToken (p : Profile) (b : Byte) : Nat := p.byteIds.getD b.toNat 0

/-- unknown (R138). -/
def Vocab.unknown (v : Vocab) (c : Bytes) : List Nat :=
  if v.prof.byteLevel || v.prof.byteFallback then c.map v.prof.byteToken else [v.prof.unkId]

/-- The characters of a text, with fuel. -/
def charsOf : Nat → Text → List Bytes
  | 0, _ => []
  | k + 1, t => if t.isEmpty then [] else let n := charLen t; (Text.bytes (t.take n)) :: charsOf k (t.drop n)

/-- initial (R138). -/
def Vocab.initial (v : Vocab) (t : Text) : List Nat :=
  if v.prof.byteLevel then t.bytes.map v.prof.byteToken
  else (charsOf t.length t).flatMap (fun c => match v.representative c with | some x => [x] | none => v.unknown c)

/-- The merge of two adjacent symbols. -/
def Profile.merge (p : Profile) (a b : Nat) : Option Merge := p.merges.find? (fun m => m.left == a && m.right == b)

/-- The merge of lowest rank among the adjacent pairs, at its leftmost place (R139). -/
def Profile.bestMerge (p : Profile) : List Nat → Option (Nat × Merge)
  | [] => none
  | a :: rest =>
    let here := match rest with | [] => none | b :: _ => p.merge a b
    let later := (p.bestMerge rest).map (fun x => (x.1 + 1, x.2))
    match here, later with
    | none, l => l
    | some m, none => some (0, m)
    | some m, some l => if l.2.rank < m.rank then some l else some (0, m)

/-- bpe (R139), with fuel for the merges. -/
def Profile.bpe (p : Profile) : Nat → List Nat → List Nat
  | 0, s => s
  | k + 1, s =>
    match p.bestMerge s with
    | none => s
    | some (i, m) => p.bpe k (s.take i ++ m.result :: s.drop (i + 2))

/-- Whether a segmentation may begin or end at a position. -/
def Vocab.edgeAt (v : Vocab) (t : Text) (i : Nat) : Bool := v.prof.byteLevel || (t.getD i (0#8, true)).2

/-- The edge from i to j (R142): its tokens and its score. -/
def Vocab.edge (v : Vocab) (t : Text) (i j : Nat) : Option (List Nat × Int) :=
  let sub : Text := (t.drop i).take (j - i)
  if !(v.edgeAt t i && v.edgeAt t j) then none
  else
    match v.representative sub.bytes with
    | some c => some ([c], signed32 (v.prof.scores.getD c 0))
    | none =>
      if (if v.prof.byteLevel then j == i + 1 else charLen sub == sub.length) then some (v.unknown sub.bytes, v.prof.unkScore) else none

/-- best[j] of unigram from the best of the earlier positions (R142). -/
def Vocab.bestEnd (v : Vocab) (t : Text) (best : List (Option (Int × List Nat))) (j : Nat) : Option (Int × List Nat) :=
  (List.range j).foldl (fun b i =>
    if i + 128 < j then b
    else
      match best.getD i none, v.edge t i j with
      | some (sc, toks), some (ts, es) =>
        let w := sc + es
        match b with
        | none => some (w, toks ++ ts)
        | some (w0, _) => if w0 < w then some (w, toks ++ ts) else b
      | _, _ => b) none

/-- unigram (R142). -/
def Vocab.unigram (v : Vocab) (t : Text) : List Nat :=
  let best := (List.range t.length).foldl (fun bs i => bs ++ [v.bestEnd t bs (i + 1)]) [some (0, [])]
  match best.getD t.length none with
  | some (_, toks) => toks
  | none => []

/-- The longest token at the front of a text, with the prefix p before it (R143): its length in the text and the token. -/
def Vocab.longestAt (v : Vocab) (p : Bytes) (t : Text) : Nat → Option (Nat × Nat)
  | 0 => none
  | n + 1 =>
    match (if v.edgeAt t (n + 1) then v.representative (p ++ Text.bytes (t.take (n + 1))) else none) with
    | some c => some (n + 1, c)
    | none => v.longestAt p t n

/-- longest_match (R143) from a position on; none where WHOLE_UNK makes the whole piece unknown. With fuel. -/
def Vocab.longest (v : Vocab) (first : Bool) : Nat → Text → Option (List Nat)
  | 0, _ => some []
  | k + 1, t =>
    if t.isEmpty then some []
    else
      match v.longestAt (if first then [] else v.prof.cont.take v.prof.contLen) t (min t.length 128) with
      | some (n, c) => (v.longest false k (t.drop n)).map (c :: ·)
      | none =>
        if bit v.prof.lmflags 0 then none
        else
          let n := if v.prof.byteLevel then 1 else charLen t
          (v.longest false k (t.drop n)).map (v.unknown (Text.bytes (t.take n)) ++ ·)

/-- segment of a piece, as ALGO selects (R119). -/
def Vocab.segment (v : Vocab) (t : Text) : List Nat :=
  match v.prof.algo with
  | 0 => v.prof.bpe t.length (v.initial t)
  | 1 => v.unigram t
  | _ => (v.longest true t.length t).getD [v.prof.unkId]

/-! ### encode (R119, R120) -/

/-- A piece or a literal whose tokens are decided. -/
structure Item where
  bytes : Bytes
  plain : Bool
  toks : List Nat
  deriving DecidableEq, Repr

/-- The items of a pre-token. -/
def Vocab.wordItems (v : Vocab) (w : Text) : List Item :=
  (piecesOf w).map (fun t => { bytes := t.bytes, plain := true, toks := v.segment t })

/-- A string as the text of one character. -/
def charText (b : Bytes) : Text := (b.zipIdx).map (fun x => (x.1, x.2 == 0))

/-- The pre-tokens of an open plain part that every outcome agrees on (R120, R135): after are the texts that may follow it,
none when it is not known that one does, and ends tells whether a literal may end it. -/
def openWords (p : Profile) (data : Text) (after : List Text) (ends : Bool) : List Text :=
  let known (t : Text) : List Text :=
    let ws := (presplit p false t.length t).1
    -- words that lie within data
    let rec keep : Nat → List Text → List Text
      | _, [] => []
      | n, w :: ws => if n + w.length ≤ data.length then w :: keep (n + w.length) ws else []
    keep 0 ws
  if after.isEmpty then
    let ws := known data
    if (ws.map List.length).foldl (· + ·) 0 == data.length then ws.dropLast else ws
  else
    let outs := after.map (fun b => known (data ++ b)) ++ (if ends then [(presplit p true data.length data).1] else [])
    match outs with
    | [] => []
    | o :: os => ((o.zipIdx).takeWhile (fun w => os.all (fun x => x[w.2]? == some w.1))).map (·.1)

/-- The bytes that an undecided pre-token certainly has (R135, R136). -/
def sureOf (p : Profile) (t : Text) : Text :=
  if p.splitStates == 1 then t else t.take ((munch p 1 0 none t).1.getD 0)

/-- What a document gives so far. -/
structure EncOut where
  items : List Item
  tail : Nat
  lastWord : Option Text
  deriving DecidableEq, Repr

/-- The tokens of items. -/
def itemTokens (l : List Item) : List Nat := l.flatMap (·.toks)

/-- Bytes of items. -/
def itemBytes (l : List Item) : Nat := (l.map (·.bytes.length)).foldl (· + ·) 0

/-- encode (R119) of a document, or what is decided of an open one (R120). None where the refuse policy refuses. -/
def Vocab.encode (v : Vocab) (pol : Policy) (noSpecial first fin : Bool) (doc : Bytes) : Option EncOut :=
  (normalise v.prof pol first fin doc).map (fun n =>
    let lits := v.literals noSpecial
    let (parts, cur, rest) := findLiterals lits fin n.nexts (n.text.length + 1) [] n.text
    let wordsOf (t : Text) : List Text := (presplit v.prof true t.length t).1
    let done := parts.flatMap (fun p => match p with
      | .plain t => (wordsOf t).flatMap v.wordItems
      | .lit b c => [{ bytes := b, plain := false, toks := [c] }])
    if fin then
      let ws := wordsOf cur
      { items := done ++ ws.flatMap v.wordItems, tail := 0, lastWord := ws.getLast? }
    else
      let after := if rest.isEmpty then n.nexts.map charText else [rest]
      let ends := !rest.isEmpty || lits.any (fun l => n.nexts.any (agree l.1))
      let ws := openWords v.prof cur after ends
      let left := cur.drop ((ws.map List.length).foldl (· + ·) 0)
      let early := (piecesOf (sureOf v.prof left)).dropLast
      let items := done ++ ws.flatMap v.wordItems ++
        early.map (fun t => { bytes := t.bytes, plain := true, toks := v.segment t })
      { items := items, tail := n.text.length - itemBytes items + n.held, lastWord := none })

/-- The heal set of a heal text (R155): the segmentable tokens that begin with it. -/
def Vocab.healSet (v : Vocab) (heal : Bytes) : List Nat := v.tokensWhere (fun b => heal.isPrefixOf b)

/-- The items that hold the tokens after the first n. -/
def itemsAfter : Nat → List Item → List Item
  | _, [] => []
  | n, i :: is => if i.toks.length ≤ n then itemsAfter (n - i.toks.length) is else i :: is

end Sys2Proof.Machine
end

