-- ==== Sys2Proof/Machine/Decoder.lean ====
section
/-! DEFINITION. Decoding (chapter 05): render, utf8_out, stop_scan, the split into txt records, and dec.tok. -/
namespace Sys2Proof.Machine
open Sys2Proof

/-! ### render (R160, R163, R164) -/

/-- Decode settings as they apply: SPECIAL_OUT (0 profile, 1 render, 2 suppress) and raw output of ill-formed bytes. -/
structure DecSet where
  special : Nat
  raw : Bool
  deriving DecidableEq, Repr

/-- The output policy: 0b00 takes the profile's OUT_INVALID (R160, R162). -/
def rawOut (p : Profile) (v : Nat) : Bool := v == 2 || (v == 0 && p.outInvalid == 1)

/-- U+2581 replaced with U+0020 (META_TO_SPACE), with fuel. -/
def metaToSpace : Nat → Bytes → Bytes
  | 0, b => b
  | _, [] => []
  | k + 1, b :: bs =>
    if b == 0xE2#8 && bs.take 2 == [0x96#8, 0x81#8] then 0x20#8 :: metaToSpace k (bs.drop 2) else b :: metaToSpace k bs

/-- render (R163). heal is the heal text kept when tok is the first generated token; bare leaves out the U+0020 of CONT_JOIN
(R182). None for a suppressed special token. -/
def Vocab.render (v : Vocab) (d : DecSet) (heal : Bytes) (bare : Bool) (tok : Nat) : Option Bytes :=
  match v.special.find? (fun s => s.canon == tok) with
  | some s => if d.special == 2 || (d.special == 0 && !bit s.spfl 1) then none else some s.lit
  | none =>
    let b0 := v.prof.tokens.getD tok []
    let b1 := if !heal.isEmpty && heal.isPrefixOf b0 then b0.drop heal.length else b0
    let b2 :=
      if !bit v.prof.dflags 2 then b1
      else if (v.prof.cont.take v.prof.contLen).isPrefixOf b0 then b1.drop v.prof.contLen
      else if v.prof.byteIds.contains tok || bare then b1
      else 0x20#8 :: b1
    some (if bit v.prof.dflags 0 then metaToSpace b2.length b2 else b2)

/-! ### utf8_out (R165, R166) -/

/-- utf8_out: the decided bytes, the new carry, and the ill-formed subparts met; with fuel. fin: nothing follows, so a carry is
an ill-formed subpart (R166). -/
def utf8Out (raw fin : Bool) : Nat → Bytes → Bytes × Bytes × Nat
  | 0, b => ([], b, 0)
  | k + 1, b =>
    if b.isEmpty then ([], [], 0)
    else
      let bad (n : Nat) : Bytes × Bytes × Nat :=
        let (o, c, m) := utf8Out raw fin k (b.drop n)
        ((if raw then b.take n else [0xEF#8, 0xBF#8, 0xBD#8]) ++ o, c, m + 1)
      match utf8Front b with
      | .good n => let (o, c, m) := utf8Out raw fin k (b.drop n); (b.take n ++ o, c, m)
      | .bad n => bad n
      | .cut n => if fin then bad n else ([], b, 0)

/-! ### stop_scan (R167 to R171) -/

/-- A stop sequence as a stream has it: its store index, mode, bytes, and whether it is in the collision list. -/
structure StopSeq where
  index : Nat
  mode : Nat
  bytes : Bytes
  coll : Bool
  deriving DecidableEq, Repr

/-- What a scan has found: the last 63 output bytes of a stream with a stop list (R173), the bytes not released, false hits, whether a stop
ended the output, and the keys searched in Beryl (R171). -/
structure Scan where
  window : Bytes
  open_ : Bytes
  falseHits : Nat
  stopped : Bool
  keys : List Nat := []
  deriving DecidableEq, Repr

/-- The last n bytes. -/
def lastBytes (n : Nat) (b : Bytes) : Bytes := b.drop (b.length - n)

/-- Whether the last bytes of an output equal a string. -/
def endsWith (out s : Bytes) : Bool := s.isSuffixOf out

/-- One output byte (R167, R169, R171). -/
def scanByte (stops : List StopSeq) (s : Scan) (x : Byte) : Scan :=
  if s.stopped then s
  else
    let out := s.window ++ [x]
    -- one search for each length of a string that ends in the byte; the string that a hit names need not end in it
    let lens := (((stops.filter (fun t => t.bytes.getLast? == some x)).map (·.bytes.length)).eraseDups).filter (fun n => decide (n ≤ out.length))
    let keys := lens.map (fun n => stopKey (lastBytes n out))
    let fps := stops.filter (fun t => !t.coll && keys.contains (stopKey t.bytes) && !endsWith out t.bytes)
    let s1 := { s with window := if stops.isEmpty then [] else lastBytes 63 out, open_ := s.open_ ++ [x], falseHits := s.falseHits + fps.length,
                       keys := s.keys ++ keys }
    match minBy (fun t => 64 - t.bytes.length) (stops.filter (fun t => endsWith out t.bytes)) with
    | none => s1
    | some t =>
      { s1 with stopped := true, open_ := if t.mode == 1 then s1.open_ else s1.open_.take (s1.open_.length - t.bytes.length) }

/-- Length of the hold-back: the longest suffix of the window that is a proper prefix of a MODE 0 stop (R168). -/
def holdBack (stops : List StopSeq) (window : Bytes) : Nat :=
  (((List.range 64).filter (fun n => decide (n ≤ window.length) && stops.any (fun t =>
    t.mode == 0 && decide (n < t.bytes.length) && (lastBytes n window).isPrefixOf t.bytes))).getLast?).getD 0

/-- stop_scan of output bytes from a decode state. -/
def stopScan (stops : List StopSeq) (d : Dec) (out : Bytes) : Scan :=
  out.foldl (scanByte stops) { window := d.window, open_ := lastBytes d.hold d.window, falseHits := 0, stopped := false }

/-! ### txt records (R71, R153, R174, R183) -/

/-- A byte string cut into runs of at most n bytes at character boundaries or after a raw ill-formed byte (R174), with fuel
for its characters; cur is the run so far. -/
def splitRuns (n : Nat) : Nat → Bytes → Bytes → List Bytes
  | 0, cur, b => [cur ++ b]
  | k + 1, cur, b =>
    if b.isEmpty then [cur]
    else
      let m := match utf8Front b with | .good m => m | _ => 1
      if cur.length + m ≤ n then splitRuns n k (cur ++ b.take m) (b.drop m)
      else cur :: splitRuns n k (b.take m) (b.drop m)

/-- The txt records of a text: CONT on all but the last, the last record's flags on the last one. -/
def txtRecs (stream step index flags lastFlags time : Nat) (runs : List Bytes) : List Rec :=
  let n := runs.length
  (runs.zipIdx).map (fun x => .txt
    { stream := stream, cont := decide (x.2 + 1 < n), step := step, index := index,
      tflags := if x.2 + 1 < n then flags else flags ||| lastFlags, time := time, data := x.1 })

/-- Hands records to a ring in order. -/
def State.egressAll (n : Nat) (who : Option Nat) (l : List Rec) (s : State) : State :=
  l.foldl (fun s r => s.egressFor n who r) s

/-! ### dec.tok (R180 to R183) -/

/-- What dec.tok has rendered: bytes, whether a word token was rendered, special tokens suppressed. -/
structure DecTok where
  out : Bytes
  word : Bool
  suppressed : Nat
  deriving DecidableEq, Repr

/-- One token of dec.tok (R182). -/
def Vocab.decTokStep (v : Vocab) (d : DecSet) (a : DecTok) (tok : Nat) : DecTok :=
  match v.render d [] (!a.word) tok with
  | none => { a with suppressed := a.suppressed + 1 }
  | some b => { a with out := a.out ++ b, word := a.word || !v.isSpecial tok }

/-- dec.tok of canonical tokens: bytes, special tokens suppressed, ill-formed subparts (R182, R183). -/
def Vocab.decTok (v : Vocab) (d : DecSet) (toks : List Nat) : Bytes × Nat × Nat :=
  let a := toks.foldl (v.decTokStep d) { out := [], word := false, suppressed := 0 }
  let b := if bit v.prof.dflags 1 && a.out.headD 0#8 == 0x20#8 then a.out.drop 1 else a.out
  let (o, _, m) := utf8Out d.raw true b.length b
  (o, a.suppressed, m)

/-- The resident version that a stream latched (R112). -/
def State.versionOf (s : State) (t : Stream) : Option Version := s.img.versions.find? (fun v => v.uid == t.id.vuid)

/-- The version that an enc or dec packet uses (R151, R181): that of its stream, or the committed one of PROFILE. -/
def State.packetVersion (s : State) (p : Pkt) : Option Version :=
  if p.standalone then s.committed (bits p.arg 3 0)
  else match s.live? p.stream with
    | some t => s.versionOf t
    | none => none

/-- Canonical IDs of model IDs. -/
def Profile.toCanon (p : Profile) (l : List Nat) : List Nat := l.map (fun m => p.m2c.getD m 0)

/-- Model IDs of canonical IDs. -/
def Profile.toModel (p : Profile) (l : List Nat) : List Nat := l.map (fun c => p.c2m.getD c 0)

/-- Decode settings of a dec.tok packet (R180). -/
def decTokSet (p : Pkt) (v : Version) (t : Option Stream) : DecSet :=
  let sp := bits p.opflags 1 0
  let oi := bits p.opflags 3 2
  { special := if sp != 0 then sp else (t.map (·.id.specialOut)).getD 0,
    raw := rawOut v.prof (if oi != 0 then oi else (t.map (·.id.outInvalid)).getD 0) }

/-- dec.tok (R180 to R183). -/
def decTokWork (p : Pkt) (s : State) : State :=
  match s.packetVersion p with
  | none => s.refuse p stNotResident
  | some v =>
    let ids := tokenIds p.payload
    if ids.any (fun m => decide (v.prof.vocab ≤ m)) then s.refuse p stBadPacket
    else
      let t := if p.standalone then none else s.live? p.stream
      let (o, sup, bad) := v.vocab.decTok (decTokSet p v t) (v.prof.toCanon ids)
      let recs := txtRecs p.stream 0 p.tag 0 0 s.now (splitRuns 4064 o.length [] o)
      (s.egressAll p.ring p.named recs).done p 0 (some o.length) (some (ids.length + sup * 2 ^ 24)) (some bad)

/-- DEC_TOK (R180). -/
def execDecTok (dt ap pos : Nat) (s : State) : Res := .next ((s.elapse dt).runPacket (isOp 0x0501) ap pos decTokWork)

end Sys2Proof.Machine
end

