-- ==== Sys2Proof/Machine/Grammar.lean ====
section
/-! DEFINITION. Grammars (chapter 06) and shutters as sets (chapter 07): the reference functions over Garnet tables. Stacks are
kept top first inside these functions. -/
namespace Sys2Proof.Machine
open Sys2Proof

/-! ### The automaton (R193 to R195) -/

/-- NEXT of a lexer state on a byte (R200). -/
def GTables.next (g : GTables) (l : Nat) (x : Byte) : Nat :=
  g.trans.getD (l * g.classes + g.byteClass.getD x.toNat 0) 0

/-- Terminal sets of a lexer state: ACCEPT and REACH (R200). -/
def GTables.acceptSet (g : GTables) (l : Nat) : List (Bool × Nat) := g.tsets.getD (g.lexInfo.getD l (0, 0)).1 []
def GTables.reachSet (g : GTables) (l : Nat) : List (Bool × Nat) := g.tsets.getD (g.lexInfo.getD l (0, 0)).2 []

/-- The action of a terminal in a stack symbol; none for error (R202). -/
def GTables.actionOf (g : GTables) (sym term : Nat) : Option ActEnt := (g.action.getD sym []).find? (fun a => a.term == term)

/-- The goto of a nonterminal in a stack symbol. -/
def GTables.gotoOf (g : GTables) (sym nt : Nat) : Option Nat := assoc (g.gotos.getD sym []) nt

/-- The reduce loop of take_terminal: up to the given number of reductions. The result is the stack after a shift, or, with
accept set for terminal 0, the stack at accept. A reduction that pops the whole stack has no top: the advance fails (log 135). -/
def GTables.reduceLoop (g : GTables) (t : Nat) : Nat → List Nat → Option (List Nat × Bool)
  | 0, _ => none
  | k + 1, st =>
    match g.actionOf (st.headD 0) t with
    | none => none
    | some a =>
      if a.kind == 1 then some (a.target :: st, false)
      else if a.kind == 2 then
        let r := g.rules.getD a.target (0, 0)
        match st.drop r.2 with
        | [] => none
        | top :: rest =>
          match g.gotoOf top r.1 with
          | none => none
          | some s => g.reduceLoop t k (s :: top :: rest)
      else some (st, true)

/-- take_terminal (R193): one loop pass for each reduction and one for the shift. -/
def GTables.takeTerminal (g : GTables) (set : List (Bool × Nat)) (st : List Nat) : Option (List Nat) :=
  if set.any (·.1) then some st
  else
    match set.find? (fun e => (g.actionOf (st.headD 0) e.2).isSome) with
    | none => none
    | some e =>
      match g.reduceLoop e.2 1025 st with
      | some (st', false) => some st'
      | _ => none

/-- A lexer state and a stack, top first. -/
structure LexStack where
  lex : Nat
  st : List Nat
  deriving DecidableEq, Repr

/-- advance_byte (R193). -/
def GTables.advanceByte (g : GTables) (q : LexStack) (x : Byte) : Option LexStack :=
  let n := g.next q.lex x
  if n != 0 then some { q with lex := n }
  else if q.lex == 1 then none
  else
    match g.takeTerminal (g.acceptSet q.lex) q.st with
    | none => none
    | some st =>
      let m := g.next 1 x
      if m == 0 then none else some { lex := m, st := st }

/-- advance_byte over a byte string. -/
def GTables.advance (g : GTables) : LexStack → Bytes → Option LexStack
  | q, [] => some q
  | q, x :: xs =>
    match g.advanceByte q x with
    | none => none
    | some q' => g.advance q' xs

/-- The viability test of allowed (R194). -/
def GTables.viable (g : GTables) (q : LexStack) : Bool :=
  q.lex == 1 || (g.reachSet q.lex).any (·.1) ||
  (g.reachSet q.lex).any (fun e => (g.actionOf (q.st.headD 0) e.2).isSome)

/-- The depth guard of allowed (R194). -/
def depthOk (before after : List Nat) : Bool := !(decide (960 < before.length) && decide (before.length < after.length))

/-- Lexer state and stack of a parse state. -/
def Parse.at_ (ps : Parse) : LexStack := { lex := ps.lex, st := ps.stack.reverse }

/-- allowed (R194) for a byte string in an ACTIVE parse state. -/
def GTables.allowedBytes (g : GTables) (q : LexStack) (b : Bytes) : Bool :=
  match g.advance q b with
  | none => false
  | some q' => g.viable q' && depthOk q.st q'.st

/-- accepting (R195). -/
def GTables.accepting (g : GTables) (q : LexStack) : Bool :=
  let st := if q.lex == 1 then some q.st else g.takeTerminal (g.acceptSet q.lex) q.st
  match st with
  | none => false
  | some st =>
    match g.reduceLoop 0 1025 st with
    | some (_, true) => true
    | _ => false

/-- The grammar bytes of a token (06 "The grammar language"): a byte token's one byte, any other word token's rendering; none for a special
token. -/
def Vocab.grammarBytes (v : Vocab) (tok : Nat) : Option Bytes :=
  if v.isSpecial tok then none
  else match v.prof.byteIds.idxOf? tok with
    | some k => some [BitVec.ofNat 8 k]
    | none => v.render { special := 0, raw := false } [] false tok

/-- The bytes with which a token continues a heal text as the first generated token (R233). -/
def Vocab.healBytes (v : Vocab) (heal : Bytes) (tok : Nat) : Bytes :=
  (v.render { special := 0, raw := false } heal false tok).getD []

/-- allowed (R194). -/
def allowed (v : Vocab) (g : GTables) (ps : Parse) (tok : Nat) : Bool :=
  match ps.gstate with
  | .none => true
  | .broken => true
  | .complete => g.ends.contains tok
  | .active =>
    match v.grammarBytes tok with
    | none => g.ends.contains tok && g.accepting ps.at_
    | some b => g.allowedBytes ps.at_ b

/-- The initial parse state of a grammar (R192), its stack not yet in the pool. -/
def Parse.initial (gid guid : Nat) : Parse := { gid := gid, guid := guid, gstate := .active, lex := 1, stack := [0], spilled := 1 }

/-- The parse state after a committed token with its grammar bytes (none for a special token): inside tells whether the shutter
held the token (R196, R246). -/
def Parse.commit (g : GTables) (ps : Parse) (b : Option Bytes) (tok : Nat) (inside : Bool) : Parse :=
  let broken (c : Nat) : Parse := { ps with gstate := .broken, bcause := c }
  match ps.gstate with
  | .none => ps
  | .broken => ps
  | .complete => if inside then ps else broken 1
  | .active =>
    if !inside then broken 1
    else
      match b with
      | none => if g.ends.contains tok then { ps with gstate := .complete } else broken 4
      | some b =>
        match g.advance ps.at_ b with
        | none => broken 4
        | some q =>
          let st := q.st.reverse
          let kept := min ps.spilled ((st.zip ps.stack).takeWhile (fun x => x.1 == x.2)).length
          { ps with lex := q.lex, stack := st, spilled := kept }

/-! ### Configurations and pane records (R203, R219 to R222) -/

/-- The configuration of a lexer state and top symbol (R203): from its slot on, at most 8 probes, ended by an empty one. -/
def GTables.configAt (g : GTables) (lex top : Nat) : Option GConfig :=
  let first := crc32c (leBytes 4 (lex + 65536 * top)) % max 1 g.ctSlots
  let rec probe : Nat → Nat → Option GConfig
    | 0, _ => none
    | k + 1, i =>
      match g.config.getD i none with
      | none => none
      | some c => if c.lex == lex && c.top == top then some c else probe k (if i + 1 < g.ctSlots then i + 1 else 0)
  probe 8 first

/-- The configuration of a parse state. -/
def GTables.configOf (g : GTables) (ps : Parse) : Option GConfig := g.configAt ps.lex (ps.stack.getLast?.getD 0)

/-- The configuration with an INDEX. -/
def GTables.configNum (g : GTables) (i : Nat) : Option GConfig := (g.config.filterMap id).find? (fun c => c.index == i)

/-- The pane record at an offset. -/
def GTables.paneAt (g : GTables) (off : Nat) : PaneSet := (g.panes.find? (fun p => p.off == off)).getD {}

/-- Membership of a canonical ID in a pane record (R220, R221). -/
def PaneSet.has (p : PaneSet) (c : Nat) : Bool :=
  match p.codes.getD (c / 1024) 0 with
  | 1 => true
  | 2 => (p.leaves.getD ((p.codes.take (c / 1024)).filter (· == 2)).length 0).testBit (c % 1024)
  | _ => false

/-! ### Casement checks and the shutter as a set (R207, R225, R226, R233) -/

/-- A casement check of a CD entry on a parse state (R207). -/
def GTables.check (g : GTables) (ps : Parse) (e : CdEnt) : Bool :=
  let q := ps.at_
  if e.token == 0xFFFFF then g.accepting q
  else
    match e.sets.foldl (fun st i => st.bind (g.takeTerminal (g.tsets.getD i []))) (some q.st) with
    | none => false
    | some st => g.viable { lex := e.finalLex, st := st } && depthOk q.st st

/-- The CD result of a configuration. -/
def GTables.cdBits (g : GTables) (ps : Parse) (c : GConfig) : List Bool := c.cd.map (g.check ps)

/-- END_OK of a configuration with its CD result (R225). -/
def endOkOf (c : GConfig) (bits : List Bool) : Bool :=
  c.eclass == 1 || (c.eclass == 2 && bits.getD (c.cd.length - 1) false)

/-- The heal list (R233): heal-set tokens whose continuation the initial parse state allows, ascending. A token that equals the
heal text is always allowed (R156). -/
def healList (v : Vocab) (g : Option GTables) (heal : Bytes) : List Nat :=
  (v.healSet heal).filter (fun c => match g with
    | none => true
    | some g => v.prof.tokens.getD c [] == heal || g.allowedBytes { lex := 1, st := [0] } (v.healBytes heal c))

/-- in_shutter (R226). bits is the CD result that the descriptor names. -/
def inShutter (v : Vocab) (g : GTables) (d : Shutter) (cdBits : List Bool) (c : Nat) : Bool :=
  if v.prof.vocab ≤ c then false
  else
    match d.kind with
    | .open => true
    | .heal => match d.result with | .heal l _ => l.contains c | _ => false
    | _ =>
      if v.isSpecial c then g.ends.contains c && d.endOk
      else
        (match d.base with | some off => (g.paneAt off).has c | none => false) ||
        (d.result != .none &&
          (match g.configNum d.config with
          | some cfg => (cfg.cd.zip cdBits).any (fun e => e.1.token == c && e.2)
          | none => false))

end Sys2Proof.Machine
end

