-- ==== Sys2Proof/Machine/Shutter.lean ====
section
/-! DEFINITION. Shutters in the machine (chapter 07): the shutter pool and cache, casement credit, builds, stack chunks. -/
namespace Sys2Proof.Machine
open Sys2Proof

/-! ### Units in service (R11, R90, R461) -/

/-- Whether a unit is in service. -/
def State.inService (s : State) (kind inst : Nat) : Bool :=
  s.mem.units.any (fun u => u.kind == kind && u.inst == inst && u.inService)

/-- A profile's entry of the frame partition (R87). -/
def State.partition (s : State) (n : Nat) : Nat × Nat × Nat × Nat := s.img.frame.partition.getD n (0, 0, 0, 0)

/-- The in-service units of a kind that a bit mask gives. -/
def State.unitsIn (s : State) (kind mask : Nat) : List Nat := (bitList (kindCount kind) mask).filter (s.inService kind)

/-- The frame's mask of units of a kind for a profile (R87). -/
def State.unitMask (s : State) (kind profile : Nat) : Nat :=
  let (a, b, c, d) := s.partition profile
  [a, b, d, c].getD kind 0

/-- The in-service units of a kind that the frame gives a profile (R87). -/
def State.ownUnits (s : State) (kind profile : Nat) : List Nat := s.unitsIn kind (s.unitMask kind profile)

/-- The in-service units of a kind that serve a profile, ascending: those of the frame, and one that is lent to it (R87, R458). -/
def State.serving_ (s : State) (kind profile : Nat) : List Nat :=
  (s.mem.loans.filter (fun l => l.1 == kind && l.2.1 == profile && s.inService kind l.2.2)).foldl
    (fun us l => if us.contains l.2.2 then us else insertBy (fun a b => decide (a < b)) l.2.2 us) (s.ownUnits kind profile)

/-- The in-service casement units that serve a profile's grammars (R235). -/
def State.casements (s : State) (profile : Nat) : List Nat := s.serving_ 2 profile

/-- The in-service facets that serve a profile (R265). -/
def State.facets (s : State) (profile : Nat) : List Nat := s.serving_ 3 profile

/-! ### Grammars of streams -/

/-- A resident grammar by the model's name. -/
def State.gram? (s : State) (guid : Nat) : Option Gram := s.img.grams.find? (fun g => g.uid == guid)

/-- The tables of a parse state's grammar; empty ones where it has none. -/
def State.tables (s : State) (ps : Parse) : GTables :=
  match s.gram? ps.guid with
  | some g => g.body.tab
  | none => {}

/-- The vocabulary that a stream latched (R112). -/
def State.vocabOf (s : State) (t : Stream) : Vocab :=
  match s.versionOf t with
  | some v => v.vocab
  | none => { prof := {}, special := [] }

/-- Whether heal text is kept and no generated token has been committed (R218). -/
def Stream.healing (t : Stream) : Bool := t.enc.heal.isSome && t.generated == 0

/-! ### The shutter pool and cache (R229 to R232) -/

/-- 64-byte blocks of the shutter pool (R229). -/
def State.shutterBlocks (s : State) : Nat := s.pool 1 / 8 / 64

/-- Most entries of the cache (R229). -/
def State.cacheMax (s : State) : Nat := s.shutterBlocks / 4

/-- Blocks of a CD result of n bits (R229). -/
def resultBlocks (n : Nat) : Nat := 1 + ceilDiv n 512

/-- The descriptors of a stream: its own and those of its draft nodes. -/
def Stream.descs (t : Stream) : List Shutter :=
  t.shutter :: (match t.tree with | some tr => tr.nodes.map (·.shutter) | none => [])

/-- Every descriptor. -/
def State.descs (s : State) : List Shutter := s.str.tab.flatMap Stream.descs

/-- Descriptors that name a cache entry (R231). -/
def State.named (s : State) (num : Nat) : Nat := (s.descs.filter (fun d => d.result == .cached num)).length

/-- The cache entry with a number. -/
def State.entry? (s : State) (num : Nat) : Option CacheEnt := s.str.cache.find? (fun e => e.num == num)

/-- The CD result that a descriptor names. -/
def State.cdResult (s : State) (d : Shutter) : List Bool :=
  match d.result with
  | .cached n => (match s.entry? n with | some e => e.bits | none => [])
  | .priv b _ => b
  | _ => []

/-- The blocks that a private result or a heal list lies in (R230, R233). -/
def descBlocks (d : Shutter) : List Nat :=
  match d.result with
  | .priv _ l => l
  | .heal _ l => l
  | _ => []

/-- Blocks in use, those of unnamed cache entries left out (R235). -/
def State.blocksUsed (s : State) : Nat :=
  ((s.str.cache.filter (fun e => s.named e.num != 0)).map (·.blocks.length)).foldl (· + ·) 0 +
  (s.descs.map (fun d => (descBlocks d).length)).foldl (· + ·) 0 + (s.str.builds.map (·.blocks)).foldl (· + ·) 0

/-- Blocks of unnamed cache entries. -/
def State.blocksUnnamed (s : State) : Nat :=
  ((s.str.cache.filter (fun e => s.named e.num == 0)).map (·.blocks.length)).foldl (· + ·) 0

/-- The lowest k blocks of the shutter pool that no entry, private result or heal list lies in (log 16). -/
def State.takeBlocks (s : State) (k : Nat) : List Nat :=
  let used := s.str.cache.flatMap (·.blocks) ++ s.descs.flatMap descBlocks
  firstFree (fun b => !used.contains b) (used.length + k) k

/-- The cache key of a parse state in a configuration (R230). -/
def GTables.keyTop (g : GTables) (ps : Parse) : List Nat := ps.stack.reverse.take (min ps.stack.length (g.popLimit + 1))

/-- cache_find (R230). -/
def State.cacheFind (s : State) (guid config : Nat) (guard : Bool) (top : List Nat) : Option CacheEnt :=
  s.str.cache.find? (fun e => e.guid == guid && e.config == config && e.guard == guard && e.top == top)

/-- Evicts unnamed entries, least recently named first, until k further blocks fit, and for a new entry its place in the cache, or none is
left; with fuel (R231). -/
def State.evict (k : Nat) (entry : Bool) : Nat → State → State
  | 0, s => s
  | n + 1, s =>
    if (!entry || decide (s.str.cache.length < s.cacheMax)) && decide (s.blocksUsed + s.blocksUnnamed + k ≤ s.shutterBlocks) then s
    else
      match minBy (fun e => e.lastNamed) (s.str.cache.filter (fun e => s.named e.num == 0)) with
      | none => s
      | some e => State.evict k entry n (s.onStr (fun g => { g with cache := g.cache.filter (fun x => x.num != e.num) }))

/-- cache_insert (R231, R232): the first entry of a key stays; with the cache full of named entries the result is private. -/
def State.cacheInsert (guid config : Nat) (guard : Bool) (top : List Nat) (bits : List Bool) (s : State) : State × SResult :=
  match s.cacheFind guid config guard top with
  | some e => (s, .cached e.num)
  | none =>
    let k := resultBlocks bits.length
    let s1 := State.evict k true s.str.cache.length s
    if s1.str.cache.length < s1.cacheMax then
      let n := s1.str.nextCache
      let e : CacheEnt := { num := n, guid := guid, config := config, guard := guard, top := top, bits := bits,
                            blocks := s1.takeBlocks k, lastNamed := s1.aon.time }
      (s1.onStr (fun g => { g with cache := g.cache ++ [e], nextCache := n + 1 }), .cached n)
    else (s1, .priv bits (s1.takeBlocks k))

/-- A private result (R230): it takes its blocks, and no lookup finds it. -/
def State.privInsert (bits : List Bool) (s : State) : State × SResult :=
  let k := resultBlocks bits.length
  let s1 := State.evict k false s.str.cache.length s
  (s1, .priv bits (s1.takeBlocks k))

/-- Whether a grammar has been replaced by one with its ID: its results are not cached any longer (R232, log 62). -/
def State.replacedGram (s : State) (guid : Nat) : Bool :=
  match s.gram? guid with
  | some g => !g.inSet && s.img.grams.any (fun x => x.inSet && x.id == g.id)
  | none => false

/-- Marks the entry that a result names as named now (R231). -/
def State.touch (r : SResult) (s : State) : State :=
  match r with
  | .cached n => s.onStr (fun g => { g with cache := g.cache.map (fun e => if e.num == n then { e with lastNamed := s.aon.time } else e) })
  | _ => s

/-- Every entry of a grammar is discarded (R232). -/
def State.dropCache (guid : Nat) (s : State) : State :=
  s.onStr (fun g => { g with cache := g.cache.filter (fun e => e.guid != guid) })

/-! ### build (R225) -/

/-- The parse state and descriptor of a node; node 0 is the stream itself (R360). -/
def Stream.nodeAt (t : Stream) (node : Nat) : Option (Parse × Shutter) :=
  if node == 0 then some (t.parse, t.shutter)
  else match t.tree with
    | none => none
    | some tr => (tr.nodes[node - 1]?).map (fun n => (n.parse, n.shutter))

/-- Sets the parse state and descriptor of a node; a break of the stream's own grammar is remembered for BROKE (R248). -/
def State.setNode (slot node : Nat) (ps : Parse) (d : Shutter) (s : State) : State :=
  s.onStream slot (fun t =>
    if node == 0 then
      { t with parse := ps, shutter := d, broke := t.broke || (ps.gstate == .broken && t.parse.gstate != .broken) }
    else match t.tree with
      | none => t
      | some tr =>
        let nodes := modifyAt tr.nodes (node - 1) (fun n =>
          { n with parse := ps, shutter := d, broken := n.broken || ps.gstate == .broken })
        { t with tree := some { tr with nodes := nodes } })

/-- build (R225). -/
def State.build (slot node : Nat) (s : State) : State :=
  match s.stream? slot with
  | none => s
  | some t =>
    match t.nodeAt node with
    | none => s
    | some (ps, _) =>
      let g := s.tables ps
      let d0 : Shutter := { guid := ps.guid }
      if node == 0 && t.healing then
        let heal := (t.enc.heal.map (·.1)).getD []
        let l := healList (s.vocabOf t) (if ps.gstate == .none then none else some g) heal
        let k := ceilDiv l.length 15
        let s1 := State.evict k false s.str.cache.length s
        s1.setNode slot node ps { d0 with kind := .heal, result := .heal l (s1.takeBlocks k) }
      else
        match ps.gstate with
        | .none => s.setNode slot node ps d0
        | .broken => s.setNode slot node ps d0
        | .complete => s.setNode slot node ps { d0 with kind := .ready, endOk := true }
        | .active =>
          match g.configOf ps with
          | none => s.setNode slot node { ps with gstate := .broken, bcause := 2 } d0
          | some c =>
            let guard := decide (960 < ps.stack.length)
            let d1 : Shutter := { d0 with kind := .ready, base := some (if guard then c.guard else c.pane), guard := guard,
                                          config := c.index }
            if c.cd.isEmpty then s.setNode slot node ps { d1 with endOk := c.eclass == 1 }
            else
              let top := g.keyTop ps
              let cached := decide (g.popLimit ≤ 15) && !s.replacedGram ps.guid
              let hit := if cached then s.cacheFind ps.guid c.index guard top else none
              let bits := match hit with | some e => e.bits | none => g.cdBits ps c
              let (s1, r) := match hit with
                | some e => (s, SResult.cached e.num)
                | none => if cached then s.cacheInsert ps.guid c.index guard top bits else s.privInsert bits
              (s1.setNode slot node ps { d1 with result := r, endOk := endOkOf c bits }).touch r

/-! ### Casement credit (R235, R236) -/

/-- The credit of a casement unit (R235). -/
def casementCredit : Nat := 9064

/-- Clocks charged on a unit. -/
def State.charged (s : State) (u : Nat) : Nat :=
  ((s.str.builds.filter (fun b => b.units.contains u)).map (·.share)).foldl (· + ·) 0

/-- A build's share of a cost on U units (R235). -/
def shareOf (cost units : Nat) : Nat := ceilDiv cost (max 1 units) + 64

/-- What the build after a commit in a parse state charges: its units, the share on each, and the blocks it reserves (R235,
R236). -/
def State.chargeOf (s : State) (t : Stream) (ps : Parse) : List Nat × Nat × Nat :=
  if ps.gstate == .active then
    let us := s.casements t.id.profile
    let cdLimit := match s.gram? ps.guid with | some g => g.body.cdLimit | none => 0
    (us, shareOf (s.tables ps).cdCost us.length, resultBlocks cdLimit)
  else ([], 0, 0)

/-- Whether a charge fits: on every unit, or with the whole credit free where it exceeds it, and no build holds the unit alone; and its
blocks (R235, R236). -/
def State.chargeFits (s : State) (c : List Nat × Nat × Nat) : Bool :=
  c.1.all (fun u => !s.str.builds.any (fun b => b.sole.contains u) &&
    (decide (s.charged u + c.2.1 ≤ casementCredit) || (decide (casementCredit < c.2.1) && s.charged u == 0))) &&
  decide (s.blocksUsed + c.2.2 ≤ s.shutterBlocks)

/-- The charge after the advance: that of the configuration's own cost, and none on a cache hit or without context-dependent
tokens (R236). -/
def State.reducedCharge (s : State) (t : Stream) (ps : Parse) : List Nat × Nat × Nat :=
  let g := s.tables ps
  match (if ps.gstate == .active then g.configOf ps else none) with
  | none => ([], 0, 0)
  | some c =>
    if c.cd.isEmpty then ([], 0, 0)
    else if decide (g.popLimit ≤ 15) && (s.cacheFind ps.guid c.index (decide (960 < ps.stack.length)) (g.keyTop ps)).isSome then
      ([], 0, 0)
    else
      let us := s.casements t.id.profile
      (us, shareOf c.cost us.length, resultBlocks c.cd.length)

/-- Drops every build of a stream: its credit and blocks return (R242). -/
def State.dropBuilds (slot : Nat) (s : State) : State :=
  s.onStr (fun g => { g with builds := g.builds.filter (fun b => b.slot != slot) })

/-- Queues a background build of a stream's own shutter (R228), once. -/
def State.queueBackground (slot : Nat) (s : State) : State :=
  if s.str.builds.any (fun b => b.slot == slot && b.node == 0) then s
  else
    let b : Build := { slot := slot, node := 0, background := true, running := false, units := [], share := 0, blocks := 0,
                       began := s.aon.time }
    (s.onStream slot (fun t => { t with shutter := { kind := .pending, guid := t.parse.guid } })).onStr
      (fun g => { g with builds := g.builds ++ [b] })

/-- A stream's first or renewed shutter, its parse state given: OPEN where nothing constrains it, else a background build
(R228). -/
def State.renewShutter (slot : Nat) (s : State) : State :=
  match s.stream? slot with
  | none => s
  | some t =>
    if t.parse.gstate == .none && !t.healing then s.onStream slot (fun t => { t with shutter := {} }) else s.queueBackground slot

/-- The hard bound of a committed build in ns (R237). -/
def buildBound (cdCost units : Nat) : Nat :=
  let k := ceilDiv cdCost (max 1 units)
  if k ≤ 9000 then 5792 else 1260 + (k + 64) / 2

/-- Begins a build with credit: a committed build (node 0) or a tree build (R227, R360). -/
def State.beginBuild (slot node : Nat) (s : State) : State :=
  match s.stream? slot with
  | none => s
  | some t =>
    match t.nodeAt node with
    | none => s
    | some (ps, _) =>
      -- the descriptor releases its entry before the new charge is reckoned (R231)
      let s1 := s.setNode slot node ps { kind := .building, guid := ps.guid }
      let c := s1.reducedCharge t ps
      let b : Build := { slot := slot, node := node, background := false, running := true, units := c.1, share := c.2.1,
                         blocks := c.2.2, began := s.aon.time, clock := s.aon.garnet,
                         bound := buildBound (s.tables ps).cdCost (s.casements t.id.profile).length,
                         sole := if casementCredit < (s.chargeOf t ps).2.1 then c.1 else [] }
      s1.onStr (fun g => { g with builds := (g.builds.filter (fun x => x.slot != slot || x.node != node)) ++ [b] })

/-- The blocks that a background build of a stream's shutter takes (R228, R233, log 132). -/
def State.backBlocks (s : State) (t : Stream) : Nat :=
  if t.healing then
    let heal := (t.enc.heal.map (·.1)).getD []
    ceilDiv (healList (s.vocabOf t) (if t.parse.gstate == .none then none else some (s.tables t.parse)) heal).length 15
  else (s.reducedCharge t t.parse).2.2

/-- Whether no check of a committed or tree build waits at a casement unit (R228). -/
def State.unitQuiet (s : State) (u : Nat) : Bool := !s.str.builds.any (fun b => !b.background && b.units.contains u && b.share != 0)

/-- Whether a background build starts: no check of a committed build waits at the units that serve its profile, and its blocks fit
(R228, log 132). -/
def State.mayBuild (s : State) (t : Stream) : Bool :=
  (s.casements t.id.profile).all s.unitQuiet && decide (s.blocksUsed + s.backBlocks t ≤ s.shutterBlocks)

/-- BACKGROUND_BUILD (R228): a queued background build starts where it may. -/
def execBackgroundBuild (dt slot : Nat) (s : State) : Res :=
  let s1 := s.elapse dt
  .next (match s1.str.builds.find? (fun b => b.slot == slot && b.background && !b.running), s1.stream? slot with
    | some b, some t =>
      if s1.mayBuild t then
        s1.onStr (fun g => { g with builds := g.builds.map (fun x =>
          if x == b then { x with running := true, blocks := s1.backBlocks t, began := s1.aon.time } else x) })
      else s1
    | _, _ => s1)

/-- Tree builds that wait for credit, in order of arrival and of node (R360). -/
def State.waitingBuilds (s : State) : List Build := s.str.builds.filter (fun b => !b.background && !b.running)

/-- What a tree build charges at its grant; none when its node is gone. -/
def State.buildCharge (s : State) (b : Build) : Option (List Nat × Nat × Nat) :=
  match s.stream? b.slot with
  | some t => (t.nodeAt b.node).map (fun n => s.chargeOf t n.1)
  | none => none

/-- Whether a tree build that has waited since a time or longer shares a unit. -/
def State.treesBefore (s : State) (since : Nat) (units : List Nat) : Bool :=
  s.waitingBuilds.any (fun b => decide (b.began ≤ since) && (match s.buildCharge b with
    | some c => c.1.any units.contains
    | none => false))

/-- The parse state that a choice's build is charged for: that of the stream, or of the deepest accepted node of a reply. -/
def Stream.chargeParse (t : Stream) : Parse :=
  match t.choice with
  | some c => if c.reply then ((t.nodeAt c.node).map (·.1)).getD t.parse else t.parse
  | none => t.parse

/-- What a stream's held choice charges at its grant (R235, R236). -/
def State.choiceCharge (s : State) (t : Stream) : List Nat × Nat × Nat := s.chargeOf t t.chargeParse

/-- Whether a waiting tree build can be granted: its charge fits, and nothing that waited before it shares a unit with it (R235, R360). -/
def State.treeGrantable (s : State) (b : Build) : Bool :=
  match s.buildCharge b with
  | none => false
  | some c =>
    s.chargeFits c &&
    (s.waitingBuilds.takeWhile (· != b)).all (fun x => match s.buildCharge x with
      | some d => !d.1.any c.1.contains
      | none => true) &&
    s.str.waitingChoices.all (fun n => match s.stream? n with
      | some u => decide (b.began < ((u.choice.map (·.arrived)).getD 0)) || !(s.choiceCharge u).1.any c.1.contains
      | none => true)

/-- The tree builds that wait are granted as far as credit goes, in order (R360). -/
def State.grantTrees (s : State) : State :=
  s.waitingBuilds.foldl (fun s b => if s.treeGrantable b then s.beginBuild b.slot b.node else s) s

/-- A descriptor with the CD result that it names. -/
def State.resolved (s : State) (d : Shutter) : Shutter :=
  match d.result with
  | .cached _ => { d with result := .priv (s.cdResult d) [] }
  | _ => d

/-- The rows of a node that were parked under a descriptor not yet built latch the one that is (R241, R264). -/
def State.latchRows (slot node : Nat) (s : State) : State :=
  match (s.stream? slot).bind (fun t => t.nodeAt node) with
  | none => s
  | some (_, d) => s.onSch (fun g => { g with rows := g.rows.map (fun r =>
      if r.slot == slot && r.node == node && r.desc.isNone then { r with desc := some (s.resolved d) } else r) })

/-- Whether a build misses its bound now: one counted as a miss at its start is not counted again (R232, R237 to R239, log 18). -/
def State.lateBuild (s : State) (b : Build) : Bool :=
  !b.background && !b.missed && decide (b.clock + 16 * b.bound < s.aon.garnet)

/-- A build completes (R225): credit and blocks return, the descriptor is written, and tree builds that wait for them are granted; a build
past its bound counts as a miss (R239). -/
def State.buildDone (b : Build) (s : State) : State :=
  let s1 := (s.onStr (fun g => { g with builds := g.builds.erase b })).workDone 2 (.stream b.slot)
  (((if s.lateBuild b then s1.count bcShutterMiss 1 else s1).build b.slot b.node).latchRows b.slot b.node).grantTrees

/-- A unit has completed its share of a build's checks, which returns there (R236). -/
def State.shareDone (b : Build) (unit : Nat) (s : State) : State :=
  (s.onStr (fun g => { g with builds := g.builds.map (fun x => if x == b then { x with units := x.units.filter (· != unit) } else x) })).grantTrees

/-- SHUTTER_BUILD_DONE (R225, R236): a unit has completed its share of a build, or with none the build is complete. A background build
needs its stream's resident window (R212), and completes after those requested before it (R228). -/
def execShutterBuildDone (dt slot : Nat) (part : BuildPart) (s : State) : Res :=
  let s1 := s.elapse dt
  let resident := match s1.stream? slot with | some t => !t.parse.refill | none => true
  let first (b : Build) : Bool := (s1.str.builds.find? (·.background)) == some b
  .next (match s1.str.builds.find? (fun b => b.slot == slot && b.node == part.node && b.running && (!b.background || (resident && first b))) with
    | none => s1
    | some b => match part.unit with
      | some u => s1.shareDone b u
      | none => s1.buildDone b)

/-! ### Stack chunks (R210 to R213, log 9) -/

/-- Chunks of the stack pool (06 "Stacks"). -/
def State.chunkPool (s : State) : Nat := min (s.pool 1 / 4) (16 * 2 ^ 20) / 64

/-- Chunks that n resident entries take. -/
def chunksFor (n : Nat) : Nat := ceilDiv n 28

/-- The number of the deepest chunk of a stack that lies in the pool. -/
def Parse.firstChunk (ps : Parse) : Nat := ceilDiv ps.spilled 28

/-- Chunks that the resident part of a stack takes. -/
def Parse.needs (ps : Parse) : Nat := if ps.stack.length ≤ ps.spilled then 0 else chunksFor ps.stack.length - ps.firstChunk

/-- The parse states of a stream: its own and those of its draft nodes. -/
def Stream.parses (t : Stream) : List Parse :=
  t.parse :: (match t.tree with | some tr => tr.nodes.map (·.parse) | none => [])

/-- Every parse state. -/
def State.parses (s : State) : List Parse := s.str.tab.flatMap Stream.parses

/-- REF of a chunk: the parse states that share it (R211). -/
def State.chunkRef (s : State) (c : Nat) : Nat := (s.parses.filter (fun ps => ps.chunks.contains c)).length

/-- The chunks in use. -/
def State.chunksUsed (s : State) : List Nat := (s.parses.flatMap (·.chunks)).eraseDups

/-- Chunks reserved: four for the next advance of each admitted stream (R213), and four for each draft node, less those that its fork has
taken (R358). -/
def State.chunksReserved (s : State) : Nat :=
  (s.str.tab.map (fun t =>
    (if (t.state == .stepping || t.state == .await) && t.parse.gstate == .active then 4 else 0) +
    (match t.tree with
      | some tr => (if t.parse.gstate == .active then 4 * tr.nodes.length else 0) -
          ((tr.nodes.flatMap (·.parse.chunks)).eraseDups.filter (fun c => !t.parse.chunks.contains c)).length
      | none => 0))).foldl (· + ·) 0

/-- Free chunks of the pool. -/
def State.chunksFree (s : State) : Nat := s.chunkPool - s.chunksUsed.length - s.chunksReserved

/-- The lowest n free chunks (log 16). -/
def State.freeChunks (s : State) (n : Nat) : List Nat :=
  let used := s.chunksUsed
  firstFree (fun c => !used.contains c) (used.length + n) n

/-- Chunk number j of a stack after an advance, when it keeps the chunk that it had: one whose entries the advance leaves as they are, or
one that is not shared and is changed in place (R214). Popping writes nothing. -/
def keepChunk (shared : Nat → Bool) (old new : Parse) (j : Nat) : Option Nat :=
  if j < old.firstChunk then none
  else match old.chunks[j - old.firstChunk]? with
    | none => none
    | some c =>
      let same := ((old.stack.zip new.stack).takeWhile (fun x => x.1 == x.2)).length
      if min (28 * (j + 1)) new.stack.length ≤ same || !shared c then some c else none

/-- A list of kept chunks with its gaps filled. -/
def fillChunks : List (Option Nat) → List Nat → List Nat
  | [], _ => []
  | some c :: rest, fresh => c :: fillChunks rest fresh
  | none :: rest, c :: fresh => c :: fillChunks rest fresh
  | none :: _, [] => []

/-- The chunks of an advanced parse state (R214): a changed chunk that another parse state shares, and for a fork every changed one, is
copied; new chunks are taken from the reserved ones. -/
def State.rechunk (s : State) (fork : Bool) (old new : Parse) : Parse :=
  let sp := if new.stack.length ≤ new.spilled then new.stack.length else new.spilled / 28 * 28
  let ps := { new with spilled := sp }
  let kept := ((List.range ps.needs).map (· + ps.firstChunk)).map (keepChunk (fun c => fork || decide (1 < s.chunkRef c)) old ps)
  { ps with chunks := fillChunks kept (s.freeChunks (kept.filter Option.isNone).length) }

/-- Spills the chunks of a stream that lie wholly below its resident window and that no fork shares (R212). -/
def Stream.spill (t : Stream) : Stream :=
  if t.tree.isSome || t.parse.stack.length ≤ t.parse.spilled then t
  else
    let sp := max t.parse.spilled ((t.parse.stack.length - 64) / 28 * 28)
    { t with parse := { t.parse with spilled := sp, chunks := t.parse.chunks.drop (sp / 28 - t.parse.firstChunk) } }

/-- A stack held wholly in its overflow slot (R213). -/
def Parse.spillAll (ps : Parse) : Parse := { ps with spilled := ps.stack.length, chunks := [] }

/-- When free chunks fall below a sixteenth of the pool, chunks are spilled, the streams least recently admitted first; with
fuel (R212). -/
def State.spillLow : Nat → State → State
  | 0, s => s
  | n + 1, s =>
    if s.chunksFree < s.chunkPool / 16 then
      match minBy (fun t => t.lastStep) (s.str.tab.filter (fun t => t.spill != t)) with
      | none => s
      | some t => State.spillLow n (s.onStream t.id.slot Stream.spill)
    else s

/-- After an advance: a refill where fewer than 64 entries are resident with chunks spilled (R212), then spilling. -/
def State.settleStack (slot : Nat) (s : State) : State :=
  let s1 := s.onStream slot (fun t =>
    if t.parse.spilled != 0 && t.parse.stack.length - t.parse.spilled < 64 then { t with parse := { t.parse with refill := true } }
    else t)
  State.spillLow s1.str.tab.length s1

/-- The stack of a stream wholly in the pool, after spilling others where chunks are short (R212, R358); none when it does not fit. -/
def State.takeStack (slot : Nat) (s : State) : Option State :=
  match s.stream? slot with
  | none => none
  | some t =>
    if t.parse.spilled == 0 then some (s.onStream slot (fun t => { t with parse := { t.parse with refill := false } }))
    else
      let s1 := State.spillLow s.str.tab.length s
      let whole := chunksFor t.parse.stack.length
      if s1.chunksFree + t.parse.chunks.length < whole then none
      else
        let s2 := s1.onStream slot (fun t => { t with parse := { t.parse.spillAll with refill := false } })
        let s3 := s2.onStream slot (fun t => { t with parse := { t.parse with spilled := 0, chunks := s2.freeChunks whole } })
        some (State.spillLow s3.str.tab.length s3)

/-- A stack that a stream has just received is brought into the pool, at once where chunks are free, else by a refill (R212; log 9). -/
def State.settleNew (slot : Nat) (s : State) : State :=
  match s.takeStack slot with
  | some s1 => s1
  | none => s.onStream slot (fun t => { t with parse := { t.parse with refill := true } })

/-- STACK_REFILL_DONE (R212). -/
def execStackRefillDone (dt slot : Nat) (s : State) : Res :=
  let s1 := s.elapse dt
  .next (match s1.stream? slot with
    | some t => if t.parse.refill then (s1.takeStack slot).getD s1 else s1
    | none => s1)

end Sys2Proof.Machine
end

