-- ==== Sys2Proof/Machine/Streams.lean ====
section
/-! DEFINITION. Streams (R303 to R316, R330 to R333): slots, queues, entering READY, the stop-string store, closing,
cancelling, releasing, quarantine and pinning. -/
namespace Sys2Proof.Machine
open Sys2Proof

/-! ### Steps in the fabric (R317, 11 "The commit fence") -/

/-- The step record with a number. -/
def State.step? (s : State) (n : Nat) : Option Step := s.sch.steps.find? (fun x => x.desc.step == n)

/-- Changes a step record. -/
def State.onStep (n : Nat) (f : Step → Step) (s : State) : State :=
  s.onSch (fun g => { g with steps := g.steps.map (fun x => if x.desc.step == n then f x else x) })

/-- Whether a step has passed the commit fence. -/
def State.passed (s : State) (n : Nat) : Bool :=
  match s.step? n with
  | none => true
  | some x => x.verdict == .passed

/-- Whether a stream has a step in the fabric: issued, its PASS verdict not arrived. -/
def State.inFabric (s : State) (h : Nat) : Bool :=
  s.sch.steps.any (fun x => x.verdict != .passed && x.desc.entries.any (fun e => e.handle == h))

/-- Whether a record of a stream waits for ring space (R66). -/
def State.ringHeld (s : State) (h : Nat) : Bool := s.egr.rings.any (fun g => g.waiting.any (fun w => w.1 == some h))

/-! ### Slots (R303 to R305) -/

/-- Slots of the stream table. -/
def slotCount : Nat := 262144

/-- The generation of a slot. -/
def State.genAt (s : State) (slot : Nat) : Nat := (assoc s.str.gens slot).getD 0

/-- The first slot from n on that is not withdrawn, with fuel. -/
def firstUsable (withdrawn : List Nat) : Nat → Nat → Nat
  | 0, n => n
  | k + 1, n => if withdrawn.contains n then firstUsable withdrawn k (n + 1) else n

/-- Takes the slot at the head of the free queue (R304): the slots never used stand before the tail. -/
def State.takeSlot (s : State) : Option (Nat × State) :=
  let n := firstUsable s.str.withdrawn s.str.withdrawn.length s.str.freeNext
  if n < slotCount then
    some (n, s.onStr (fun g => { g with freeNext := n + 1, forwards := g.forwards.filter (fun f => f.slot != n) }))
  else match s.str.freeTail with
    | [] => none
    | n :: rest => some (n, s.onStr (fun g => { g with freeTail := rest, forwards := g.forwards.filter (fun f => f.slot != n) }))

/-- Free slots (R452). -/
def State.freeSlots (s : State) : Nat :=
  slotCount - s.str.freeNext + s.str.freeTail.length - (s.str.withdrawn.filter (fun n => decide (s.str.freeNext ≤ n))).length

/-- A slot returns to FREE (R304): its generation grows, and it joins the tail or, after a wrap, quarantine for 1 s. -/
def State.freeSlot (slot : Nat) (s : State) : State :=
  let g := (s.genAt slot + 1) % 2 ^ 14
  s.queued.onStr (fun x => { x with
    gens := assocSet x.gens slot g,
    quarantine := if g == 0 then x.quarantine ++ [(slot, s.aon.time + 1000000000)] else x.quarantine,
    freeTail := if g == 0 || x.withdrawn.contains slot then x.freeTail else x.freeTail ++ [slot],
    tab := x.tab.filter (fun t => t.id.slot != slot) })

/-- QUARANTINE_END (R304). -/
def execQuarantineEnd (dt slot : Nat) (s : State) : Res :=
  let s1 := s.elapse dt
  .next (match s1.str.quarantine.find? (fun q => q.1 == slot) with
    | some q =>
      if q.2 ≤ s1.aon.time then
        s1.onStr (fun g => { g with quarantine := g.quarantine.filter (fun x => x.1 != slot), freeTail := g.freeTail ++ [slot] })
      else s1
    | none => s1)

/-! ### The input queue (R306, R319) -/

/-- Tokens join the input queue. -/
def Stream.enqueue (now : Nat) (toks : List Nat) (t : Stream) : Stream :=
  if toks.isEmpty then t
  else { t with queue := t.queue ++ toks, enc := { t.enc with times := t.enc.times ++ [(now, toks.length)] } }

/-- Arrival runs without the first n tokens. -/
def dropTimes : Nat → List (Nat × Nat) → List (Nat × Nat)
  | _, [] => []
  | n, (tm, k) :: rest => if k ≤ n then dropTimes (n - k) rest else (tm, k - n) :: rest

/-- The first n tokens leave the input queue for the fabric. -/
def Stream.dequeue (n : Nat) (t : Stream) : Stream :=
  { t with queue := t.queue.drop n, enc := { t.enc with times := dropTimes n t.enc.times } }

/-- Time of the oldest queued token. -/
def Stream.oldest (t : Stream) : Nat := (t.enc.times.head?.map (·.1)).getD 0

/-- Whether a stream is a candidate of the scheduler's loops (R319). -/
def Stream.candidate (t : Stream) : Bool := t.state == .ready || (t.state == .prompt && decide (2 ≤ t.queue.length))

/-! ### READY and its clocks (R313, R330) -/

/-- A target in microseconds as a deadline (R330). -/
def deadlineOf (from_ target : Nat) : Option Nat := if target == 0 then none else some (from_ + target * 1000)

/-- Whether the lintel has closed admission: raised, with its raise no longer waiting for the boundary (R352). -/
def State.closed (s : State) : Bool := s.sch.shut

/-- A stream is in READY: an unpinned one is held while the lintel is closed (R352). -/
def State.enterReady (slot : Nat) (s : State) : State :=
  s.onStream slot (fun t =>
    let lat := if s.closed && !t.id.pin then { t.lat with lintelSince := some (t.lat.lintelSince.getD s.aon.time) } else t.lat
    { t with state := .ready, lat := lat })

/-- READY from PROMPT or OPENING: READY_TIME and the first deadline of the turn (R330). -/
def State.firstReady (slot : Nat) (s : State) : State :=
  (s.onStream slot (fun t => { t with lat := { t.lat with
    readyTime := s.aon.time, deadline := deadlineOf s.aon.time t.lat.ttft, lastCommit := none, stalledSince := 0 } })).enterReady slot

/-- Whether the conditions of R313 for leaving PROMPT hold. -/
def State.promptComplete (s : State) (t : Stream) : Bool :=
  t.state == .prompt && !t.enc.docOpen && t.enc.promptDone && t.queue.length == 1 && !s.inFabric t.handle &&
  !s.ing.working.any (fun w => w.pkt.named == some t.handle && (w.pkt.opcode == 0x0401 || w.pkt.opcode == 0x0402))

/-- Whether a group number can be a migration's destination: a member other than this block (R345). -/
def State.validDest (s : State) (d : Nat) : Bool := s.img.frame.inGroup && s.img.frame.members.testBit d && d != s.groupNum

/-- Whether a stream is handed to DEST when its prompt is complete (R345); a DEST to which a str.migrate would be refused hands nothing
off, and the stream enters READY as one without AUTO_MIGRATE does (R18; log 53). -/
def State.handsOff (s : State) (t : Stream) : Bool := t.id.autoMigrate && !s.generation && s.validDest t.id.dest

/-- Leaves PROMPT for READY when R313 allows; a stream with AUTO_MIGRATE on a block without the generation personality sets
out for DEST instead (R345). -/
def State.leavePrompt (slot : Nat) (s : State) : State :=
  match s.stream? slot with
  | none => s
  | some t =>
    if s.promptComplete t then
      if s.handsOff t then
        (if t.pausePending.isSome || t.wait != .none then s
        else s.onStream slot (fun t => { t with pausePending := some (none, .migrate t.id.dest) }))
      else s.firstReady slot
    else s

/-! ### The stop-string store (R172) -/

/-- The lowest number from lo on below hi that no stored string uses. -/
def freeStop (l : List StopStr) (lo hi : Nat) : Option Nat :=
  ((List.range (l.length + 1)).map (· + lo)).find? (fun i => decide (i < hi) && !l.any (fun x => x.index == i))

/-- Strings that the store may hold in Beryl (R172). -/
def State.stopLimit (s : State) : Nat := min (8192 * (s.useList 2).length) 65471

/-- A stream takes a stop string: a stored one gains a reference; a new one is entered in Beryl, or, when its key equals that
of another string, in the collision list. None for NO_SPACE, also of a string whose entry was lost with its bank (R300). -/
def State.takeStop (b : Bytes) (s : State) : Option (Nat × State) :=
  let l := s.img.stopStore
  match l.find? (fun x => x.bytes == b) with
  | some x =>
    if !x.coll && s.isLost 2 [stopKey b] 0 then none
    else some (x.index, s.onImg (fun g => { g with stopStore := g.stopStore.map (fun y => if y.index == x.index then { y with refs := y.refs + 1 } else y) }))
  | none =>
    let add (i : Nat) (coll : Bool) (s : State) : State :=
      s.onImg (fun g => { g with stopStore := g.stopStore ++ [{ index := i, bytes := b, refs := 1, coll := coll }] })
    if s.isLost 2 [stopKey b] 0 then none
    else if l.any (fun x => stopKey x.bytes == stopKey b) then
      (freeStop l 65471 65535).map (fun i => (i, add i true s))
    else
      match freeStop l 0 s.stopLimit with
      | none => none
      | some i => (s.insertUse 30 2 (stopEntryOf (stopKey b) b.length i)).map (fun s1 => (i, add i false s1))

/-- A stream takes its stop list; none for NO_SPACE, with nothing applied. -/
def State.takeStops : List StopEnt → State → Option (List (Nat × Nat) × State)
  | [], s => some ([], s)
  | e :: es, s =>
    match s.takeStop e.bytes with
    | none => none
    | some (i, s1) => (State.takeStops es s1).map (fun r => ((i, e.mode) :: r.1, r.2))

/-- A reference to a stop string ends; the last one removes the string (R172). -/
def State.dropStop (i : Nat) (s : State) : State :=
  match s.img.stopStore.find? (fun x => x.index == i) with
  | none => s
  | some x =>
    if 1 < x.refs then
      s.onImg (fun g => { g with stopStore := g.stopStore.map (fun y => if y.index == i then { y with refs := y.refs - 1 } else y) })
    else
      let s1 := s.onImg (fun g => { g with stopStore := g.stopStore.filter (fun y => y.index != i) })
      if x.coll then s1 else s1.removeUse 30 2 [stopKey x.bytes]

/-- The stop sequences of a stream. -/
def State.stopsOf (s : State) (t : Stream) : List StopSeq :=
  t.id.stops.filterMap (fun p => (s.img.stopStore.find? (fun x => x.index == p.1)).map (fun x =>
    { index := p.1, mode := p.2, bytes := x.bytes, coll := x.coll }))

/-- The stop sequences that a slice's searches find: those of the collision list, and those whose entry Beryl matches (R171, R460). -/
def State.seenStops (s : State) (t : Stream) : List StopSeq :=
  (s.stopsOf t).filter (fun x => x.coll || s.findsKey 2 [stopKey x.bytes])

/-! ### The bias area (R256) -/

/-- Whether a bias list fits the bias area. -/
def State.biasFits (s : State) (l : List (Nat × Nat)) : Bool :=
  let used := ((s.str.tab.filter (fun t => t.id.biasHeld)).map (fun t => biasBlocks t.id.bias)).foldl (· + ·) 0
  decide (used + biasBlocks l ≤ s.pool 5 / 2 / 512)

/-! ### What a pause record keeps (R256, R335, R336) -/

/-- A pause record with the stream's shaping block, its bias list in model IDs (R256, R336). -/
def State.recordShape (s : State) (t : Stream) (r : PauseRec) : PauseRec :=
  { r with rt := t.id.rt, topP := t.id.topP, minP := t.id.minP, topK := t.id.topK,
           bias := t.id.bias.map (fun e => ((s.vocabOf t).prof.c2m.getD e.1 0, e.2)) }

/-- A pause record with the window, heal text and input queue that the stream gives up (R335, R336). -/
def Stream.recordText (t : Stream) (r : PauseRec) : PauseRec :=
  { r with window := t.dec.window, heal := t.enc.heal, input := t.queue }

/-- The stream without what its pause record has taken: its text staging and its bias blocks are free. -/
def Stream.giveText (t : Stream) : Stream :=
  { t with queue := [], dec := { t.dec with window := [] }, enc := { t.enc with heal := none },
           blocks := { t.blocks with held := false } }

/-- The stream with its text staging as its pause record keeps it; a pause of the lintel left it in place (R339, R354). -/
def Stream.takeText (t : Stream) : Stream :=
  match t.pause with
  | none => t
  | some r =>
    if t.blocks.held then t
    else { t with queue := r.input, dec := { t.dec with window := r.window }, enc := { t.enc with heal := r.heal },
                  blocks := { t.blocks with held := true } }

/-- Whether what a resume takes again fits: bias blocks, and a window block, a heal block and the input queue in text staging (R339). -/
def State.resumeFits (s : State) (t : Stream) : Bool :=
  (t.id.biasHeld || s.biasFits t.id.bias) &&
  (t.blocks.held || (match t.pause with
    | some r => s.unitsFree (textUnits r.input.length t.needsWindow r.heal.isSome)
    | none => true))

/-! ### Old versions and grammars (R112, R114, R495) -/

/-- Whether a stream outside FREE latched a version, or a standalone packet is encoded under it (R112, R151). -/
def State.versionHeld (s : State) (uid : Nat) : Bool :=
  s.str.tab.any (fun t => t.id.vuid == uid) || s.ing.working.any (fun w => w.pkt.standalone && w.pkt.opcode == 0x0401 && w.vuid == uid)

/-- Versions that left the committed set and that no stream latched are freed, with their handle, memo entries and, unless a version that
was derived from them shares them, literals
(R112, R144, R495). -/
def State.sweepVersions (s : State) : State :=
  let old := s.img.versions.filter (fun v => !v.inSet && !s.versionHeld v.uid)
  old.foldl (fun s v =>
    let s1 := s.onImg (fun g => { g with versions := g.versions.filter (fun x => x.uid != v.uid),
                                         memo := g.memo.filter (fun m => m.version != v.handle) })
    let s2 := if s1.img.versions.any (fun x => x.litHandle == v.litHandle) then s1 else s1.removeLiterals v.litHandle
    s2.event evImage v.gen 3 0) s

/-- Whether a stream still uses a grammar: it names it, its present descriptor was built under it, or a row has latched one that was (R114,
R264). -/
def State.grammarUsed (s : State) (uid : Nat) : Bool :=
  s.str.tab.any (fun t => t.parse.guid == uid || (t.state != .closed && (t.shutter.guid == uid || t.shaped.any (fun d => d.2.guid == uid)))) ||
  s.sch.rows.any (fun r => (r.desc.map (·.guid)) == some uid)

/-- Grammars out of the committed set that no stream uses are freed with their cache entries (R114, R232). -/
def State.sweepGrams (s : State) : State :=
  let old := (s.img.grams.filter (fun g => !g.inSet && !s.grammarUsed g.uid)).map (·.uid)
  old.foldl (fun s u => s.dropCache u) (s.onImg (fun g => { g with grams := g.grams.filter (fun x => !old.contains x.uid) }))

/-! ### Trees and rows of a stream -/

/-- A held tree is dropped as rejected forks are (R371, R372): its record, forks, builds and naming go; bump increments the
epoch again. -/
def State.dropTree (slot : Nat) (bump : Bool) (s : State) : State :=
  match s.stream? slot with
  | some t =>
    match t.tree with
    | none => s
    | some _ =>
      (s.onStream slot (fun t => { t with tree := none, epoch := if bump then (t.epoch + 1) % 256 else t.epoch })).onStr
        (fun g => { g with builds := g.builds.filter (fun b => b.slot != slot || b.node == 0) })
  | none => s

/-- The rows of a stream are discarded, with a row release for each that the fabric still keeps, and their parking is freed
(R242, R270). -/
def State.discardRows (slot : Nat) (s : State) : State :=
  let rel := s.sch.steps.flatMap (fun x => (x.rowsLeft.filter (fun r => r.1 == slot &&
      !s.sch.rows.any (fun w => w.step == x.desc.step && w.slot == slot && w.node == r.2 && w.parked))).map
    (fun r => Out.rowRelease x.desc.step slot r.2))
  (s.onSch (fun g => { g with
    rows := g.rows.filter (fun r => r.slot != slot),
    parkedReserve := g.parkedReserve.filter (fun r => r.2.1 != slot),
    steps := g.steps.map (fun x => { x with rowsLeft := x.rowsLeft.filter (fun r => r.1 != slot),
                                            discarded := x.discarded ++ x.rowsLeft.filter (fun r => r.1 == slot) }) })).emits rel

/-! ### Closing and cancelling (R25, R332, R333) -/

/-- Every packet of a stream that was consumed and is not done completes with CANCELLED, but for one (R332). -/
def State.cancelPackets (h : Nat) (but : Option Pkt) (s : State) : State :=
  let mine (q : Pkt) : Bool := q.named == some h && some q != but
  let st := s.ing.staged.filter mine
  let wk := (s.ing.working.map (·.pkt)).filter mine
  let s1 := s.onIng (fun g => { g with staged := g.staged.filter (fun q => !mine q),
                                       working := g.working ++ st.map (fun q => { pkt := q }) })
  (wk ++ st).foldl (fun s q => s.refuse q stCancelled) s1

/-- The latency intervals of a stream end. -/
def Lat.endAll (now : Nat) (l : Lat) : Lat := ((l.endRing now).endHold now).endLintel now

/-- The copy of a replica for an opening stream is given up (R332, R447): the str.open is refused, the replica goes, and its
pages are FREE at the next step boundary. -/
def State.abandonCopy (slot status : Nat) (s : State) : State :=
  match s.cas.copies.find? (fun c => c.2.1 == slot) with
  | none => s
  | some c =>
    let pages := ((s.pfx? c.1).map (·.pages)).getD []
    let s1 := (s.onCas (fun g => { g with copies := g.copies.erase c })).rollback pages
    (State.freeRecord 1 c.1 (s1.onPfx c.1 (fun r => { r with pages := [] }))).refuse c.2.2.2 status

/-- A stream is set CLOSED (R332): its text still to come, choices, builds and rows go, a migration not accepted is abandoned
(R351). Its resources are freed at its next boundary. -/
def State.closeStream (slot : Nat) (but : Option Pkt) (s : State) : State :=
  match s.stream? slot with
  | none => s
  | some t =>
    if t.state == .closed then s
    else
      let s1 := State.stow slot <| s.onStream slot (fun t => { t with
        state := .closed, cancelPending := true, enc := { t.enc with docOpen := false, doc := [], tail := 0, heal := none },
        choice := none, commit := none, pausePending := none, waitPkt := none, wait := .none, lat := t.lat.endAll s.aon.time })
      let s2 := (s1.cancelPackets t.handle but).discardRows slot
      let s3 := (s2.dropBuilds slot).onStr (fun g => { g with waitingChoices := g.waitingChoices.filter (· != slot) })
      let s4 := if t.wait == .replicaCopy then s3.abandonCopy slot stCancelled else s3
      -- an early hand-off keeps its destination until the verdict, when it is told VOID (R377, R379)
      match t.migDest, t.wait with
      | some d, .sealedKv => s4.send d (.abandon t.handle)
      | some d, .migAnswer => (s4.onStream slot (fun t => { t with migDest := none })).send d (.abandon t.handle)
      | _, _ => s4

/-- The latency record of R333: stall times in whole microseconds, every field kept to its 32 bits (log 20). -/
def Stream.closeResults (t : Stream) : Nat × Nat × Nat :=
  let w (n : Nat) : Nat := min n (2 ^ 32 - 1)
  (w t.generated + w t.lat.lateCount * 2 ^ 32, w t.lat.tbtMax + w (t.lat.stallLintel / 1000) * 2 ^ 32,
   w (t.lat.stallHold / 1000) + w (t.lat.stallRing / 1000) * 2 ^ 32)

/-- A write of port B that meets a write of port A to a word of a stream's entry (R307): the word is logged (R484), and firmware reads the
entry again and retries, so that its command takes effect all the same. -/
def State.collide (slot : Nat) (clash : Option Nat) (s : State) : State :=
  match clash with
  | none => s
  | some k => s.onMem (fun m => { m with stbValid := true, stbCount := satInc 7 m.stbCount, stbWord := slot * 32 + k % 32 })

/-- str.close and str.cancel (R332, R333); a stream that is CLOSED already is left alone. -/
def closeWork (clash : Option Nat) (p : Pkt) (s0 : State) : State :=
  let slot := slotOf p.stream
  let s := s0.collide slot clash
  let s1 := s.closeStream slot (some p)
  match s1.stream? slot with
  | none => s1.refuse p stStaleHandle
  | some t => let (a, b, c) := t.closeResults; s1.done p 0 (some a) (some b) (some c)

/-- STR_CLOSE (R332). -/
def execStrClose (dt ap : Nat) (pkt : StreamPkt) (s : State) : Res :=
  .next ((s.elapse dt).runPacket (isOp 0x0302) ap pkt.pos (closeWork pkt.clash))

/-- STR_CANCEL (R332). -/
def execStrCancel (dt ap : Nat) (pkt : StreamPkt) (s : State) : Res :=
  .next ((s.elapse dt).runPacket (isOp 0x0303) ap pkt.pos (closeWork pkt.clash))

/-- A CLOSED stream's resources are freed and its slot returns to FREE (R332). -/
def State.releaseStream (slot : Nat) (s : State) : State :=
  match s.stream? slot with
  | none => s
  | some t =>
    let s1 := (s.dropTree slot false).freePages t.kv
    let s2 := match t.pfx with | some n => s1.detach n | none => s1
    let s3 := t.id.stops.foldl (fun s p => s.dropStop p.1) s2
    let s4 := t.summaries.foldl (fun s h => s.releaseSummary h) (s3.freeSlot slot)
    s4.sweepVersions.sweepGrams

/-- Whether a CLOSED stream has reached its next boundary: no step of it is in the fabric (R317). -/
def State.mayRelease (s : State) (t : Stream) : Bool := t.state == .closed && !s.inFabric t.handle

/-- STREAM_RELEASE (R332): at the stream's boundary. -/
def execStreamRelease (dt slot : Nat) (s : State) : Res :=
  let s1 := s.elapse dt
  .next (match s1.stream? slot with
    | some t => if s1.mayRelease t then s1.releaseStream slot else s1
    | none => s1)

/-! ### The pause of the lintel (R354, R372) -/

/-- A stream is paused by the lintel: in summary mode with the summary of the raise, its own pages freed and its attachment
released, else with its pages kept. A held tree is dropped, the stack is spilled whole (R213) and the bias blocks are freed (R256); the
encode tail, the input queue and the window stay in place (log 131). -/
def State.lintelPause (slot : Nat) (s : State) : State :=
  match s.stream? slot with
  | none => s
  | some t =>
    let (mode, size, h, loc) := match t.lintelSum with | some (z, h, l) => (0, z, h, l) | none => (2, 0, 0, 0)
    let r : PauseRec := s.recordShape t { pmode := mode, ret := t.state, sumSize := size, sumHandle := h, sumLoc := loc,
                                          expiry := 2 ^ 64 - 1, tierAddr := 0, tierPages := 0 }
    let s1 := State.stow slot <| ((s.dropTree slot true).dropBuilds slot).onStream slot (fun t => { t with
      state := .paused, lpause := true, pause := some r, lintelSum := none, lat := t.lat.endAll s.aon.time,
      parse := { t.parse.spillAll with refill := false }, shutter := { kind := .pending, guid := t.parse.guid },
      id := { t.id with biasHeld := false } })
    if mode == 0 then
      let s2 := (s1.freePages t.kv).onStream slot (fun t => { t with kv := [], pfx := none })
      match t.pfx with | some n => s2.detach n | none => s2
    else s1

/-- A stream whose pause by the lintel waited for its step, its choice or its long work (R354). -/
def State.pauseDeferred (slot : Nat) (s : State) : State :=
  match s.stream? slot with
  | none => s
  | some t =>
    if t.lpause && (t.state == .prompt || t.state == .ready || t.state == .draining) && !s.inFabric t.handle && t.wait == .none then
      s.lintelPause slot
    else s

/-! ### str.pin (R355) -/

/-- str.pin (R355); an unpinned stream in READY is held by a closed lintel, a pinned one is not (R352). -/
def pinWork (clash : Option Nat) (p : Pkt) (s0 : State) : State :=
  let s := s0.collide (slotOf p.stream) clash
  let s1 := s.onHandle p.stream (fun t =>
    if bit p.arg 0 then { t with id := { t.id with pin := true, modelGen := s.sch.modelGen }, lat := t.lat.endLintel s.aon.time }
    else
      let held := s.closed && t.state == .ready
      let since := if held then some (t.lat.lintelSince.getD s.aon.time) else t.lat.lintelSince
      { t with id := { t.id with pin := false }, lat := { t.lat with lintelSince := since } })
  s1.done p 0 none none none

/-- STR_PIN (R355). -/
def execStrPin (dt ap : Nat) (pkt : StreamPkt) (s : State) : Res :=
  .next ((s.elapse dt).runPacket (isOp 0x0306) ap pkt.pos (pinWork pkt.clash))

end Sys2Proof.Machine
end

