-- ==== Sys2Proof/Machine/Encoding.lean ====
section
/-! DEFINITION. enc.text and enc.raw (R146 to R158) with the lanes' segments, the transom unit and the Opal memo. -/
namespace Sys2Proof.Machine
open Sys2Proof

/-! ### The Opal memo (R144, R145) -/

/-- The set of a piece (04 "The Opal memo"). -/
def memoSet (version : Nat) (piece : Bytes) : Nat := crc32c (BitVec.ofNat 8 version :: piece) % 131072

/-- A lookup of a piece and, after a miss, the insert of its tokens (R145): an invalid way first, else the oldest; ages grow
by one at each use of the set (log 19). -/
def memoUse (version : Nat) (piece : Bytes) (toks : List Nat) (m : List MemoEnt) : List MemoEnt :=
  if piece.isEmpty || 24 < piece.length then m
  else
    let set := memoSet version piece
    let same (e : MemoEnt) : Bool := e.set == set && e.version == version && e.word == piece
    let aged := m.map (fun e => if e.set == set && !same e then { e with age := min 3 (e.age + 1) } else e)
    if m.any same then aged.map (fun e => if same e then { e with age := 0 } else e)
    else if 6 < toks.length then m
    else
      let ways := aged.filter (fun e => e.set == set)
      let kept := if ways.length < 8 then aged
        else match minBy (fun e => 3 - e.age) ways with
          | some old => aged.erase old
          | none => aged
      kept ++ [{ set := set, word := piece, version := version, tokens := toks, age := 0 }]

/-- The arrays that a memo set lies in: eight ways of 48 bytes from array 20 on (04 "The Opal memo", R381). -/
def memoArrays (set : Nat) : List Nat := [20 + set * 384 / 2 ^ 22, 20 + (set * 384 + 383) / 2 ^ 22]

/-- The memo after the pieces of a segment; lookups in an array under march miss (R390). -/
def State.memoise (v : Version) (items : List Item) (s : State) : State :=
  let held (b : Bytes) : Bool := !s.mem.noAlloc.isEmpty && (memoArrays (memoSet v.handle b)).any s.mem.noAlloc.contains
  s.onImg (fun g => { g with memo := items.foldl (fun m i =>
    if i.plain && !held i.bytes then memoUse v.handle i.bytes i.toks m else m) g.memo })

/-! ### enc.text (R149 to R155) -/

/-- Fields of an enc.text packet (R149). -/
def Pkt.isFinal (p : Pkt) : Bool := bit p.opflags 0
def Pkt.heals (p : Pkt) : Bool := bit p.opflags 1
def Pkt.noSpecial (p : Pkt) : Bool := bit p.opflags 2
def Pkt.invalid (p : Pkt) : Nat := bits p.opflags 4 3

/-- The invalid policy of a document (R129). -/
def policyOf (p : Profile) (field : Nat) : Policy :=
  match (if field == 0 then p.invalid else field - 1) with
  | 0 => .replace
  | 1 => .refuse
  | _ => .raw

/-- Whether INVALID selects raw for a profile that R127 does not allow it for (R150). -/
def rawRefused (p : Profile) (field : Nat) : Bool := field == 3 && (!p.byteLevel || p.form != 0 || p.caseMap != 0)

/-- The encoding of a packet's document as far as it has arrived: the document so far is given. -/
def encodeFor (v : Version) (p : Pkt) (first : Bool) (doc : Bytes) : Option EncOut :=
  v.vocab.encode (policyOf v.prof p.invalid) p.noSpecial first p.isFinal doc

/-- Pieces that a lane sends to the transom unit (R137). -/
def transomPieces (items : List Item) : Nat :=
  (items.filter (fun i => i.plain && decide (64 < i.bytes.length))).length

/-- Changes a packet's record at work. -/
def State.onWork (p : Pkt) (f : Work → Work) (s : State) : State :=
  s.onIng (fun g => { g with working := g.working.map (fun w => if w.pkt.ap == p.ap && w.pkt.pos == p.pos then f w else w) })

/-- A packet's record at work. -/
def State.workOf (s : State) (ap pos : Nat) : Option Work := s.ing.working.find? (fun w => w.pkt.ap == ap && w.pkt.pos == pos)

/-- A kept heal ends because input follows it (R158): the withheld tokens are appended, and the heal shutter is dropped. The
number of tokens is answered. -/
def State.endHeal (slot : Nat) (s : State) : State × Nat :=
  match s.stream? slot with
  | none => (s, 0)
  | some t =>
    match t.enc.heal with
    | none => (s, 0)
    | some (_, toks) =>
      let d : Shutter := if t.parse.gstate == .none then {} else { kind := .pending, guid := t.parse.guid }
      let s1 := s.onStream slot (fun t =>
        let t1 := t.enqueue s.aon.time toks
        { t1 with shutter := d, enc := { t1.enc with heal := none, prompt := t1.enc.prompt + toks.length } })
      ((s1.dropBuilds slot).stow slot, toks.length)

/-- A stream that takes prompt input enters PROMPT (R315 note b). -/
def State.toPrompt (slot : Nat) (s : State) : State :=
  s.onStream slot (fun t => if t.state == .prompt then t else { t with state := .prompt, lat := t.lat.endAll s.aon.time })

/-- Work items of a sash lane: segments, and the pieces that they have sent to the transom unit (R146). -/
def State.laneLoad (s : State) (n : Nat) : Nat :=
  ((s.ing.working.filter (fun w => w.lane == some n)).map (fun w => 1 + w.r1)).foldl (· + ·) 0

/-- The sash lane that a segment goes to: in service for the profile, with the fewest work items, the lowest first (R146). -/
def State.pickLane (s : State) (profile : Nat) : Option Nat := minBy s.laneLoad (s.serving_ 0 profile)

/-- The version under which an enc.text packet at work is encoded: for a standalone one, that of its execution (R151). -/
def State.workVersion (s : State) (w : Work) : Option Version :=
  (if w.pkt.standalone then s.img.versions.find? (fun v => v.uid == w.vuid) else s.packetVersion w.pkt).map s.laneVersion

/-- Positions of a text that the bitmap of the enabled literals' first two bytes marks (R132). -/
def markedIn (lits : List Bytes) : Bytes → Nat
  | [] => 0
  | x :: xs => markedIn lits xs + (if lits.any (fun l => l.headD 0#8 == x && (l.length == 1 || l.getD 1 0#8 == xs.headD 0#8)) then 1 else 0)

/-- The literal searches that a lane makes for some items: at each marked position of the plain text, and once for a literal (R132). -/
def laneSearches (lits : List Bytes) (items : List Item) : Nat :=
  items.foldl (fun n i => n + (if i.plain then markedIn lits i.bytes else 1)) 0

/-- The searches of a segment use slots of the version's bank map, on the channel of its lane (R281, R302, log 113). -/
def State.countLane (w : Work) (v : Version) (items : List Item) (s : State) : State :=
  if w.pkt.noSpecial then s
  else s.useSlots v.bankMap (w.lane.getD 0 / 2) (laneSearches ((v.vocab.literals false).map (·.1)) items)

/-- The items of an enc.text packet at work that no finished segment holds (R146). -/
def State.workItems (s : State) (w : Work) (v : Version) : List Item :=
  if w.pkt.standalone then
    match encodeFor v w.pkt true w.pkt.payload with
    | some e => itemsAfter w.r2 e.items
    | none => []
  else
    match s.live? w.pkt.stream with
    | none => []
    | some t => match encodeFor v w.pkt (!t.enc.docSeen) t.enc.doc with
      | some e => itemsAfter t.enc.docTokens e.items
      | none => []

/-- A packet's next segment begins on a lane that serves the profile of its version (R146). -/
def State.beginSegment (w : Work) (v : Version) (s : State) : State :=
  let s1 := s.onWork w.pkt (fun w => { w with lane := none })
  let n := s1.pickLane v.number
  s1.onWork w.pkt (fun w => { w with lane := n })

/-- enc.text (R118, R149 to R151): the checks of R150 and R129, the document's bytes taken, and the segment begun; the packet
completes when its segment is done. -/
def encTextWork (p : Pkt) (s : State) : State :=
  match s.packetVersion p with
  | none => s.refuse p stNotResident
  | some v =>
    if rawRefused v.prof p.invalid then s.refuse p stBadPacket
    else if p.standalone then
      match encodeFor v p true p.payload with
      | none => s.refuse p stBadPacket
      | some e => s.onWork p (fun w => { w with r1 := transomPieces e.items, lane := s.pickLane v.number, vuid := v.uid })
    else
      match s.live? p.stream with
      | none => s.refuse p stStaleHandle
      | some t =>
        let slot := t.id.slot
        let fl := bits p.opflags 4 2
        if t.enc.docOpen && t.enc.docFlags != fl then s.refuse p stStateConflict
        else
          let doc := (if t.enc.docOpen then t.enc.doc else []) ++ p.payload
          match encodeFor v p (!t.enc.docSeen) doc with
          | none => s.refuse p stBadPacket
          | some e =>
            let (s1, k) := s.endHeal slot
            let s2 := (s1.toPrompt slot).onStream slot (fun t =>
              { t with enc := { t.enc with docOpen := !p.isFinal, doc := doc, docFlags := fl } })
            s2.onWork p (fun w => { w with
              r0 := k, r1 := transomPieces (itemsAfter t.enc.docTokens e.items), lane := s2.pickLane v.number })

/-- ENC_TEXT (R118). -/
def execEncText (dt ap pos : Nat) (s : State) : Res := .next ((s.elapse dt).runPacket (isOp 0x0401) ap pos encTextWork)

/-- TRANSOM_PIECE_DONE (R137). -/
def execTransomPieceDone (dt ap pos : Nat) (s : State) : Res :=
  let s1 := s.elapse dt
  .next (match s1.workOf ap pos with
    | some w => if w.pkt.opcode == 0x0401 then s1.onWork w.pkt (fun w => { w with r1 := w.r1 - 1 }) else s1
    | none => s1)

/-- The heal of a FINAL packet (R155): the heal text with its tokens when healing is applied, and the size of the heal set when
it was formed. -/
def healOf (v : Version) (p : Pkt) (t : Stream) (e : EncOut) : Option (Bytes × List Nat) × Nat :=
  match e.lastWord with
  | some w =>
    if p.heals && t.generated == 0 && decide (w.length ≤ 64) then
      let n := (v.vocab.healSet w.bytes).length
      if 1 ≤ n && n ≤ 16384 then (some (w.bytes, itemTokens (v.vocab.wordItems w)), n) else (none, n)
    else (none, 0)
  | none => (none, 0)

/-- The OVER_BUDGET bit of a packet that has made a stream admissible (R328). -/
def State.heldBit (slot : Nat) (s : State) : State × Nat :=
  match s.stream? slot with
  | some t => if t.candidate then s.admissibleBy slot else (s, 0)
  | none => (s, 0)

/-- A stream's segment is finished (R146, R152, R155): its tokens join the prompt, and the packet completes. -/
def State.segmentEnd (w : Work) (v : Version) (t : Stream) (s : State) : State :=
  let p := w.pkt
  let slot := t.id.slot
  match encodeFor v p (!t.enc.docSeen) t.enc.doc with
  | none => s
  | some e =>
    let (heal, size) := if p.isFinal then healOf v p t e else (none, 0)
    let all := itemTokens e.items
    let keep := match heal with | some h => all.take (all.length - h.2.length) | none => all
    let toks := keep.drop t.enc.docTokens
    let s1 := (s.memoise v (itemsAfter t.enc.docTokens e.items)).onStream slot (fun t =>
      let t1 := t.enqueue s.aon.time toks
      let enc := { t1.enc with prompt := t1.enc.prompt + toks.length }
      { t1 with enc :=
        if p.isFinal then { enc with doc := [], docTokens := 0, tail := 0, docSeen := true, promptDone := true, heal := heal }
        else { enc with docTokens := t.enc.docTokens + toks.length, tail := e.tail } })
    let first := t.shutter.kind == .pending || heal.isSome
    let s2 := if p.isFinal && first && t.generated == 0 then s1.renewShutter slot else s1
    let healLen := match heal with | some h => h.1.length | none => 0
    let total := t.enc.prompt + toks.length
    let s3 := ((s2.stow slot).finish p).leavePrompt slot
    let (s4, hb) := if p.isFinal then s3.heldBit slot else (s3, 0)
    s4.done p (w.info ||| hb) (some (w.r0 + toks.length)) (some (e.tail + healLen * 2 ^ 16 + size * 2 ^ 32)) (some total)

/-- A standalone segment is finished (R153): the tokens go out as model IDs. -/
def State.standaloneEnd (w : Work) (v : Version) (s : State) : State :=
  let p := w.pkt
  match encodeFor v p true p.payload with
  | none => s
  | some e =>
    let ids := v.prof.toModel (itemTokens e.items)
    let data := ids.flatMap (leBytes 4)
    let runs := if data.isEmpty then [[]] else chunksOf 4064 data
    let s1 := (s.memoise v e.items).egressAll p.ring none (txtRecs 0 0 p.tag 32 0 s.now runs)
    let s2 := s1.done p w.info (some ids.length) (some 0) (some 0)
    if v.inSet then s2 else s2.sweepVersions

/-- How many items a segment holds at most: it ends at the first boundary after 65,536 bytes (R146). -/
def segmentLimit : Nat → List Item → Nat
  | _, [] => 0
  | n, i :: is => if 65536 ≤ n + i.bytes.length then 1 else 1 + segmentLimit (n + i.bytes.length) is

/-- A segment is finished that is not its packet's last: its tokens are appended, and the next one begins on a lane chosen anew (R146). -/
def State.segmentPart (w : Work) (v : Version) (items : List Item) (s : State) : State :=
  let toks := itemTokens items
  let s1 := s.memoise v items
  let s2 := if w.pkt.standalone then s1.onWork w.pkt (fun w => { w with r2 := w.r2 + toks.length })
    else
      (State.stow (slotOf w.pkt.stream) <| s1.onStream (slotOf w.pkt.stream) (fun t =>
        let t1 := t.enqueue s.aon.time toks
        { t1 with enc := { t1.enc with prompt := t1.enc.prompt + toks.length, docTokens := t1.enc.docTokens + toks.length } })).onWork w.pkt
        (fun w => { w with r0 := w.r0 + toks.length })
  s2.beginSegment w v

/-- The last segment of a packet is finished. -/
def State.segmentLast (w : Work) (v : Version) (s : State) : State :=
  if w.pkt.standalone then s.standaloneEnd w v
  else match s.live? w.pkt.stream with
    | none => s
    | some t => s.segmentEnd w v t

/-- SEGMENT_DONE (R146): once its transom pieces are back, a segment of so many items, or the last one of the packet, is finished; a packet
that no lane has goes to one now. While a literal bank is being reloaded the lane's searches are held (R299). -/
def execSegmentDone (dt ap : Nat) (seg : SegmentEnd) (s : State) : Res :=
  let s1 := s.elapse dt
  .next (match s1.workOf ap seg.pos with
    | none => s1
    | some w =>
      if w.pkt.opcode != 0x0401 then s1
      else match s1.workVersion w with
        | none => s1
        | some v =>
          if w.lane.isNone then s1.beginSegment w v
          else
            let items := s1.workItems w v
            let n := min (max 1 (seg.upTo.getD items.length)) (segmentLimit 0 items)
            if transomPieces (items.drop n) < w.r1 then s1
            else if s1.useReloading 4 && !v.special.isEmpty && !w.pkt.noSpecial then s1
            else if n < items.length then (s1.countLane w v items).segmentPart w v (items.take n)
            else (s1.countLane w v items).segmentLast w v)

/-! ### enc.raw (R154, R158) -/

/-- Special tokens among canonical IDs. -/
def Vocab.specials (v : Vocab) (l : List Nat) : Nat := (l.filter v.isSpecial).length

/-- enc.raw (R154). -/
def encRawWork (p : Pkt) (s : State) : State :=
  match s.packetVersion p with
  | none => s.refuse p stNotResident
  | some v =>
    let ids := tokenIds p.payload
    if ids.any (fun m => decide (v.prof.vocab ≤ m)) then s.refuse p stBadPacket
    else
      let toks := v.prof.toCanon ids
      let n := v.vocab.specials toks
      if p.standalone then s.done p 0 (some ids.length) (some n) none
      else
        match s.live? p.stream with
        | none => s.refuse p stStaleHandle
        | some t =>
          let slot := t.id.slot
          let (s1, k) := s.endHeal slot
          let s2 := (s1.toPrompt slot).onStream slot (fun t =>
            let t1 := t.enqueue s.aon.time toks
            { t1 with enc := { t1.enc with promptDone := false, prompt := t1.enc.prompt + toks.length } })
          (s2.stow slot).done p 0 (some (ids.length + k)) (some n) (some (t.enc.prompt + k + toks.length))

/-- ENC_RAW (R154). -/
def execEncRaw (dt ap pos : Nat) (s : State) : Res := .next ((s.elapse dt).runPacket (isOp 0x0402) ap pos encRawWork)

end Sys2Proof.Machine
end

