-- ==== Sys2Proof/Machine/Crypto.lean ====
section
/-! DEFINITION. The signature check of R84: SHA-384 (FIPS 180-4) and ECDSA over P-384. Words of the hash and field elements
are natural numbers. -/
namespace Sys2Proof.Machine.Crypto

/-! ### SHA-384 -/

/-- The 80 round constants. -/
def roundK : List Nat :=
  [0x428A2F98D728AE22, 0x7137449123EF65CD, 0xB5C0FBCFEC4D3B2F, 0xE9B5DBA58189DBBC,
   0x3956C25BF348B538, 0x59F111F1B605D019, 0x923F82A4AF194F9B, 0xAB1C5ED5DA6D8118,
   0xD807AA98A3030242, 0x12835B0145706FBE, 0x243185BE4EE4B28C, 0x550C7DC3D5FFB4E2,
   0x72BE5D74F27B896F, 0x80DEB1FE3B1696B1, 0x9BDC06A725C71235, 0xC19BF174CF692694] ++
  [0xE49B69C19EF14AD2, 0xEFBE4786384F25E3, 0x0FC19DC68B8CD5B5, 0x240CA1CC77AC9C65,
   0x2DE92C6F592B0275, 0x4A7484AA6EA6E483, 0x5CB0A9DCBD41FBD4, 0x76F988DA831153B5,
   0x983E5152EE66DFAB, 0xA831C66D2DB43210, 0xB00327C898FB213F, 0xBF597FC7BEEF0EE4,
   0xC6E00BF33DA88FC2, 0xD5A79147930AA725, 0x06CA6351E003826F, 0x142929670A0E6E70] ++
  [0x27B70A8546D22FFC, 0x2E1B21385C26C926, 0x4D2C6DFC5AC42AED, 0x53380D139D95B3DF,
   0x650A73548BAF63DE, 0x766A0ABB3C77B2A8, 0x81C2C92E47EDAEE6, 0x92722C851482353B,
   0xA2BFE8A14CF10364, 0xA81A664BBC423001, 0xC24B8B70D0F89791, 0xC76C51A30654BE30,
   0xD192E819D6EF5218, 0xD69906245565A910, 0xF40E35855771202A, 0x106AA07032BBD1B8] ++
  [0x19A4C116B8D2D0C8, 0x1E376C085141AB53, 0x2748774CDF8EEB99, 0x34B0BCB5E19B48A8,
   0x391C0CB3C5C95A63, 0x4ED8AA4AE3418ACB, 0x5B9CCA4F7763E373, 0x682E6FF3D6B2B8A3,
   0x748F82EE5DEFB2FC, 0x78A5636F43172F60, 0x84C87814A1F0AB72, 0x8CC702081A6439EC,
   0x90BEFFFA23631E28, 0xA4506CEBDE82BDE9, 0xBEF9A3F7B2C67915, 0xC67178F2E372532B] ++
  [0xCA273ECEEA26619C, 0xD186B8C721C0C207, 0xEADA7DD6CDE0EB1E, 0xF57D4F7FEE6ED178,
   0x06F067AA72176FBA, 0x0A637DC5A2C898A6, 0x113F9804BEF90DAE, 0x1B710B35131C471B,
   0x28DB77F523047D84, 0x32CAAB7B40C72493, 0x3C9EBE0A15C9BEBC, 0x431D67C49C100D4C,
   0x4CC5D4BECB3E42B6, 0x597F299CFC657E2A, 0x5FCB6FAB3AD6FAEC, 0x6C44198C4A475817]

/-- The initial hash value of SHA-384. -/
def hashInit : List Nat :=
  [0xCBBB9D5DC1059ED8, 0x629A292A367CD507, 0x9159015A3070DD17, 0x152FECD8F70E5939, 0x67332667FFC00B31, 0x8EB44A8768581511, 0xDB0C2E0D64F98FA7, 0x47B5481DBEFA4FA4]

/-- Addition of 64-bit words. -/
def add64 (a b : Nat) : Nat := (a + b) % 2 ^ 64

/-- Rotation of a 64-bit word to the right. -/
def rotr (x n : Nat) : Nat := (x >>> n) ||| (x <<< (64 - n)) % 2 ^ 64

/-- Big-endian value of a byte string. -/
def be (bs : Bytes) : Nat := bs.foldl (fun v b => v * 256 + b.toNat) 0

/-- n bytes of a value, big-endian. -/
def beBytes (n v : Nat) : Bytes := (leBytes n v).reverse

/-- The message padded to blocks of 128 bytes. -/
def padded (m : Bytes) : Bytes :=
  let z := (239 - m.length % 128) % 128
  m ++ [0x80#8] ++ List.replicate z 0#8 ++ beBytes 16 (8 * m.length)

/-- Extends the message schedule, kept newest first, by n words. -/
def schedule : Nat → List Nat → List Nat
  | 0, w => w
  | n + 1, w =>
    let x := w.getD 14 0
    let y := w.getD 1 0
    let s0 := rotr x 1 ^^^ rotr x 8 ^^^ (x >>> 7)
    let s1 := rotr y 19 ^^^ rotr y 61 ^^^ (y >>> 6)
    schedule n (add64 (add64 (w.getD 15 0) s0) (add64 (w.getD 6 0) s1) :: w)

/-- One round on the eight working words. -/
def round (v : List Nat) (k w : Nat) : List Nat :=
  match v with
  | [a, b, c, d, e, f, g, h] =>
    let s1 := rotr e 14 ^^^ rotr e 18 ^^^ rotr e 41
    let ch := (e &&& f) ^^^ ((2 ^ 64 - 1 - e) &&& g)
    let t1 := add64 (add64 (add64 h s1) (add64 ch k)) w
    let s0 := rotr a 28 ^^^ rotr a 34 ^^^ rotr a 39
    let mj := (a &&& b) ^^^ (a &&& c) ^^^ (b &&& c)
    [add64 t1 (add64 s0 mj), a, b, c, add64 d t1, e, f, g]
  | _ => v

/-- One block. -/
def block (h : List Nat) (b : Bytes) : List Nat :=
  let w0 := ((List.range 16).map (fun i => be (slice b (8 * i) 8))).reverse
  let w := (schedule 64 w0).reverse
  let v := (roundK.zip w).foldl (fun v kw => round v kw.1 kw.2) h
  (h.zip v).map (fun x => add64 x.1 x.2)

/-- SHA-384 as a number of 384 bits. -/
def sha384 (m : Bytes) : Nat :=
  (((chunksOf 128 (padded m)).foldl block hashInit).take 6).foldl (fun v x => v * 2 ^ 64 + x) 0

/-! ### P-384 -/

/-- The field prime, the curve coefficient b, the group order and the base point. -/
def prime : Nat := 2 ^ 384 - 2 ^ 128 - 2 ^ 96 + 2 ^ 32 - 1
def coeffB : Nat :=
  0xB3312FA7E23EE7E4988E056BE3F82D19181D9C6EFE8141120314088F5013875AC656398D8A2ED19D2A85C8EDD3EC2AEF
def order : Nat :=
  0xFFFFFFFFFFFFFFFFFFFFFFFFFFFFFFFFFFFFFFFFFFFFFFFFC7634D81F4372DDF581A0DB248B0A77AECEC196ACCC52973
def baseX : Nat :=
  0xAA87CA22BE8B05378EB1C71EF320AD746E1D3B628BA79B9859F741E082542A385502F25DBF55296C3A545E3872760AB7
def baseY : Nat :=
  0x3617DE4A96262C6F5D9E98BF9292DC29F8F41DBD289A147CE9DA3113B5F0B8C00A60B1CE1D7E819D7A431D7C90EA0E5F

/-- Subtraction in the field. -/
def sub (a b : Nat) : Nat := (a + prime - b % prime) % prime

/-- b^e modulo m over n bits of e, most significant first. -/
def powMod (m b e : Nat) : Nat → Nat
  | 0 => 1 % m
  | n + 1 => powMod m b (e / 2) n |> fun h => if e % 2 == 1 then h * h % m * b % m else h * h % m

/-- A point in Jacobian coordinates; z = 0 is the point at infinity. -/
structure Point where
  x : Nat
  y : Nat
  z : Nat
  deriving DecidableEq, Repr

/-- Doubling on a curve with a = -3. -/
def double (p : Point) : Point :=
  if p.z == 0 || p.y == 0 then ⟨1, 1, 0⟩
  else
    let zz := p.z * p.z % prime
    let m := 3 * sub p.x zz * ((p.x + zz) % prime) % prime
    let yy := p.y * p.y % prime
    let s := 4 * p.x * yy % prime
    let x := sub (m * m) (2 * s)
    ⟨x, sub (m * sub s x) (8 * yy * yy), 2 * p.y * p.z % prime⟩

/-- Addition of two points. -/
def addPt (p q : Point) : Point :=
  if p.z == 0 then q
  else if q.z == 0 then p
  else
    let pz := p.z * p.z % prime
    let qz := q.z * q.z % prime
    let u1 := p.x * qz % prime
    let u2 := q.x * pz % prime
    let s1 := p.y * qz % prime * q.z % prime
    let s2 := q.y * pz % prime * p.z % prime
    if u1 == u2 then (if s1 == s2 then double p else ⟨1, 1, 0⟩)
    else
      let h := sub u2 u1
      let r := sub s2 s1
      let hh := h * h % prime
      let hhh := h * hh % prime
      let v := u1 * hh % prime
      let x := sub (sub (r * r) hhh) (2 * v)
      ⟨x, sub (r * sub v x) (s1 * hhh), p.z * q.z % prime * h % prime⟩

/-- A multiple of a point, over n bits of the factor. -/
def mulPt (p : Point) (k : Nat) : Nat → Point
  | 0 => ⟨1, 1, 0⟩
  | n + 1 =>
    let h := double (mulPt p (k / 2) n)
    if k % 2 == 1 then addPt h p else h

/-- Whether a pair is a point of the curve. -/
def onCurve (x y : Nat) : Bool :=
  decide (x < prime) && decide (y < prime) && y * y % prime == (sub (x * x * x) (3 * x) + coeffB) % prime

/-- ECDSA verification of a hash of 384 bits. -/
def verify (key : Nat × Nat) (e r s : Nat) : Bool :=
  if decide (1 ≤ r) && decide (r < order) && decide (1 ≤ s) && decide (s < order) && onCurve key.1 key.2 then
    let w := powMod order s (order - 2) 384
    let p := addPt (mulPt ⟨baseX, baseY, 1⟩ (e * w % order) 384) (mulPt ⟨key.1, key.2, 1⟩ (r * w % order) 384)
    if p.z == 0 then false
    else
      let zi := powMod prime p.z (prime - 2) 384
      p.x * (zi * zi % prime) % prime % order == r
  else false

end Sys2Proof.Machine.Crypto
end

