-- ==== Sys2Proof/Machine/Image.lean ====
section
/-! DEFINITION. The format of images (R80 to R87, R93 to R98, R122 to R127, R160, R161, R199 to R205, R219 to R222): header and
directory, and each section's body with the checks that it passes by itself or against its profile. -/
namespace Sys2Proof.Machine
open Sys2Proof

/-- k fields of n bytes each from an offset. -/
def tableAt (b : Bytes) (off n k : Nat) : List Nat := fields n k (b.drop off)

/-- Whether a range lies in a body. -/
def fitsIn (b : Bytes) (off n : Nat) : Bool := decide (off + n ≤ b.length)

/-! ### Header and directory (R80 to R82) -/

/-- A directory entry (R81) with its 32 bytes. -/
structure DirEnt where
  kind : Nat
  sflags : Nat
  target : Nat
  offset : Nat
  length : Nat
  crc : Nat
  pool : Nat
  need : Nat
  raw : Bytes
  deriving DecidableEq, Repr

/-- An image header with its directory (R80). -/
structure ImgHdr where
  additive : Bool
  pin : Bool
  gen : Nat
  total : Nat
  dir : List DirEnt
  deriving DecidableEq, Repr

/-- The directory entry that 32 bytes spell. -/
def dirEnt (b : Bytes) : DirEnt :=
  { kind := rd b 0 1, sflags := rd b 1 1, target := rd b 2 2, offset := rd b 4 4, length := rd b 8 4, crc := rd b 12 4,
    pool := rd b 16 1, need := rd b 20 4, raw := b.take 32 }

def DirEnt.isSigned (d : DirEnt) : Bool := bit d.sflags 0
def DirEnt.ofGrammar (d : DirEnt) : Bool := bit d.sflags 1

/-- The end of a body and of its signature block (R84). -/
def DirEnt.bodyEnd (d : DirEnt) : Nat := d.offset + d.length
def DirEnt.stop (d : DirEnt) : Nat := d.bodyEnd + (if d.isSigned then 104 else 0)

/-- The range of a directory entry's fields (R81, R82, R97). -/
def DirEnt.inRange (additive : Bool) (d : DirEnt) : Bool :=
  (1 ≤ d.kind && d.kind ≤ 6) && decide (d.sflags < 4) && (d.kind == 6 || !d.ofGrammar) && d.offset % 64 == 0 &&
  decide (d.pool ≤ 2) && allZero (slice d.raw 17 3) && allZero (slice d.raw 24 8) &&
  (match d.kind with
    | 1 => d.target == 0
    | 3 => if additive then d.target == 0xFFFF else decide (d.target < 4096)
    | 6 => d.length == 0 && decide (d.target < (if d.ofGrammar then 4096 else 16))
    | _ => decide (d.target < 16))

/-- Whether two entries name one KIND and TARGET, or one removes what the other supplies (R82). -/
def DirEnt.clashes (a b : DirEnt) : Bool :=
  let same := a.target == b.target
  (a.kind == b.kind && same) || (a.kind == 1 && b.kind == 1) ||
  (a.kind == 6 && same && (if a.ofGrammar then b.kind == 3 else [2, 4, 5].contains b.kind)) ||
  (b.kind == 6 && same && (if b.ofGrammar then a.kind == 3 else [2, 4, 5].contains a.kind))

/-- Whether the bodies of two entries overlap. -/
def DirEnt.overlaps (a b : DirEnt) : Bool :=
  a.offset != a.stop && b.offset != b.stop && decide (a.offset < b.stop) && decide (b.offset < a.stop)

/-- A relation that holds of no two elements of a list. -/
def noPair {α : Type} (f : α → α → Bool) : List α → Bool
  | [] => true
  | x :: xs => xs.all (fun y => !f x y) && noPair f xs

/-- Header and directory of an image's first chunk, or the status of its refusal (R80 to R83, R102). -/
def imageHeader (b : Bytes) : Nat ⊕ ImgHdr :=
  let n := rd b 12 2
  let head := 32 + 32 * n
  if b.length < 32 || n == 0 || 64 < n || b.length < head then .inl stBadPacket
  else if crc32c (b.take 16 ++ slice b 32 (32 * n)) != rd b 16 4 then .inl stBadCrc
  else
    let fl := rd b 5 1
    let h : ImgHdr := { additive := bit fl 0, pin := bit fl 1, gen := rd b 6 2, total := rd b 8 4,
                        dir := (List.range n).map (fun i => dirEnt (slice b (32 + 32 * i) 32)) }
    if rd b 0 4 == 0x314B584A && rd b 4 1 == 1 && decide (fl < 4) && (h.gen == 0) == h.additive && (!h.pin || h.additive) &&
      decide (head ≤ h.total) && decide (h.total ≤ 0x10000000) && rd b 14 2 == 0 && allZero (slice b 20 12) &&
      h.dir.all (DirEnt.inRange h.additive) && noPair DirEnt.clashes h.dir && noPair DirEnt.overlaps h.dir &&
      h.dir.all (fun d => decide (d.stop ≤ h.total) && (d.offset == d.stop || decide (head ≤ d.offset))) &&
      (!h.additive || (n == 1 && h.dir.all (fun d => d.kind == 3)))
    then .inr h else .inl stBadPacket

/-- The body of a directory entry. -/
def DirEnt.body (d : DirEnt) (b : Bytes) : Bytes := slice b d.offset d.length

/-- The signature of a section verifies under the delivered keys (R84, R85). -/
def DirEnt.verified (d : DirEnt) (keys : List (Option (Nat × Nat))) (b : Bytes) : Bool :=
  if !d.isSigned then true
  else
    let sg := slice b d.bodyEnd 104
    let slot := rd sg 0 1
    decide (slot < 4) && allZero (slice sg 1 7) &&
    (match keys.getD slot none with
      | some k => Crypto.verify k (Crypto.sha384 (d.raw ++ d.body b)) (rd sg 8 48) (rd sg 56 48)
      | none => false)

/-! ### FRAME (R87 to R91, R277, R381) -/

/-- The frame that a body spells. -/
def frameOf (b : Bytes) : Frame :=
  { personality := rd b 0 1, sigPolicy := rd b 1 1, inGroup := bit (rd b 2 1) 0, groupNum := rd b 3 1, master := rd b 4 1,
    deputy := rd b 5 1, members := rd b 8 8, pools := tableAt b 0x10 2 6, beryl := tableAt b 0x20 1 32,
    partition := (List.range 16).map (fun i =>
      let o := 0x40 + 16 * i
      (rd b o 2, rd b (o + 2) 2, rd b (o + 4) 2, rd b (o + 8) 8)) }

/-- Least pool sizes in MiB (R88). -/
def poolMin : List Nat := [16, 16, 8, 8, 4, 4]

/-- The width that a use requires (R89). -/
def widthOf (use : Nat) : Nat := [0, 1, 0, 0, 2].getD use 3

/-- Whether a frame passes R15, R87 to R91, R277 and R381. -/
def frameOk (b : Bytes) : Bool :=
  let f := frameOf b
  let uses := f.beryl.map (· % 8)
  let inUse := (uses.filter (· != 0)).length
  b.length == 320 && (1 ≤ f.personality && f.personality ≤ 7) && decide (f.sigPolicy ≤ 1) && decide (rd b 2 1 ≤ 1) &&
  decide (f.groupNum < 64) && decide (f.master < 64) && decide (f.deputy < 64) && rd b 6 2 == 0 && rd b 0x1C 4 == 0 &&
  (if f.inGroup then
      f.members.testBit f.groupNum && f.members.testBit f.master && f.members.testBit f.deputy && f.master != f.deputy
    else f.groupNum == 0 && f.master == 0 && f.deputy == 0 && f.members == 0) &&
  f.pools.foldl (· + ·) 0 == 224 && (f.pools.zip poolMin).all (fun p => decide (p.2 ≤ p.1) && p.1 % 4 == 0) &&
  f.beryl.all (fun e => bits e 5 3 == 0 && decide (e % 8 ≤ 4) && e / 64 == widthOf (e % 8)) &&
  uses.contains 2 && uses.contains 3 && decide (inUse * 131072 ≤ f.pools.getD 5 0 * 2 ^ 20 / 2) &&
  (List.range 16).all (fun i => rd b (0x46 + 16 * i) 2 == 0)

/-! ### PROFILE (R93, R98, R122 to R127, R160, R161) -/

/-- The tokens of an offset table and a byte pool (R125). -/
def tokensOf (offs : List Nat) (pool : Bytes) : List Bytes :=
  (offs.zip (offs.drop 1)).map (fun p => slice pool p.1 (p.2 - p.1))

/-- A field of a table in the signed reading of R126. -/
def profileOf (b : Bytes) : Profile :=
  let n := rd b 0 4
  let norm := b.drop (rd b 0x18 4)
  let split := b.drop (rd b 0x1C 4)
  let toks := b.drop (rd b 0x20 4)
  let seg := b.drop (rd b 0x24 4)
  let dec := b.drop (rd b 0x28 4)
  let algo := rd b 4 1
  let states := rd b 6 2
  let count := if algo == 0 then rd seg 0 4 else 0
  { vocab := n, algo := algo, pflags := rd b 5 1, splitStates := states, canonCrc := rd b 8 4,
    c2m := tableAt b (rd b 0x10 4) 4 n, m2c := tableAt b (rd b 0x14 4) 4 n, wsflags := rd norm 0 1, invalid := rd norm 1 1,
    ucd := rd norm 2 2, unkId := rd norm 4 4, byteIds := tableAt norm 0x10 4 256, splitHdrStates := rd split 0 2,
    maxBack := rd split 2 1, split := tableAt split 0x10 2 (256 * states), offs := tableAt toks 0 4 (n + 1),
    tokens := tokensOf (tableAt toks 0 4 (n + 1)) (toks.drop (4 * (n + 1))),
    merges := (List.range count).map (fun k =>
      { left := rd seg (16 + 16 * k) 4, right := rd seg (20 + 16 * k) 4, result := rd seg (24 + 16 * k) 4,
        rank := rd seg (28 + 16 * k) 4 }),
    unkScore := if algo == 1 then signed32 (rd seg 0 4) else 0, scores := if algo == 1 then tableAt seg 16 4 n else [],
    contLen := if algo == 2 then rd seg 0 1 else 0, lmflags := if algo == 2 then rd seg 1 1 else 0,
    cont := if algo == 2 then slice seg 8 (rd seg 0 1) else [], dflags := rd dec 0 1, outInvalid := rd dec 1 1 }

/-- NEXT and ACCEPT of the pre-split DFA (R124). -/
def Profile.splitNext (p : Profile) (s b : Nat) : Nat := p.split.getD (256 * s + b) 0 % 4096
def Profile.splitAccept (p : Profile) (s b : Nat) : Bool := bit (p.split.getD (256 * s + b) 0) 15

/-- States that k transitions through non-accepting live states lead to from given states. -/
def Profile.backSet (p : Profile) : Nat → List Nat → List Nat
  | 0, l => l
  | k + 1, l => p.backSet k (((l.flatMap (fun s => (List.range 256).filterMap (fun b =>
      if !p.splitAccept s b && p.splitNext s b != 0 then some (p.splitNext s b) else none)))).eraseDups)

/-- The pre-split DFA is as R124 and R127 ask. -/
def Profile.splitOk (p : Profile) : Bool :=
  let accepting := ((List.range p.splitStates).flatMap (fun s => (List.range 256).filterMap (fun b =>
    if p.splitAccept s b then some (p.splitNext s b) else none))).eraseDups
  p.splitHdrStates == p.splitStates && decide (p.maxBack ≤ 64) &&
  p.split.all (fun e => bits e 14 12 == 0 && decide (e % 4096 < p.splitStates)) && (p.split.take 256).all (· == 0) &&
  (p.backSet (p.maxBack + 1) accepting).isEmpty

/-- Merges in order of LEFT and then RIGHT. -/
def mergeBefore (a b : Merge) : Bool := decide (a.left < b.left) || (a.left == b.left && decide (a.right < b.right))

/-- The merge list is as R126, R127 and R140 ask. -/
def Profile.mergesOk (p : Profile) : Bool :=
  let tok (c : Nat) : Bytes := p.tokens.getD c []
  decide (p.merges.length ≤ 2 ^ 20) && (p.merges.zip (p.merges.drop 1)).all (fun m => mergeBefore m.1 m.2) &&
  noDup (p.merges.map (·.rank)) &&
  p.merges.all (fun m => decide (m.left < p.vocab) && decide (m.right < p.vocab) && decide (m.result < p.vocab) &&
    tok m.result == tok m.left ++ tok m.right &&
    p.merges.all (fun q => (q.result != m.left && q.result != m.right) || decide (q.rank < m.rank)))

/-- The two translation tables (R98). -/
def Profile.canonOk (p : Profile) : Bool :=
  p.canonCrc == crc32c (p.c2m.flatMap (leBytes 4)) && p.c2m.all (fun m => decide (m < p.vocab)) &&
  (List.range p.vocab).all (fun c => p.m2c.getD (p.c2m.getD c 0) p.vocab == c) &&
  (List.range p.vocab).all (fun m => p.c2m.getD (p.m2c.getD m 0) p.vocab == m)

/-- Flags, normalisation and decode rules (R122, R123, R127, R160, R161). -/
def Profile.rulesOk (p : Profile) : Bool :=
  let none32 := 0xFFFFFFFF
  decide (p.pflags < 64) && p.form != 3 && p.caseMap != 3 && decide (p.wsflags < 64) && decide (p.invalid ≤ 2) &&
  p.ucd == 0x0F01 && (p.invalid != 2 || (p.byteLevel && p.form == 0 && p.caseMap == 0)) &&
  (p.unkId == none32 || decide (p.unkId < p.vocab)) &&
  (!(p.byteLevel || p.byteFallback) || (p.byteIds.zipIdx).all (fun e =>
    decide (e.1 < p.vocab) && p.tokens.getD e.1 [] == [BitVec.ofNat 8 e.2])) &&
  (p.byteLevel || p.byteFallback || p.unkId != none32) && (p.algo != 2 || !bit p.lmflags 0 || p.unkId != none32) &&
  decide (p.dflags < 8) && decide (p.outInvalid ≤ 1) && (!bit p.dflags 2 || (p.algo == 2 && p.contLen != 0))

/-- The segmentation table's own header (R126). -/
def segOk (b : Bytes) (p : Profile) : Bool :=
  let o := rd b 0x24 4
  let seg := b.drop o
  match p.algo with
  | 0 => fitsIn b o (16 + 16 * p.merges.length) && allZero (slice seg 4 12)
  | 1 => fitsIn b o (16 + 4 * p.vocab) && allZero (slice seg 4 12)
  | _ =>
    fitsIn b o 16 && decide (p.contLen ≤ 8) && decide (p.lmflags < 2) && allZero (slice seg 2 6) &&
    allZero (slice seg (8 + p.contLen) (8 - p.contLen))

/-- Whether a PROFILE body is accepted (R93, R98, R127, R161). -/
def profileOk (b : Bytes) : Bool :=
  let p := profileOf b
  let n := p.vocab
  let norm := b.drop (rd b 0x18 4)
  (1 ≤ n && n ≤ 2 ^ 20) && decide (p.algo ≤ 2) && (1 ≤ p.splitStates && p.splitStates ≤ 4096) && rd b 0x0C 4 == 0 &&
  decide (64 ≤ b.length) && allZero (slice b 0x2C 20) && fitsIn b (rd b 0x10 4) (4 * n) && fitsIn b (rd b 0x14 4) (4 * n) &&
  fitsIn b (rd b 0x18 4) 1040 && allZero (slice norm 8 8) && fitsIn b (rd b 0x1C 4) (16 + 512 * p.splitStates) &&
  allZero (slice b (rd b 0x1C 4 + 3) 13) && fitsIn b (rd b 0x20 4) (4 * (n + 1) + p.offs.getLast?.getD 0) &&
  (p.offs.zip (p.offs.drop 1)).all (fun o => decide (o.1 ≤ o.2) && decide (o.2 ≤ o.1 + 128)) &&
  fitsIn b (rd b 0x28 4) 16 && allZero (slice b (rd b 0x28 4 + 2) 14) && segOk b p && p.canonOk && p.splitOk && p.mergesOk &&
  p.rulesOk

/-! ### STOP and SPECIAL (R95, R96, R127, R161) -/

/-- The stop defaults that a body spells, when it is accepted. -/
def stopBody (b : Bytes) : Option (List StopEnt) :=
  let n := rd b 0 1
  if decide (n ≤ 16) && b.length == 8 + 72 * n && allZero (slice b 1 7) then stopEntries n (b.drop 8) else none

/-- The special tokens that a body spells, by canonical ID. -/
def specialOf (p : Profile) (b : Bytes) : List Special :=
  (List.range (rd b 0 2)).map (fun i =>
    let e := slice b (8 + 40 * i) 40
    { canon := p.m2c.getD (rd e 0 4) 0, lit := slice e 8 (rd e 4 1), spfl := rd e 5 1 })

/-- What R7, R96 and R127 ask of a SPECIAL body whatever its profile: its layout, and no MODEL_ID and no literal twice. -/
def specialForm (b : Bytes) : Bool :=
  let n := rd b 0 2
  let entry (i : Nat) : Bytes := slice b (8 + 40 * i) 40
  decide (n ≤ 1024) && b.length == 8 + 40 * n && allZero (slice b 2 6) &&
  (List.range n).all (fun i =>
    let e := entry i
    let len := rd e 4 1
    decide (rd e 0 4 < 2 ^ 20) && (1 ≤ len && len ≤ 32) && decide (rd e 5 1 < 4) && rd e 6 2 == 0 &&
    allZero (slice e (8 + len) (32 - len))) &&
  noDup ((List.range n).map (fun i => rd (entry i) 0 4)) && noDup ((List.range n).map (fun i => slice (entry i) 8 (rd (entry i) 4 1)))

/-- Whether a SPECIAL body agrees with its profile: each ID is in the vocabulary, and each literal is in normalised form (R96, R127). -/
def specialOk (p : Profile) (b : Bytes) : Bool :=
  (List.range (rd b 0 2)).all (fun i =>
    let e := slice b (8 + 40 * i) 40
    let lit := slice e 8 (rd e 4 1)
    decide (rd e 0 4 < p.vocab) && ((normalise p .refuse false true lit).map (fun t => Text.bytes t.text)) == some lit)

/-! ### GRAMMAR (R94, R199 to R205, R219 to R222) -/

/-- The bits of n bytes as one number. -/
def leafOf (b : Bytes) : Nat := le b

/-- The pane record at an offset of the pane sub-table (R219 to R221). -/
def paneRecord (sub : Bytes) (off : Nat) : PaneSet :=
  let r := sub.drop off
  let n := rd r 2 2
  { off := off, panes := rd r 0 2, count := rd r 4 4,
    codes := (tableAt r 0x10 1 256).flatMap (fun x => [x % 4, x / 4 % 4, x / 16 % 4, x / 64]),
    leaves := (List.range n).map (fun i => leafOf (slice r (0x110 + 128 * i) 128)) }

/-- A terminal set at an offset of the terminal-set sub-table (R201): each entry with its SKIP bit. -/
def tsetAt (sub : Bytes) (off : Nat) : List (Bool × Nat) :=
  (tableAt sub (off + 2) 2 (rd sub off 2)).map (fun e => (bit e 15, e % 4096))

/-- Rows of the action or goto sub-table (R202). -/
def rowsOf (sub : Bytes) (symbols : Nat) : List (List Nat) :=
  (List.range symbols).map (fun i => tableAt sub (rd sub (8 * i) 4) 4 (rd sub (8 * i + 4) 2))

/-- A CD list (R204): canonical ID 0xF_FFFF has no trace. -/
def cdListOf (sub : Bytes) (off count : Nat) : List CdEnt :=
  (List.range count).map (fun i =>
    let e := slice sub (off + 8 * i) 8
    let tok := rd e 0 4 % 2 ^ 20
    let tr := rd e 4 4
    if tok == 0xFFFFF then { token := tok, cost := rd e 3 1, traceOff := tr, finalLex := 0, sets := [] }
    else { token := tok, cost := rd e 3 1, traceOff := tr, finalLex := rd sub tr 2, sets := tableAt sub (tr + 4) 2 (rd sub (tr + 2) 1) })

/-- A slot of the configuration table (R203). -/
def configSlot (b : Bytes) (offConfig offCd i : Nat) : Option GConfig :=
  let e := slice b (offConfig + 32 * i) 32
  let top := rd e 2 2
  if !bit top 15 then none
  else some { lex := rd e 0 2, top := top % 2 ^ 14, pane := rd e 4 4, guard := rd e 8 4,
              cd := cdListOf (b.drop offCd) (rd e 12 4) (rd e 16 2), eclass := rd e 18 1, cost := rd e 20 4, index := rd e 24 4 }

/-- The Garnet tables that a body spells (R199 to R204). -/
def tablesOf (b : Bytes) : GTables :=
  let off (i : Nat) : Nat := rd b (0x2C + 4 * i) 4
  let lexStates := rd b 0x10 2
  let classes := rd b 0x12 2
  let symbols := rd b 0x16 2
  let slots := rd b 0x20 4
  let lex := b.drop (off 0)
  let ts := b.drop (off 1)
  let config := (List.range slots).map (configSlot b (off 5) (off 6))
  { lexStates := lexStates, classes := classes, terminals := rd b 0x14 2, symbols := symbols, nonterms := rd b 0x18 2,
    configs := rd b 0x1C 4, ctSlots := slots, popLimit := rd b 0x24 1, pushLimit := rd b 0x25 1, cdCost := rd b 0x28 4,
    byteClass := tableAt lex 0 1 256,
    lexInfo := (tableAt lex 0x100 4 lexStates).map (fun e => (e % 65536, e / 65536)),
    trans := tableAt lex (0x100 + 4 * lexStates) 2 (lexStates * classes),
    tsets := (tableAt ts 16 4 (rd ts 0 4)).map (tsetAt ts),
    action := (rowsOf (b.drop (off 2)) symbols).map (fun r => r.map (fun e =>
      { term := e % 4096, kind := bits e 17 16, target := bits e 31 18 })),
    gotos := (rowsOf (b.drop (off 3)) symbols).map (fun r => r.map (fun e => (e % 16384, bits e 31 18))),
    rules := (tableAt b (off 4) 4 (rd b 0x1A 2)).map (fun e => (bits e 29 16, e % 128)),
    config := config,
    panes := (((config.filterMap id).flatMap (fun c => [c.pane, c.guard])).eraseDups).map (paneRecord (b.drop (off 7))),
    ends := (tableAt b (off 8) 4 (rd b 0x26 1)).map (· % 2 ^ 20) }

/-- The GRAMMAR body that bytes spell (R94). -/
def gramOf (b : Bytes) : GramBody :=
  { profile := rd b 0 1, carry := bit (rd b 1 1) 0, canonCrc := rd b 4 4, carryFrom := rd b 8 4, cdLimit := rd b 12 4,
    tab := tablesOf b }

/-- The greatest of some ends. -/
def maxOf (l : List Nat) : Nat := l.foldl max 0

/-- Lengths of the nine sub-tables, each as far as its contents reach (R205). -/
def subLengths (b : Bytes) (g : GTables) : List Nat :=
  let off (i : Nat) : Nat := rd b (0x2C + 4 * i) 4
  let ts := b.drop (off 1)
  let n := rd ts 0 4
  let rowsEnd (i : Nat) : Nat := maxOf ((8 * g.symbols) :: (List.range g.symbols).map (fun k =>
    rd b (off i + 8 * k) 4 + 4 * rd b (off i + 8 * k + 4) 2))
  let cfgs := g.config.filterMap id
  let cdEnd := maxOf ((List.range g.ctSlots).flatMap (fun i =>
    let e := slice b (off 5 + 32 * i) 32
    if bit (rd e 2 2) 15 then [rd e 12 4 + 8 * rd e 16 2] else []))
  let traceEnd := maxOf ((cfgs.flatMap (·.cd)).map (fun e => if e.token == 0xFFFFF then 0 else e.traceOff + 4 + 2 * e.sets.length))
  [0x100 + 4 * g.lexStates + 2 * (g.lexStates * g.classes),
   maxOf ((16 + 4 * n) :: (tableAt ts 16 4 n).map (fun o => o + 2 + 2 * rd ts o 2)),
   rowsEnd 2, rowsEnd 3, 4 * g.rules.length, 32 * g.ctSlots, max cdEnd traceEnd,
   maxOf (g.panes.map (fun p => p.off + 0x110 + 128 * p.leaves.length)), 4 * g.ends.length]

/-- Every sub-table lies in the body at a multiple of 64 and overlaps no other (R199, R205). -/
def subsOk (b : Bytes) (g : GTables) : Bool :=
  let spans := ((subLengths b g).zipIdx).map (fun x => (rd b (0x2C + 4 * x.2) 4, x.1))
  spans.all (fun s => s.1 % 64 == 0 && decide (s.1 + s.2 ≤ b.length) && (s.2 == 0 || decide (0x60 ≤ s.1))) &&
  noPair (fun x y => x.2 != 0 && y.2 != 0 && decide (x.1 < y.1 + y.2) && decide (y.1 < x.1 + x.2)) spans

/-- Counts and limits of the Garnet header (R199, R208). -/
def gramHeaderOk (b : Bytes) (cdLimit : Nat) : Bool :=
  let r (o n lo hi : Nat) : Bool := decide (lo ≤ rd b o n) && decide (rd b o n ≤ hi)
  let configs := rd b 0x1C 4
  let slots := rd b 0x20 4
  decide (0x60 ≤ b.length) && r 0 1 0 15 && r 1 1 0 1 && rd b 2 2 == 0 && decide (cdLimit ≤ 16384) &&
  r 0x10 2 2 32768 && r 0x12 2 1 256 && r 0x14 2 2 4096 && r 0x16 2 2 16384 && r 0x18 2 1 16384 && r 0x1A 2 1 16384 &&
  r 0x1C 4 1 262144 && r 0x20 4 1 524288 && 2 ^ Nat.log2 slots == slots && decide (5 * configs ≤ 4 * slots) &&
  r 0x24 1 0 64 && r 0x25 1 0 64 && r 0x26 1 0 16 && rd b 0x27 1 == 0 && r 0x28 4 0 65536 && allZero (slice b 0x50 16)

/-- The lexer and the terminal sets (R200, R201, R205). -/
def GTables.lexOk (b : Bytes) (g : GTables) : Bool :=
  let ts := b.drop (rd b 0x30 4)
  let sets := rd ts 0 4
  (1 ≤ sets && sets ≤ 65535) && allZero (slice ts 4 12) && (g.tsets.getD 0 []).isEmpty &&
  g.tsets.all (fun l => l.all (fun e => decide (e.2 < g.terminals)) && ascending (l.map (·.2)) &&
    (l.length ≤ 1 || !l.any (·.1))) &&
  (tableAt ts 16 4 sets).all (fun o => (tableAt ts (o + 2) 2 (rd ts o 2)).all (fun e => bits e 14 12 == 0)) &&
  g.byteClass.all (fun c => decide (c < g.classes)) && g.trans.all (fun s => decide (s < g.lexStates)) &&
  g.lexInfo.all (fun e => decide (e.1 < sets) && decide (e.2 < sets)) &&
  (g.trans.take g.classes).all (· == 0) && g.lexInfo.getD 0 (1, 1) == (0, 0) && (g.lexInfo.getD 1 (1, 1)).1 == 0

/-- The action, goto and rule sub-tables (R202, R205). -/
def GTables.lrOk (b : Bytes) (g : GTables) : Bool :=
  let off (i : Nat) : Nat := rd b (0x2C + 4 * i) 4
  (List.range g.symbols).all (fun k => rd b (off 2 + 8 * k + 6) 2 == 0 && rd b (off 3 + 8 * k + 6) 2 == 0) &&
  (rowsOf (b.drop (off 2)) g.symbols).all (fun r => r.all (fun e => bits e 15 12 == 0)) &&
  (rowsOf (b.drop (off 3)) g.symbols).all (fun r => r.all (fun e => bits e 17 14 == 0)) &&
  (tableAt b (off 4) 4 g.rules.length).all (fun e => bits e 31 30 == 0 && bits e 15 7 == 0) &&
  g.action.all (fun r => ascending (r.map (·.term)) && r.all (fun a =>
    decide (a.term < g.terminals) && a.kind != 0 && (a.kind != 1 || decide (a.target < g.symbols)) &&
    (a.kind != 2 || decide (a.target < g.rules.length)) && (a.kind != 3 || (a.target == 0 && a.term == 0)))) &&
  g.gotos.all (fun r => ascending (r.map (·.1)) && r.all (fun e => decide (e.1 < g.nonterms) && decide (e.2 < g.symbols))) &&
  g.rules.all (fun r => decide (r.1 < g.nonterms) && decide (r.2 ≤ 64) && decide (r.2 ≤ g.popLimit))

/-- A CD list of a configuration (R204, R205). -/
def GTables.cdOk (g : GTables) (cdLimit : Nat) (c : GConfig) : Bool :=
  let check (e : CdEnt) : Bool := e.token == 0xFFFFF
  decide (c.cd.length ≤ cdLimit) && ascending (c.cd.map (·.token)) && c.cd.any check == (c.eclass == 2) &&
  c.cd.all (fun e => (2 ≤ e.cost && e.cost ≤ 64) && (if check e then e.traceOff == 0
    else decide (e.finalLex < g.lexStates) && (1 ≤ e.sets.length && e.sets.length ≤ 128) &&
      e.sets.all (fun i => decide (i < g.tsets.length)))) &&
  c.cost == (c.cd.map (·.cost)).foldl (· + ·) 0

/-- Reserved bits of every slot of the configuration table, and of the CD entries and traces of the valid ones (R7, R203, R204). -/
def cdReservedOk (b : Bytes) (g : GTables) : Bool :=
  let sub := b.drop (rd b 0x44 4)
  let cfg := b.drop (rd b 0x40 4)
  (List.range g.ctSlots).all (fun i =>
    let e := slice cfg (32 * i) 32
    bits (rd e 2 2) 14 14 == 0 && rd e 19 1 == 0 && rd e 28 4 == 0 &&
    (!bit (rd e 2 2) 15 || (List.range (rd e 16 2)).all (fun k =>
      let x := slice sub (rd e 12 4 + 8 * k) 8
      bits (rd x 0 4) 23 20 == 0 && (rd x 0 4 % 2 ^ 20 == 0xFFFFF || rd sub (rd x 4 4 + 3) 1 == 0))))

/-- The configuration table (R203, R205). -/
def GTables.configsOk (g : GTables) (cdLimit : Nat) : Bool :=
  let cs := g.config.filterMap id
  cs.length == g.configs && noDup (cs.map (fun c => (c.lex, c.top))) && noDup (cs.map (·.index)) &&
  cs.all (fun c => decide (c.index < g.configs) && decide (c.eclass ≤ 2) && g.cdOk cdLimit c && c.pane % 16 == 0 &&
    c.guard % 16 == 0 && decide (c.lex < g.lexStates) && decide (c.top < g.symbols) && g.configAt c.lex c.top == some c) &&
  (g.configAt 1 0).isSome && maxOf (cs.map (·.cost)) == g.cdCost

/-- Tokens of pane k of a vocabulary. -/
def paneSize (vocab k : Nat) : Nat := min 1024 (vocab - 1024 * k)

/-- The mixed panes of a record. -/
def PaneSet.mixed (p : PaneSet) : List Nat := (List.range 1024).filter (fun k => p.codes.getD k 0 == 2)

/-- How many of the first n bits of leaf k are set. -/
def PaneSet.ones (p : PaneSet) (n k : Nat) : Nat := ((List.range n).filter (fun i => (p.leaves.getD k 0).testBit i)).length

/-- Codes and leaves of a pane record are well formed for a vocabulary (R222). -/
def PaneSet.leavesOk (vocab : Nat) (p : PaneSet) : Bool :=
  p.codes.all (· != 3) && (p.codes.drop (ceilDiv vocab 1024)).all (· == 0) && p.leaves.length == p.mixed.length &&
  (p.mixed.zipIdx).all (fun x => 1 ≤ p.ones (paneSize vocab x.1) x.2 && decide (p.ones (paneSize vocab x.1) x.2 < paneSize vocab x.1) &&
    decide (p.leaves.getD x.2 0 < 2 ^ paneSize vocab x.1))

/-- A pane record is well formed for a vocabulary (R222). -/
def PaneSet.wellFormed (vocab : Nat) (p : PaneSet) : Bool :=
  let panes := ceilDiv vocab 1024
  p.panes == panes && p.leavesOk vocab &&
  p.count == ((List.range panes).filter (fun k => p.codes.getD k 0 == 1)).foldl (fun n k => n + paneSize vocab k) 0 +
    (p.mixed.zipIdx).foldl (fun n x => n + p.ones (paneSize vocab x.1) x.2) 0

/-- Reserved bytes of pane records and END entries. -/
def panesReservedOk (b : Bytes) (g : GTables) : Bool :=
  g.panes.all (fun p => allZero (slice b (rd b 0x48 4 + p.off + 8) 8)) &&
  (tableAt b (rd b 0x4C 4) 4 g.ends.length).all (fun e => decide (e < 2 ^ 20))

/-- What R205 judges of a GRAMMAR body without its profile. -/
def gramOk (b : Bytes) : Bool :=
  let g := gramOf b
  gramHeaderOk b g.cdLimit && subsOk b g.tab && g.tab.lexOk b && g.tab.lrOk b && g.tab.configsOk g.cdLimit &&
  cdReservedOk b g.tab && panesReservedOk b g.tab &&
  g.tab.panes.all (fun p => 1 ≤ p.panes && decide (p.panes ≤ 1024) && p.leavesOk (1024 * p.panes))

/-- What R205 judges of a grammar under its profile: END tokens, pane records, CD tokens. -/
def GramBody.fitsProfile (g : GramBody) (v : Vocab) : Bool :=
  g.tab.ends.all v.isSpecial && g.tab.panes.all (PaneSet.wellFormed v.prof.vocab)

end Sys2Proof.Machine
end

