-- ==== Sys2Proof/Machine/Images.lean ====
section
/-! DEFINITION. Loading, staging, committing, dropping and querying images (R101 to R117, R215, R280, R495). -/
namespace Sys2Proof.Machine
open Sys2Proof

/-! ### Space (R88, R102) -/

/-- A load slot. -/
def State.slot (s : State) (n : Nat) : LoadSlot := s.img.slots.getD n {}

/-- Sets a load slot. -/
def State.setSlot (n : Nat) (l : LoadSlot) (s : State) : State :=
  s.onImg (fun g => { g with slots := modifyAt g.slots n (fun _ => l) })

/-- A load slot is EMPTY from now on: its reservations are gone. -/
def State.emptySlot (n : Nat) (s : State) : State := s.setSlot n { since := s.aon.time }

/-- Bytes that resident sections take in a pool: each piece once, and the grammars. -/
def State.poolUsed (s : State) (pool : Nat) : Nat :=
  let ps := (s.img.versions.flatMap (·.pieces)).eraseDups
  ((ps.filter (fun p => p.pool == pool)).map (·.need)).foldl (· + ·) 0 +
  ((s.img.grams.filter (fun g => g.need.1 == pool)).map (fun g => g.need.2)).foldl (· + ·) 0

/-- Bytes that load slots reserve in the vocabulary and the Garnet pool. -/
def State.poolReserved (s : State) : Nat × Nat :=
  s.img.slots.foldl (fun a l => (a.1 + l.reserved.1, a.2 + l.reserved.2)) (0, 0)

/-- Bytes for tables: the whole vocabulary pool; the Garnet store without the stack and the shutter pool (R210, R229). -/
def State.tableSpace (s : State) (pool : Nat) : Nat :=
  if pool == 0 then s.pool 0 else s.pool 1 - 64 * s.chunkPool - 64 * s.shutterBlocks

/-- Free bytes of the two pools. -/
def State.tableFree (s : State) : Nat × Nat :=
  (s.tableSpace 0 - s.poolUsed 0 - s.poolReserved.1, s.tableSpace 1 - s.poolUsed 1 - s.poolReserved.2)

/-- Whether a reservation fits. -/
def State.fitsNeed (s : State) (n : Nat × Nat) : Bool := decide (n.1 ≤ s.tableFree.1) && decide (n.2 ≤ s.tableFree.2)

/-! ### Additive grammars (R103, R104) -/

/-- Whether a stream outside FREE and CLOSED names a grammar ID. -/
def State.gramNamed (s : State) (id : Nat) : Bool :=
  s.str.tab.any (fun t => t.state != .closed && t.parse.gstate != GState.none && t.parse.gid == id)

/-- The first ID after the last one assigned that no resident grammar and no load slot holds (R104). -/
def State.freeGramId (s : State) : Option Nat :=
  let last := s.img.lastAdditive
  ((List.range 4096).map (fun k => (last + 1 + k) % 4096)).find? (fun i =>
    !s.img.grams.any (fun g => g.id == i) && !s.img.slots.any (fun l => l.gid == some i))

/-- A grammar goes at once with its cached shutters (R103, R116, R232). -/
def State.dropGram (uid : Nat) (s : State) : State :=
  (s.onImg (fun g => { g with grams := g.grams.filter (fun x => x.uid != uid) })).dropCache uid

/-- Evictable grammars, the least recently used first (R103). -/
def State.evictable (s : State) : List Gram :=
  sortBy (fun a b => decide (a.lastUse < b.lastUse))
    (s.img.grams.filter (fun g => g.additive && !g.pinned && g.inSet && !s.gramNamed g.id))

/-- Evicts grammars in a given order until a reservation fits, an additive one with an ID; none when all of them do not make it
fit. Without want of Garnet space or of an ID, nothing is evicted. -/
def State.makeRoom (need : Nat × Nat) (id : Bool) : List Gram → Nat → State → Option (Nat × State)
  | l, n, s =>
    if s.fitsNeed need && (!id || s.freeGramId.isSome) then some (n, s)
    else match l with
      | [] => none
      | g :: rest => State.makeRoom need id rest (n + 1) ((s.dropGram g.uid).event evImage 0 4 g.id)

/-! ### The chunk at offset 0 (R97, R102, R215, R280) -/

/-- The profiles that an image gives a new version of. -/
def ImgHdr.versions (h : ImgHdr) : List Nat :=
  (List.range 16).filter (fun n => h.dir.any (fun d => [2, 4, 5].contains d.kind && d.target == n))

/-- The profiles among them whose version is derived (R97). -/
def ImgHdr.derived (h : ImgHdr) : List Nat := h.versions.filter (fun n => !h.dir.any (fun d => d.kind == 2 && d.target == n))

/-- Free version handles, ascending (R144). -/
def State.freeHandles (s : State) : List Nat :=
  (List.range 256).filter (fun n => !s.img.versions.any (fun v => v.handle == n || v.litHandle == n) &&
    !s.img.slots.any (fun l => l.vhandles.any (fun h => h.2 == n)))

/-- One literal of a version is reserved in a bank (R280). -/
def putLiteral (bank prof : Nat) (l : List (Nat × List Nat)) : List (Nat × List Nat) :=
  if l.any (fun e => e.1 == bank) then l.map (fun e => if e.1 == bank then (e.1, e.2 ++ [prof]) else e) else l ++ [(bank, [prof])]

/-- Free entries of a literal bank under the reservations of a slot that is being filled. -/
def State.literalRoom (s : State) (l : List (Nat × List Nat)) (n : Nat) : Nat := s.freeEntries n - ((assoc l n).getD []).length

/-- Reserves k literals of a version: the bank with the most free entries is filled, then the next is chosen in the same way
among those not yet in the map; with fuel for the banks. None when they do not fit. -/
def State.placeLiterals (s : State) (prof : Nat) : Nat → Nat → List Nat → List (Nat × List Nat) → Option (List (Nat × List Nat))
  | _, 0, _, l => some l
  | 0, _, _, _ => none
  | fuel + 1, k, map, l =>
    let cands := (s.useList 4).filter (fun n => !map.contains n)
    match minBy (fun n => 8192 - s.literalRoom l n) cands with
    | none => none
    | some n =>
      let m := min k (s.literalRoom l n)
      s.placeLiterals prof fuel (k - m) (map ++ [n]) ((List.range m).foldl (fun l _ => putLiteral n prof l) l)

/-- Literal reservations of an image; COUNT follows from LENGTH (R96). -/
def State.reserveLiterals (s : State) (h : ImgHdr) : Option (List (Nat × List Nat)) :=
  (h.dir.filter (fun d => d.kind == 5)).foldl (fun acc d => acc.bind (fun l =>
    s.placeLiterals d.target 33 ((d.length - 8) / 40) [] l)) (some [])

/-- NEED of an image in the two pools. -/
def ImgHdr.need (h : ImgHdr) : Nat × Nat :=
  h.dir.foldl (fun a d => if d.pool == 0 then (a.1 + d.need, a.2) else if d.pool == 1 then (a.1, a.2 + d.need) else a) (0, 0)

/-- The section of a kind that an image supplies for a profile. -/
def sectionFor (h : ImgHdr) (kind n : Nat) : Option DirEnt := h.dir.find? (fun d => d.kind == kind && d.target == n)

/-- Takes up an image on its first chunk: a refusal's status, or the grammars evicted and the state with the slot in RECEIVING
(R97, R102, R144, R215). A derived version that would share a literal lost with its bank does not fit (R300). -/
def State.reserveImage (slot ap : Nat) (b : Bytes) (h : ImgHdr) (s : State) : Nat ⊕ (Nat × State) :=
  let base (n : Nat) : Option (Nat × Nat) := (s.committed n).map (fun v => (n, v.uid))
  let held (d : DirEnt) : Bool := d.kind == 3 && !h.additive && s.img.grams.any (fun g => g.id == d.target && g.additive)
  let lost (n : Nat) : Bool := (sectionFor h 5 n).isNone && ((s.committed n).any (fun v => s.ber.lost.any (fun x => x.1 == 4 && x.2.tag == v.litHandle)))
  if h.derived.any (fun n => (base n).isNone) then .inl stNotResident
  else if h.derived.any lost then .inl stNoSpace
  else if h.dir.any held then .inl stNoSpace
  else if s.freeHandles.length < h.versions.length then .inl stNoSpace
  else
    match s.reserveLiterals h with
    | none => .inl stNoSpace
    | some lits =>
      let lacks := decide (s.tableFree.2 < h.need.2) || (h.additive && s.freeGramId.isNone)
      match State.makeRoom h.need h.additive (if lacks then s.evictable else []) 0 s with
      | none => .inl stNoSpace
      | some (k, s1) =>
        let gid := if h.additive then s1.freeGramId else none
        let l : LoadSlot :=
          { state := .receiving, bytes := b, ap := ap, gid := gid, additive := h.additive, pinned := h.pin, gen := h.gen,
            total := h.total, vhandles := h.versions.zip s.freeHandles, bases := h.derived.filterMap base, reserved := h.need,
            literals := lits, since := s.aon.time }
        .inr (k, (s1.setSlot slot l).onImg (fun g => { g with lastAdditive := gid.getD g.lastAdditive }))

/-! ### Section bodies (R82 to R85, R105) -/

/-- The status of the first content failure that the bytes from old to new show in a section (R83 to R85, R105). -/
def State.sectionFault (s : State) (b : Bytes) (old : Nat) (d : DirEnt) : Option Nat :=
  let arrives (n : Nat) : Bool := decide (n ≤ b.length) && (decide (old < n) || old == 0)
  let body := d.body b
  if arrives d.bodyEnd && crc32c body != d.crc then some stBadCrc
  else if arrives d.stop then
    let ok := match d.kind with
      | 1 => frameOk body
      | 2 => profileOk body
      | 3 => gramOk body
      | 4 => (stopBody body).isSome
      | 5 => specialForm body
      | _ => true
    let fits := d.pool == 2 || decide (d.length + Config.builtExtra body ≤ d.need)
    if d.verified s.start.keys b && ok && fits then none else some stBadPacket
  else none

/-- The first content failure of the bytes that a chunk brought. -/
def State.contentFault (s : State) (b : Bytes) (old : Nat) : Option Nat :=
  match imageHeader b with
  | .inl st => some st
  | .inr h => if h.total < b.length then some stBadPacket else h.dir.findSome? (s.sectionFault b old)

/-- Whether the committed frame refuses the image that a chunk belongs to, as one with a section that is not signed (R86). -/
def State.unsigned (s : State) (b : Bytes) : Bool :=
  bit s.img.frame.sigPolicy 0 && (match imageHeader b with | .inl _ => false | .inr h => h.dir.any (fun d => !d.isSigned))

/-- RESULT1 of img.load (R107). -/
def LoadSlot.result1 (l : LoadSlot) : Nat := l.gid.getD 0xFFFF + flag (l.state == .staged) 16

/-- The bytes of a chunk are in the slot: a content failure abandons the load, the last byte waits for the checks of staging (R105
to R107). -/
def State.chunkIn (p : Pkt) (slot old evicted : Nat) (s : State) : State :=
  let l := s.slot slot
  match (if s.unsigned l.bytes then some stBadPacket else s.contentFault l.bytes old) with
  | some st => (s.emptySlot slot).refuse p st
  | none =>
    let s1 := s.onWork p (fun w => { w with r2 := evicted })
    if l.bytes.length == l.total then s1.setSlot slot { l with waitPkt := some p }
    else s1.done p 0 (some l.bytes.length) (some l.result1) (some evicted)

/-- img.load (R101, R102, R105). -/
def imgLoadWork (p : Pkt) (s : State) : State :=
  let slot := bits p.arg 35 32
  let off := bits p.arg 31 0
  let l := s.slot slot
  match l.state with
  | .empty =>
    if off != 0 then s.refuse p stStateConflict
    else
      match imageHeader p.payload with
      | .inl st => s.refuse p st
      | .inr h =>
        if h.total < p.payload.length || s.unsigned p.payload then s.refuse p stBadPacket
        else
          match s.reserveImage slot p.ap p.payload h with
          | .inl st => s.refuse p st
          | .inr (k, s1) => s1.chunkIn p slot 0 k
  | .receiving =>
    if off != l.bytes.length || p.ap != l.ap || l.waitPkt.isSome then s.refuse p stStateConflict
    else (s.setSlot slot { l with bytes := l.bytes ++ p.payload }).chunkIn p slot l.bytes.length 0
  | _ => s.refuse p stStateConflict

/-- IMG_LOAD (R101). -/
def execImgLoad (dt ap pos : Nat) (s : State) : Res := .next ((s.elapse dt).runPacket (isOp 0x0201) ap pos imgLoadWork)

/-! ### Staging (R97, R106) -/

/-- A version as an image builds it: profile, special tokens and stop defaults, those of the base where the image supplies none for
a derived one (R97). -/
structure Build1 where
  prof : Profile
  special : List Special
  stops : List StopEnt
  derived : Bool
  deriving DecidableEq, Repr

/-- The version that an image builds of a profile. -/
def State.buildOf (s : State) (l : LoadSlot) (h : ImgHdr) (n : Nat) : Build1 :=
  let base := (assoc l.bases n).bind (fun u => s.img.versions.find? (fun v => v.uid == u))
  let own := (sectionFor h 2 n).map (fun d => profileOf (d.body l.bytes))
  let prof := (own <|> base.map (·.prof)).getD {}
  let keep := own.isNone
  { prof := prof, derived := keep,
    special := match sectionFor h 5 n with
      | some d => specialOf prof (d.body l.bytes)
      | none => if keep then (base.map (·.special)).getD [] else [],
    stops := match sectionFor h 4 n with
      | some d => (stopBody (d.body l.bytes)).getD []
      | none => if keep then (base.map (·.stops)).getD [] else [] }

/-- Whether a base that a version derives from is still there. -/
def State.baseThere (s : State) (l : LoadSlot) (n : Nat) : Bool :=
  match assoc l.bases n with
  | some u => s.img.versions.any (fun v => v.uid == u)
  | none => true

/-- The vocabulary that a grammar of an image is judged against at staging: that of the PROFILE section of the image; a grammar whose
profile the image does not supply is not judged against one (R106, R205, log 56). -/
def State.stagedVocab (s : State) (l : LoadSlot) (h : ImgHdr) (g : GramBody) : Option Vocab :=
  (sectionFor h 2 g.profile).map (fun _ =>
    let b := s.buildOf l h g.profile
    { prof := b.prof, special := b.special })

/-- The checks over the whole image (R89, R97, R106, R127, R205). -/
def State.imageWhole (s : State) (l : LoadSlot) (h : ImgHdr) : Bool :=
  let specials := h.dir.filter (fun d => d.kind == 5)
  specials.all (fun d => !s.baseThere l d.target || specialOk (s.buildOf l h d.target).prof (d.body l.bytes)) &&
  h.dir.all (fun d => d.kind != 1 || specials.all (fun x => rd (x.body l.bytes) 0 2 == 0) ||
    ((frameOf (d.body l.bytes)).beryl.any (fun e => e % 8 == 4))) &&
  (h.dir.filter (fun d => d.kind == 3)).all (fun d =>
    let g := gramOf (d.body l.bytes)
    ((sectionFor h 2 g.profile).all (fun x => (profileOf (x.body l.bytes)).canonCrc == g.canonCrc)) &&
    ((s.stagedVocab l h g).all g.fitsProfile))

/-! ### Literals of a staged image (R280, R297) -/

/-- The banks that a slot reserved for a version's literals, one for each literal in order (R280). -/
def LoadSlot.banksOf (l : LoadSlot) (n : Nat) : List Nat :=
  l.literals.flatMap (fun e => (e.2.filter (· == n)).map (fun _ => e.1))

/-- A literal of a staged image is inserted through channel 30 in the bank reserved for it; where that bank is lost it goes to another (R280,
R297, R300); none for NO_SPACE. -/
def State.enterLiteral (slot prof tag bank : Nat) (sp : Special) (s : State) : Option State :=
  if (s.physical bank).isSome then some (s.placeIn 30 bank (literalEntry sp tag))
  else s.literalBank.map (fun m => (s.placeIn 30 m (literalEntry sp tag)).onImg (fun g =>
    { g with slots := modifyAt g.slots slot (fun l => { l with literals := moveLiteral prof bank m l.literals }) }))

/-- The literals of the SPECIAL sections of a staged slot are entered, before the image is committed (R297). -/
def State.enterSlot (slot : Nat) (s : State) : Option State :=
  let l := s.slot slot
  ((l.sections.foldl (fun acc x => match x with
    | .special n _ _ sp =>
      (((l.banksOf n).zip sp).foldl (fun acc e => acc.bind (fun s => s.enterLiteral slot n ((assoc l.vhandles n).getD 0) e.1 e.2)) acc)
    | _ => acc) (some s)).map (fun s => s.onImg (fun g => { g with slots := modifyAt g.slots slot (fun l => { l with entered := true }) })))

/-- The literals that a slot has entered leave Beryl again. -/
def State.leaveSlot (l : LoadSlot) (s : State) : State :=
  if l.entered then
    l.sections.foldl (fun s x => match x with
      | .special n _ _ _ => s.removeLiterals ((assoc l.vhandles n).getD 0)
      | _ => s) s
  else s

/-- The sections of an image as the slot keeps them. -/
def State.sectionsOf (s : State) (l : LoadSlot) (h : ImgHdr) : List Section :=
  h.dir.map (fun d =>
    let b := d.body l.bytes
    match d.kind with
    | 1 => .frame (frameOf b)
    | 2 => .profile d.target d.pool d.need (profileOf b)
    | 3 => .grammar (l.gid.getD d.target) d.pool d.need d.crc (gramOf b)
    | 4 => .stop d.target d.pool d.need ((stopBody b).getD [])
    | 5 => .special d.target d.pool d.need (s.buildOf l h d.target).special
    | _ => .remove d.ofGrammar d.target)

/-- A slot whose last byte has arrived is judged as a whole (R106): the refusal's status, or the slot in STAGED. -/
def State.stage (s : State) (l : LoadSlot) : Nat ⊕ LoadSlot :=
  match imageHeader l.bytes with
  | .inl st => .inl st
  | .inr h =>
    if s.imageWhole l h then
      .inr { l with state := .staged, sections := s.sectionsOf l h, since := s.aon.time, waitPkt := none }
    else .inl stBadPacket

/-- IMAGE_STAGED (R106, R107): the literals are entered while the image is STAGED (R297), in their turn. -/
def execImageStaged (dt slot : Nat) (s : State) : Res :=
  let s1 := (s.elapse dt).settleBeryl
  let l := s1.slot slot
  .next (match l.state, l.waitPkt with
    | .receiving, some p =>
      (match s1.stage l with
      | .inl st => (s1.emptySlot slot).refuse p st
      | .inr l' =>
        if !l'.literals.isEmpty && !s1.quiet [4] then s1
        else match (s1.setSlot slot l').enterSlot slot with
          | none => (s1.emptySlot slot).refuse p stNoSpace
          | some s2 =>
            let k := match s1.workOf p.ap p.pos with | some w => w.r2 | none => 0
            s2.done p 0 (some l.bytes.length) (some l'.result1) (some k))
    | _, _ => s1)

/-! ### img.commit (R19, R90, R92, R97, R100, R109, R113) -/

/-- The frame that a staged image holds. -/
def LoadSlot.frame (l : LoadSlot) : Option Frame := l.sections.findSome? (fun x => match x with | .frame f => some f | _ => none)

/-- Whether two frames agree in what only a boot image may change (R92). -/
def sameStructure (a b : Frame) : Bool :=
  a.pools == b.pools && a.beryl == b.beryl && a.inGroup == b.inGroup && a.groupNum == b.groupNum && a.master == b.master &&
  a.deputy == b.deputy && a.members == b.members

/-- Whether a stream needs a personality flag (R19). -/
def needsFlag (n : Nat) (st : SState) : Bool :=
  if n == 0 then st == .prompt else if n == 1 then st == .ready || st == .stepping || st == .await else false

/-- The profile numbers whose versions an image makes. -/
def LoadSlot.makes (l : LoadSlot) : List Nat := l.vhandles.map (·.1)

/-- The profile of the version that an image makes. -/
def State.madeProf (s : State) (l : LoadSlot) (n : Nat) : Option Profile :=
  (l.sections.findSome? (fun x => match x with | .profile m _ _ p => if m == n then some p else none | _ => none)) <|>
  ((assoc l.bases n).bind (fun u => (s.img.versions.find? (fun v => v.uid == u)).map (·.prof)))

/-- Whether an image removes a profile, or a grammar. -/
def LoadSlot.removes (l : LoadSlot) (g : Bool) (n : Nat) : Bool := l.sections.contains (.remove g n)

/-- The profile of a number after an image's commit. -/
def State.profAfter (s : State) (l : LoadSlot) (n : Nat) : Option Profile :=
  if l.makes.contains n then s.madeProf l n
  else if l.removes false n then none else (s.committed n).map (·.prof)

/-- The grammars of an image. -/
def LoadSlot.grams (l : LoadSlot) : List (Nat × Nat × GramBody) :=
  l.sections.filterMap (fun x => match x with | .grammar id _ _ crc g => some (id, crc, g) | _ => none)

/-- Whether a grammar of the committed set stays in it at a commit. -/
def LoadSlot.keeps (l : LoadSlot) (g : Gram) : Bool :=
  g.inSet && !l.removes true g.id && !l.removes false g.body.profile && !l.grams.any (fun x => x.1 == g.id)

/-- Profiles that have a resident grammar after a commit, in the committed set or held by reference (R90, R114). -/
def State.gramProfiles (s : State) (l : LoadSlot) : List Nat :=
  ((s.img.grams.filter (fun g => l.keeps g || s.grammarUsed g.uid)).map (·.body.profile)) ++ l.grams.map (fun x => x.2.2.profile)

/-- Whether a profile has a resident version after a commit, in the committed set or held by reference (R90, R112). -/
def State.residentAfter (s : State) (l : LoadSlot) (n : Nat) : Bool :=
  (s.profAfter l n).isSome || s.img.versions.any (fun v => v.number == n && s.versionHeld v.uid)

/-- R90 for a frame and the profiles after a commit. -/
def State.unitsOk (s : State) (l : LoadSlot) (f : Frame) : Bool :=
  (List.range 16).all (fun n =>
    !s.residentAfter l n ||
    (let (a, b, c, d) := f.partition.getD n (0, 0, 0, 0)
     a != 0 && b != 0 && c != 0 && (!(s.gramProfiles l).contains n || d != 0)))

/-- The resident grammar with an ID: that of the committed set, else the last one that left it. -/
def State.gramOfId (s : State) (id : Nat) : Option Gram :=
  let l := s.img.grams.filter (fun x => x.id == id)
  (l.find? (·.inSet)).orElse (fun _ => l.getLast?)

/-- R113 for a grammar of an image. -/
def State.replaceOk (s : State) (id : Nat) (g : GramBody) : Bool :=
  !s.gramNamed id ||
  (match s.gramOfId id with
    | some old => g.carry && g.carryFrom == old.dirCrc
    | none => true)

/-- The status with which img.commit refuses a staged slot; boot leaves out what concerns only images loaded by packet. -/
def State.commitRefusal (s : State) (l : LoadSlot) (boot : Bool) : Option Nat :=
  let f := l.frame.getD s.img.frame
  let cleared (n : Nat) : Bool := bit s.img.frame.personality n && !bit f.personality n
  let frameBad := !boot && l.frame.isSome &&
    (!sameStructure s.img.frame f || s.str.tab.any (fun t => (List.range 2).any (fun n => cleared n && needsFlag n t.state)))
  let canonBad := !s.sch.raised && l.makes.any (fun n =>
    match s.sch.canon.getD n none, s.madeProf l n with | some c, some p => p.canonCrc != c | _, _ => false)
  let resident := l.grams.all (fun x => (s.profAfter l x.2.2.profile).any (fun p => p.canonCrc == x.2.2.canonCrc))
  if l.state != .staged || (!l.additive && !boot && l.gen == s.img.gen) || frameBad || !s.unitsOk l f || canonBad ||
    !l.grams.all (fun x => s.replaceOk x.1 x.2.2) then some stStateConflict
  else if !resident || l.bases.any (fun b => (s.committed b.1).isNone) then some stNotResident
  else if l.bases.any (fun b => ((s.committed b.1).map (·.uid)) != some b.2) then some stStateConflict
  else none

/-- img.commit (R109). -/
def imgCommitWork (p : Pkt) (s : State) : State :=
  let slot := bits p.arg 3 0
  let l := s.slot slot
  match s.commitRefusal l false with
  | some st => s.refuse p st
  | none =>
    (s.setSlot slot { l with state := .committing, waitPkt := some p, order := s.img.commitSeq + 1, since := s.aon.time }).onImg
      (fun g => { g with commitSeq := g.commitSeq + 1 })

/-- IMG_COMMIT (R109). -/
def execImgCommit (dt ap pos : Nat) (s : State) : Res := .next ((s.elapse dt).runPacket (isOp 0x0202) ap pos imgCommitWork)

/-! ### A commit takes effect (R110 to R115) -/

/-- Profiles and grammars that an image removes leave the committed set; a profile takes its grammars with it (R97). -/
def State.applyRemoves (l : LoadSlot) (s : State) : State :=
  s.onImg (fun g => { g with
    versions := g.versions.map (fun v => if l.removes false v.number then { v with inSet := false } else v),
    grams := g.grams.map (fun x => if l.removes true x.id || l.removes false x.body.profile then { x with inSet := false } else x) })

/-- The pieces that an image's sections for a profile take. -/
def LoadSlot.piecesOf (l : LoadSlot) (n uid : Nat) : List Piece :=
  l.sections.filterMap (fun x => match x with
    | .profile m pool need _ => if m == n then some { kind := 2, uid := uid, pool := pool, need := need } else none
    | .stop m pool need _ => if m == n then some { kind := 4, uid := uid, pool := pool, need := need } else none
    | .special m pool need _ => if m == n then some { kind := 5, uid := uid, pool := pool, need := need } else none
    | _ => none)

/-- The version of a profile that an image makes joins the committed set (R97, R112, R144). A derived version without a SPECIAL section
shares the literal entries of its base, under the handle that they carry (R96, R97, log 58). -/
def State.applyVersion (l : LoadSlot) (n handle : Nat) (s : State) : State :=
  let uid := s.img.nextUid + 1
  let base := (assoc l.bases n).bind (fun u => s.img.versions.find? (fun v => v.uid == u))
  let own := l.piecesOf n uid
  let stops := (l.sections.findSome? (fun x => match x with | .stop m _ _ y => if m == n then some y else none | _ => none)).getD
    ((base.map (·.stops)).getD [])
  let sp := l.sections.findSome? (fun x => match x with | .special m _ _ y => if m == n then some y else none | _ => none)
  let special := sp.getD ((base.map (·.special)).getD [])
  let banks := l.banksOf n
  let v : Version :=
    { uid := uid, handle := handle, number := n, litHandle := if sp.isSome then handle else (base.map (·.litHandle)).getD handle, gen := l.gen, prof := (s.madeProf l n).getD {}, special := special, stops := stops,
      bankMap := if sp.isSome then banks.eraseDups else (base.map (·.bankMap)).getD [],
      pieces := own ++ ((base.map (·.pieces)).getD []).filter (fun q => !own.any (fun o => o.kind == q.kind)), inSet := true }
  let joined := s.img.versions.map (fun x => if x.number == n then { x with inSet := false } else x) ++ [v]
  s.onImg (fun g => { g with nextUid := uid, versions := joined })

/-- A stream moves to the grammar that replaces its own (R113, R114, R228, R372): a tree that waits for admission is dropped, and
the shutter is built again. In STEPPING and AWAIT_CHOICE the old grammar serves until the commit. -/
def State.moveStream (uid : Nat) (t : Stream) (s : State) : State :=
  let slot := t.id.slot
  let s1 := s.dropTree slot true
  let s2 := s1.onStream slot (fun t => { t with parse := { t.parse with guid := uid } })
  let builds := s.str.builds.any (fun b => b.slot == slot)
  let pend (s : State) : State := s.onStream slot (fun t => { t with shutter := { kind := .pending, guid := uid } })
  if t.state == .paused || t.state == .opening then pend (s2.dropBuilds slot)
  else if t.shutter.kind == .building then (s2.dropBuilds slot).beginBuild slot 0
  else if t.shutter.kind == .pending && !builds then pend s2
  else (s2.dropBuilds slot).renewShutter slot

/-- The descriptors that name cache entries of a grammar: slot, node and result. -/
def State.cacheUsers (s : State) (guid : Nat) : List (Nat × Nat × List Bool) :=
  s.str.tab.flatMap (fun t => (t.descs.zipIdx).filterMap (fun d => match d.1.result with
    | .cached n => (s.entry? n).bind (fun e => if e.guid == guid then some (t.id.slot, d.2, e.bits) else none)
    | _ => none))

/-- The result of a node's descriptor is made a private one. -/
def State.makePrivate (slot node : Nat) (bits : List Bool) (s : State) : State :=
  match (s.stream? slot).bind (fun t => t.nodeAt node) with
  | none => s
  | some (ps, d) =>
    let r := s.privInsert bits
    r.1.setNode slot node ps { d with result := r.2 }

/-- Every cache entry of a replaced grammar is discarded (R114, R232). The step that a stream has admitted under the old set keeps the result
that it is shaped with, as a private one (R110, log 62). -/
def State.discardCache (guid : Nat) (s : State) : State :=
  (s.cacheUsers guid).foldl (fun s u => s.makePrivate u.1 u.2.1 u.2.2) (s.dropCache guid)

/-- A grammar of an image joins the committed set, in place of one with its ID (R113, R114). -/
def State.applyGram (l : LoadSlot) (id pool need crc : Nat) (body : GramBody) (s : State) : State :=
  let uid := s.img.nextUid + 1
  let g : Gram := { uid := uid, id := id, body := body, additive := l.additive, pinned := l.pinned, dirCrc := crc,
                    gen := if l.additive then 0 else l.gen, need := (pool, need), inSet := true, lastUse := s.aon.time }
  let joined := s.img.grams.map (fun y => if y.id == id then { y with inSet := false } else y) ++ [g]
  let s1 := s.onImg (fun x => { x with nextUid := uid, grams := joined })
  let moved := s1.str.tab.filter (fun t => t.parse.gid == id && t.parse.gstate != GState.none && t.state != .closed &&
    ((t.state != .stepping && t.state != .await) || t.commit.isSome))
  let s2 := moved.foldl (fun s t => s.moveStream uid t) s1
  (joined.filter (fun y => y.id == id && !y.inSet)).foldl (fun s y => s.discardCache y.uid) s2

/-- Units lent to profiles that have in-service units of their own are lent no more (R458). -/
def State.endLoans (s : State) : State :=
  s.onMem (fun m => { m with loans := m.loans.filter (fun l => (s.unitsIn l.1 (s.unitMask l.1 l.2.1)).isEmpty) })

/-- What a commit installs: frame, removals, versions, grammars, generation (R110, R111, R114). -/
def State.install (slot : Nat) (l : LoadSlot) (s : State) : State :=
  let s1 := (match l.frame with | some f => (s.onImg (fun g => { g with frame := f })).endLoans | none => s).applyRemoves l
  let s2 := l.vhandles.foldl (fun s v => s.applyVersion l v.1 v.2) (s1.emptySlot slot)
  let s3 := l.sections.foldl (fun s x => match x with
    | .grammar id pool need crc g => s.applyGram l id pool need crc g
    | _ => s) s2
  if l.additive then s3 else s3.onImg (fun g => { g with gen := l.gen })

/-- A committing image takes effect, with its IMAGE record and its cmp record (R110, R495). -/
def State.applyCommit (slot : Nat) (l : LoadSlot) (s : State) : State :=
  let s1 := ((s.install slot l).event evImage l.gen 1 (if l.additive then l.gid.getD 0 else 0)).sweepVersions.sweepGrams
  match l.waitPkt with
  | some p => s1.done p 0 (some s1.img.gen) (some (if l.additive then l.gid.getD 0xFFFF else 0xFFFF)) none
  | none => s1

/-- Every commit that waits takes effect, in order of execution (R115). -/
def State.applyCommits (s : State) : State :=
  let waiting := (s.img.slots.zipIdx).filter (fun x => x.1.state == .committing)
  (sortBy (fun a b => decide (a.1.order < b.1.order)) waiting).foldl (fun s x => s.applyCommit x.2 x.1) s

/-- COMMIT_TAKES_EFFECT (R110): at the step boundary, or within 10 µs where no step is admitted. -/
def execCommitTakesEffect (dt : Nat) (s : State) : Res := .next (s.elapse dt).applyCommits

/-! ### img.drop and img.query (R116, R117, R495) -/

/-- img.drop of a slot (R116). The last chunk of a load, if it still waits for staging, is refused. -/
def dropSlotWork (p : Pkt) (s : State) : State :=
  let slot := bits p.arg 7 4
  let l := s.slot slot
  if l.state == .empty || l.state == .committing then s.refuse p stStateConflict
  else
    let s1 := ((s.leaveSlot l).emptySlot slot).event evImage l.gen 2 0
    let s2 := match l.waitPkt with | some q => s1.refuse q stStateConflict | none => s1
    s2.done p 0 none none none

/-- IMG_DROP_SLOT (R116). -/
def execImgDropSlot (dt ap pos : Nat) (s : State) : Res :=
  .next ((s.elapse dt).runPacket (fun p => isOp 0x0203 p && bits p.arg 1 0 == 0) ap pos dropSlotWork)

/-- img.drop of an additive grammar (R116). -/
def dropGrammarWork (p : Pkt) (s : State) : State :=
  let id := bits p.arg 27 16
  match s.gramOfId id with
  | none => s.refuse p stNotResident
  | some g =>
    if !g.additive then s.refuse p stNotResident
    else if s.gramNamed id then s.refuse p stStateConflict
    else ((s.dropGram g.uid).event evImage 0 2 id).done p 0 none none none

/-- IMG_DROP_GRAMMAR (R116). -/
def execImgDropGrammar (dt ap pos : Nat) (s : State) : Res :=
  .next ((s.elapse dt).runPacket (fun p => isOp 0x0203 p && bits p.arg 1 0 == 1) ap pos dropGrammarWork)

/-- The code of a slot's state (R117). -/
def slotCode : SlotState → Nat
  | .empty => 0
  | .receiving => 1
  | .staged => 2
  | .committing => 3

/-- img.query (R117). -/
def imgQueryWork (p : Pkt) (s : State) : State :=
  let i := bits p.arg 27 16
  match bits p.arg 1 0 with
  | 0 =>
    let profs := bitMap ((List.range 16).filter (fun n => (s.committed n).isSome))
    let slots := (s.img.slots.zipIdx).foldl (fun a x => a + slotCode x.1.state * 4 ^ x.2) 0
    let grams := ((s.img.grams.map (·.id)).eraseDups).length
    s.done p 0 (some (s.img.gen + profs * 2 ^ 16 + grams * 2 ^ 32))
      (some (s.tableFree.1 / 1024 + s.tableFree.2 / 1024 * 2 ^ 32)) (some slots)
  | 1 =>
    match s.img.versions.find? (fun v => v.number == i && v.inSet && !v.faulted) with
    | none => s.refuse p stNotResident
    | some v =>
      let held := (s.img.versions.filter (fun x => x.number == i && !x.inSet)).length
      s.done p 0 (some (v.prof.vocab + v.gen * 2 ^ 32)) (some (s.str.tab.filter (fun t => t.id.vuid == v.uid)).length)
        (some (v.prof.canonCrc + held * 2 ^ 32))
  | 2 =>
    let l := s.img.grams.filter (fun g => g.id == i && !g.faulted)
    -- a replaced grammar that a step still uses stands behind its replacement
    match (l.filter (·.inSet)).head?.or l.head? with
    | none => s.refuse p stNotResident
    | some g =>
      let names := (s.str.tab.filter (fun t => t.parse.gstate != GState.none && t.parse.gid == i)).length
      s.done p 0 (some (g.body.profile + flag g.additive 32 + flag g.pinned 33 + g.gen * 2 ^ 48)) (some names) (some g.dirCrc)
  | _ =>
    let l := s.slot i
    s.done p 0 (some (slotCode l.state)) (some l.bytes.length) (some l.since)

/-- IMG_QUERY (R117). -/
def execImgQuery (dt ap pos : Nat) (s : State) : Res := .next ((s.elapse dt).runPacket (isOp 0x0204) ap pos imgQueryWork)

end Sys2Proof.Machine
end

