-- ==== Sys2Proof/Machine/Facet.lean ====
section
/-! DEFINITION. Facets (R249 to R267): the assignment of a row, the parking it reserves, shape, the candidates and the cuts. -/
namespace Sys2Proof.Machine
open Sys2Proof

/-! ### Panes and assignment (R219, R265, R266, R268) -/

/-- PANES of a vocabulary (R219). -/
def panesOf (vocab : Nat) : Nat := ceilDiv vocab 1024

/-- The exponent of the smallest power of two that is not less than n. -/
def log2Up (n : Nat) : Nat := if n ≤ 1 then 0 else Nat.log2 (n - 1) + 1

/-- P2 of R260. -/
def p2Of (panes : Nat) : Nat := 2 ^ log2Up panes

/-- The greatest power of two that is not greater than n, and than 16 (R265); 0 for none. -/
def gangSize (n : Nat) : Nat := if n == 0 then 0 else 2 ^ min 4 (Nat.log2 n)

/-- Rows that a facet has queued, in progress or parked, those promised in a step of entries given included (R265). -/
def State.facetLoad (s : State) (more : List StepEntry) (f : Nat) : Nat :=
  let mine (e : StepEntry) : Bool := e.row && e.facets.contains f
  let left (x : Step) : Nat := (x.rowsLeft.filter (fun r => x.desc.entries.any (fun e => e.slot == r.1 && mine e))).length
  (s.sch.steps.map left).foldl (· + ·) 0 + ((more.filter mine).map (fun e => e.nodes + 1)).foldl (· + ·) 0

/-- The facets of a row: a gang when the stream asks for one and R265 allows it, of the lowest instances that serve the profile under the
frame partition, or of a lent one where it has none; else the least loaded facet, the lowest number among equals. -/
def State.assignFacets (s : State) (t : Stream) (more : List StepEntry) : List Nat :=
  let fs := s.facets t.id.profile
  let own := s.ownUnits 3 t.id.profile
  let gang := if own.isEmpty then fs else own
  let panes := panesOf (s.vocabOf t).prof.vocab
  let g := gangSize gang.length
  if t.id.gang && decide (16 ≤ panes) && decide (2 ≤ g) then gang.take g
  else match minBy (s.facetLoad more) fs with
    | some f => [f]
    | none => []

/-- The pane that facet number k of a gang of g takes first (R266). -/
def gangFirst (panes g k : Nat) : Nat := k * (p2Of panes / max 1 g)

/-- Where each channel of a row begins: a facet whose range lies above PANES receives nothing. -/
def rowStart (panes : Nat) (facets : List Nat) : List (Nat × Nat) :=
  (facets.zipIdx).map (fun x => (x.1, gangFirst panes facets.length x.2))

/-- Whether a pane belongs to gang position k. -/
def gangOwns (panes g k pane : Nat) : Bool :=
  decide (gangFirst panes g k ≤ pane) && decide (pane < gangFirst panes g (k + 1)) && decide (pane < panes)

/-- 16 KiB blocks of parking that a row reserves (R268). -/
def parkBlocks (panes : Nat) : Nat := ceilDiv panes 8

/-- Parking blocks in all (R88), and those free; none is taken of an array that a march waits for (R390). -/
def State.parkFree (s : State) : Nat :=
  (s.pool 2 - s.heldBack 2) / 16384 - (s.sch.parkedReserve.map (fun r => r.2.2.2)).foldl (· + ·) 0

/-! ### shape (R259, R260) -/

/-- The greatest of some values. -/
def greatest (l : List (Option Nat)) : Option Nat :=
  l.foldl (fun m y => match m, y with
    | none, y => y
    | some a, some b => if Fp.lt a b then some b else some a
    | m, none => m) none

/-- exp2_bx of a difference times LOG2E (R260, R262). -/
def expDiff (y m : Nat) : Nat := Fp.exp2 (Fp.mul (Fp.sub y m) Fp.log2e)

/-- The sum of the terms of one pane (R260). -/
def paneSum (ys : List (Option Nat)) (m : Option Nat) : Nat :=
  match m with
  | none => 0
  | some m => Fp.tree 10 (ys.map (fun y => match y with | some y => expDiff y m | none => 0))

/-- The scaled sum over panes of pane sums with their maxima (R260); h is the height of the tree. -/
def scaledSum (h : Nat) (l : List (Nat × Option Nat)) (m : Nat) : Nat :=
  Fp.tree h (l.map (fun x => match x.2 with | some mp => Fp.mul x.1 (expDiff mp m) | none => 0))

/-- The shaping settings of a row (R254). -/
structure ShapeSet where
  rt : Nat
  topP : Nat
  minP : Nat
  topK : Nat
  bias : List (Nat × Nat)
  deriving DecidableEq, Repr

/-- What shaping gives: the fields of the cand record that depend on the row (R263). -/
structure Shaped where
  allowed : Nat
  lse : Nat
  mass : Nat
  toppN : Nat
  minpN : Nat
  entries : List (Nat × Nat)
  deriving DecidableEq, Repr

/-- The shaped logit of a token of the finite set (R259, R260); none outside it. -/
def shapedLogit (st : ShapeSet) (c x : Nat) : Option Nat :=
  if !Fp.finite x then none
  else
    let b := (assoc st.bias c).getD 0
    if b == Fp.negInf then none else some (Fp.mul (Fp.add x b) st.rt)

/-- Candidate order (R261): descending shaped logit, then ascending model ID. -/
def candBefore (a b : Nat × Nat) : Bool := Fp.lt b.2 a.2 || (Fp.eq a.2 b.2 && decide (a.1 < b.1))

/-- The first k of a list in candidate order. -/
def topCands (k : Nat) (l : List (Nat × Nat)) : List (Nat × Nat) :=
  l.foldl (fun acc x => (insertBy candBefore x acc).take k) []

/-- topp_n (R262): acc is the sum so far, n the candidates taken. -/
def toppCount (t : Nat) : Nat → Nat → List Nat → Nat
  | n, _, [] => n
  | n, acc, q :: qs =>
    let acc := Fp.add acc q
    if Fp.leq t acc then n + 1 else toppCount t (n + 1) acc qs

/-- minp_n (R262). -/
def minpCount (p : Nat) (qs : List Nat) : Nat := (qs.takeWhile (fun q => Fp.leq p q)).length

/-- shape, the candidates and the cuts (R259 to R262): row gives the logits of each pane in order, allowed tells the shutter, model
translates canonical IDs. -/
def shape (vocab : Nat) (row : List (List Nat)) (st : ShapeSet) (allowed : Nat → Bool) (model : Nat → Nat) : Shaped :=
  let panes := row.zipIdx.map (fun x => (x.1.zipIdx).map (fun l =>
    let c := 1024 * x.2 + l.2
    (c, if c < vocab then shapedLogit st c l.1 else none)))
  let fin := panes.map (fun p => p.map (·.2))
  let alw := panes.map (fun p => p.map (fun e => if allowed e.1 then e.2 else none))
  let sums (l : List (List (Option Nat))) : List (Nat × Option Nat) := l.map (fun p => (paneSum p (greatest p), greatest p))
  let sa := sums alw
  let sf := sums fin
  let count := ((List.range vocab).filter allowed).length
  match greatest (sa.map (·.2)), greatest (sf.map (·.2)) with
  | some ma, some mf =>
    let h := log2Up row.length
    let s := scaledSum h sa ma
    let f := scaledSum h sf mf
    let lse := Fp.add ma (Fp.mul (Fp.log2 s) Fp.ln2)
    let w := expDiff ma mf
    let mass := Fp.div (Fp.mul s w) f
    let all := (panes.flatten).filterMap (fun e => if allowed e.1 then e.2.map (fun y => (model e.1, y)) else none)
    let es := topCands st.topK all
    let qs := es.map (fun e => expDiff e.2 ma)
    { allowed := count, lse := lse, mass := if Fp.lt Fp.one mass then Fp.one else mass,
      toppN := if Fp.eq st.topP Fp.one then es.length else toppCount (Fp.mul st.topP s) 0 0 qs,
      minpN := minpCount st.minP qs, entries := es }
  | _, _ => { allowed := count, lse := Fp.negInf, mass := 0, toppN := 0, minpN := 0, entries := [] }

/-- The tables that a descriptor's base and configuration belong to. -/
def State.descTables (s : State) (d : Shutter) : GTables :=
  match s.gram? d.guid with
  | some g => g.body.tab
  | none => {}

/-- in_shutter of R226 for a descriptor of a stream. -/
def State.inDesc (s : State) (t : Stream) (d : Shutter) (c : Nat) : Bool :=
  inShutter (s.vocabOf t) (s.descTables d) d (s.cdResult d) c

/-- A stream's row shaped under a descriptor (R259 to R264). -/
def State.shapeRow (s : State) (t : Stream) (d : Shutter) (row : List (List Nat)) : Shaped :=
  let v := s.vocabOf t
  shape v.prof.vocab row { rt := t.id.rt, topP := t.id.topP, minP := t.id.minP, topK := t.id.topK, bias := t.id.bias }
    (s.inDesc t d) (fun c => v.prof.c2m.getD c 0)

end Sys2Proof.Machine
end

