-- ==== Sys2Proof/Machine/Prefix.lean ====
section
/-! DEFINITION. Prefix handles (R340 to R344) with their chained lookups (R444, R445). -/
namespace Sys2Proof.Machine
open Sys2Proof

/-! ### Local lookups (R343, R344, R446) -/

/-- The record that a handle finds for a tenant: its key is in Beryl, and a replica is found while streams are attached to it
(R446). -/
def State.findPfx (s : State) (handle tenant : Nat) : Option PfxRec :=
  if s.findsKey 1 [handle, tenant] then
    s.sto.pfx.find? (fun r => r.handle == handle && r.tenant == tenant && (!r.dropped || (r.replica && r.attach != 0)))
  else none

/-- The payload of pfx.find and pfx.drop (R343). -/
def Pkt.pfxHandle (p : Pkt) : Nat := rd p.payload 0 8
def Pkt.pfxTenant (p : Pkt) : Nat := rd p.payload 8 4

/-- The results of pfx.find (R343, R445): extra is the CHAINED field. -/
def pfxResults (length modelGen profile summary attach canon extra : Nat) : Nat × Nat × Nat :=
  (length, modelGen + profile * 2 ^ 16 + flag (summary != 0) 20 + extra, attach + canon * 2 ^ 32)

/-! ### Chained lookups (R444) -/

/-- Whether the block chains its lookups (R444). -/
def State.chains (s : State) : Bool := s.cas.st == .member || s.cas.st == .deputy || s.cas.st == .master

/-- A chained lookup begins: CHAIN_FIND to every live member. With none to ask, the lookup misses at once. -/
def State.startChain (p : Pkt) (handle tenant : Nat) (isOpen : Bool) (s : State) : State :=
  let others := s.liveOthers
  if others.isEmpty then s.refuse p stNotResident
  else
    let n := s.cas.nextReq
    let c : Chain := { request := n, pkt := p, handle := handle, tenant := tenant, isOpen := isOpen, asked := bitMap others,
                       answered := [], sent := s.aon.time }
    others.foldl (fun s m => s.send m (.chainFind handle tenant n))
      (s.onCas (fun g => { g with nextReq := n + 1, chains := g.chains ++ [c] }))

/-- CHAIN_FIND at a member (R444): a summary record and a record with DROPPED set answer as a miss. -/
def State.answerChain (source handle tenant request : Nat) (s0 : State) : State :=
  let s := s0.lookup 26 1 [handle, tenant]
  let hit := match s.findPfx handle tenant with
    | some r =>
      if r.dropped || r.summary != 0 then none
      else some { length := r.length, pages := r.pages.length, modelGen := r.modelGen, profile := r.profile,
                  canonCrc := r.canonCrc, attach := r.attach : ChainRec }
    | none => none
  s.send source (.chainAns request hit)

/-- CHAIN_FIND (R444). -/
def execChainFind (dt : Nat) (hdr : MsgHdr) (handle tenant request : Nat) (s : State) : Res :=
  .next ((s.elapse dt).hear hdr false (fun s => s.answerChain hdr.source handle tenant request))

/-! ### pfx.find and pfx.drop (R343) -/

/-- pfx.find (R343, R444). -/
def pfxFindWork (p : Pkt) (s0 : State) : State :=
  let s := s0.lookup 16 1 [p.pfxHandle, p.pfxTenant]
  match s.findPfx p.pfxHandle p.pfxTenant with
  | some r =>
    let (a, b, c) := pfxResults r.length r.modelGen r.profile r.summary r.attach r.canonCrc 0
    s.done p 0 (some a) (some b) (some c)
  | none => if s.chains then s.startChain p p.pfxHandle p.pfxTenant false else s.refuse p stNotResident

/-- PFX_FIND (R343). -/
def execPfxFind (dt ap pos : Nat) (s : State) : Res := .next ((s.elapse dt).runBeryl (isOp 0x0802) (fun _ => [1]) ap pos pfxFindWork)

/-- pfx.drop (R343): the Beryl entry goes and DROPPED is set; a record with nothing attached is freed. -/
def pfxDropWork (p : Pkt) (s0 : State) : State :=
  let s := s0.lookup 16 1 [p.pfxHandle, p.pfxTenant]
  match s.findPfx p.pfxHandle p.pfxTenant with
  | some r => (s.dropRecords [r.num]).done p 0 none none none
  | none => s.refuse p stNotResident

/-- PFX_DROP (R343). -/
def execPfxDrop (dt ap pos : Nat) (s : State) : Res := .next ((s.elapse dt).runBeryl (isOp 0x0803) (fun _ => [1]) ap pos pfxDropWork)

/-! ### pfx.bind (R341, R342) -/

/-- The largest multiple of TOKENS_PER_PAGE not above a length. -/
def State.wholePages (s : State) (n : Nat) : Nat := n / max 1 s.sch.tokensPerPage * max 1 s.sch.tokensPerPage

/-- The record that pfx.bind makes of a stream, under a number, and the own pages that it takes over (R341). A stream paused in
summary mode gives its summary and its whole length. -/
def State.bindRecord (s : State) (handle num : Nat) (t : Stream) : PfxRec × Nat :=
  let crc := match s.versionOf t with | some v => v.prof.canonCrc | none => 0
  let base : PfxRec := { num := num, handle := handle, tenant := t.id.tenant, parent := none, length := t.length, pages := [],
                         attach := 0, summary := 0, canonCrc := crc, modelGen := s.sch.modelGen, profile := t.id.profile,
                         dropped := false, replica := false, depth := 0 }
  if t.state == .paused then ({ base with summary := (t.pause.map (·.sumHandle)).getD 0 }, 0)
  else
    let bound := s.wholePages t.length
    let k := bound / max 1 s.sch.tokensPerPage - (s.prefixPages t).length
    let depth := match t.pfx with | some n => (match s.pfx? n with | some r => r.depth + 1 | none => 0) | none => 0
    ({ base with parent := t.pfx, length := bound, pages := t.kv.take k, attach := 1, depth := depth }, k)

/-- pfx.bind (R341, R342). -/
def pfxBindWork (p : Pkt) (s0 : State) : State :=
  match s0.live? p.stream with
  | none => s0.refuse p stStaleHandle
  | some t =>
    let handle := p.arg
    let s := s0.lookup 16 1 [handle, t.id.tenant]
    let num := s.freePfx.getD 0
    let (r, k) := s.bindRecord handle num t
    if (s.findPfx handle t.id.tenant).isSome || s.holdsKey 1 [handle, t.id.tenant] || r.length == 0 || 7 < r.depth then
      s.refuse p stStateConflict
    else if s.freePfx.isNone then s.refuse p stNoSpace
    else
      match s.insertUse 16 1 (prefixEntry handle t.id.tenant num) with
      | none => s.refuse p stNoSpace
      | some s1 =>
        let s2 := (s1.onSto (fun g => { g with pfx := g.pfx ++ [r] })).setChain .handle r.pages
        let s3 := if t.state == .paused then s2
          else (s2.onStream t.id.slot (fun t => { t with kv := t.kv.drop k, pfx := some num })).setChain .stream (t.kv.drop k)
        s3.done p 0 (some r.length) (some num) none

/-- PFX_BIND (R341). -/
def execPfxBind (dt ap pos : Nat) (s : State) : Res := .next ((s.elapse dt).runBeryl (isOp 0x0801) (fun _ => [1]) ap pos pfxBindWork)

end Sys2Proof.Machine
end

