-- ==== Sys2Proof/Machine/Open.lean ====
section
/-! DEFINITION. str.open (R308 to R311) with its chained prefix attachment (R444 to R447). -/
namespace Sys2Proof.Machine
open Sys2Proof

/-! ### Checks of str.open (R309, R310) -/

/-- A prefix record as str.open judges it: a record of this block, or one of a holder. -/
structure PfxView where
  length : Nat
  modelGen : Nat
  profile : Nat
  canonCrc : Nat
  deriving DecidableEq, Repr

/-- What a local record, or a holder's answer, shows. -/
def PfxRec.view (r : PfxRec) : PfxView :=
  { length := r.length, modelGen := r.modelGen, profile := r.profile, canonCrc := r.canonCrc }
def chainView (r : ChainRec) : PfxView :=
  { length := r.length, modelGen := r.modelGen, profile := r.profile, canonCrc := r.canonCrc }

/-- The grammar of the committed set with an ID. -/
def State.gramNum (s : State) (id : Nat) : Option Gram := s.img.grams.find? (fun g => g.id == id && g.inSet)

/-- The grammar that str.open names, when it is resident for the profile (R310); none in the inner option for no grammar. -/
def State.openGram (s : State) (o : OpenReq) : Option (Option Gram) :=
  if !o.hasGrammar then some none
  else match s.gramNum o.grammar with
    | some g => if g.body.profile == o.profile then some (some g) else none
    | none => none

/-- Whether every value of str.open that its profile judges is in range (R255, R309). -/
def openValues (s : State) (o : OpenReq) (v : Version) : Bool :=
  let n := v.prof.vocab
  o.ends.all (fun m => decide (m < n)) && o.input.all (fun m => decide (m < n)) &&
  o.shape.bias.all (fun e => decide (e.1 < n)) &&
  (v.prof.toCanon o.ends).all v.vocab.isSpecial && !(o.autoMigrate && s.generation)

/-- R347 for an attachment: the same profile and CANON_CRC, and the current model generation for a pinned stream. -/
def attachable (s : State) (o : OpenReq) (v : Version) (r : PfxView) : Bool :=
  r.profile == o.profile && r.canonCrc == v.prof.canonCrc && (!o.pin || r.modelGen == s.sch.modelGen)

/-- The status with which str.open is refused once its profile, grammar and prefix record are found; none when it may go on
(R309, R310). -/
def State.openRefusal (s : State) (o : OpenReq) (v : Version) (pfx : Option PfxView) : Option Nat :=
  if !openValues s o v then some stBadPacket
  else if !s.prefill && o.input.isEmpty then some stStateConflict
  else match pfx with
    | some r => if attachable s o v r then none else some stStateConflict
    | none => none

/-! ### Building the entry (R311) -/

/-- A bias list by canonical ID, ascending (R256). -/
def canonBias (v : Version) (l : List (Nat × Nat)) : List (Nat × Nat) :=
  sortBy (fun a b => decide (a.1 < b.1)) (l.map (fun e => (v.prof.m2c.getD e.1 0, e.2)))

/-- Marks a grammar as used now (R103). -/
def State.useGram (uid : Nat) (s : State) : State :=
  s.onImg (fun g => { g with grams := g.grams.map (fun x => if x.uid == uid then { x with lastUse := s.aon.time } else x) })

/-- The stream table entry of an opening stream (R306, R311). -/
def newStream (p : Pkt) (o : OpenReq) (v : Version) (g : Option Gram) (slot gen modelGen now : Nat) (stops : List (Nat × Nat)) :
    Stream :=
  let id : Ident :=
    { slot := slot, gen := gen, tenant := o.tenant, priority := bits o.dset 5 4, policy := bits o.dset 7 6,
      profile := o.profile, vuid := v.uid, ap := p.ap, ring := p.ring, modelGen := modelGen, pin := o.pin,
      gang := o.shape.gang, force := o.force, autoMigrate := o.autoMigrate, dest := o.dest, specialOut := bits o.dset 1 0,
      outInvalid := bits o.dset 3 2, pmode := o.pmode, maxGen := o.maxGen, ends := v.prof.toCanon o.ends, rt := o.shape.rt,
      topP := o.shape.topP, minP := o.shape.minP, topK := o.shape.topK, bias := canonBias v o.shape.bias, biasHeld := true,
      stops := stops, openTime := now }
  let ps : Parse := match g with | some g => Parse.initial g.id g.uid | none => {}
  let d : Shutter := match g with | some g => { kind := .pending, guid := g.uid } | none => {}
  ({ id := id, state := .opening, parse := ps, shutter := d, lat := { ttft := o.ttft, tbt := o.tbt } : Stream}).enqueue now
    (v.prof.toCanon o.input)

/-- The stop list that an opening stream takes (R309). -/
def OpenReq.stopList (o : OpenReq) (v : Version) : List StopEnt :=
  if o.noStops then [] else if o.stops.isEmpty then v.stops else o.stops

/-- Whether a str.open needs a Beryl entry that was lost with its bank: a literal of its profile, its tenant's record (R300). -/
def State.lostFor (s : State) (o : OpenReq) (v : Version) : Bool :=
  s.ber.lost.any (fun x => (x.1 == 4 && x.2.tag == v.litHandle) || (x.1 == 3 && x.2.key == [o.tenant]))

/-- The entry is built in OPENING: slot, bias blocks, window block and input queue, and stop strings; none when one of them does not fit
(R162, R310). The stack of its grammar takes its first chunk (R212). -/
def State.buildEntry (p : Pkt) (o : OpenReq) (v : Version) (g : Option Gram) (s : State) : Option (Nat × State) :=
  match s.takeSlot with
  | none => none
  | some (slot, s1) =>
    if s1.lostFor o v || !s1.biasFits o.shape.bias || !s1.unitsFree (textUnits o.input.length (!(o.stopList v).isEmpty) false) then none
    else
      match State.takeStops (o.stopList v) s1 with
      | none => none
      | some (stops, s2) =>
        let t := newStream p o v g slot (s2.genAt slot) s2.sch.modelGen s2.aon.time stops
        let s3 := (s2.onStr (fun x => { x with tab := x.tab ++ [t] })).stow slot
        some (slot, if g.isSome then s3.settleNew slot else s3)

/-- A prefix record is attached to an opening stream; the summary of a summary record is carried by its first generation
step (R341). -/
def State.attachPrefix (slot num : Nat) (s : State) : State :=
  match s.pfx? num with
  | none => s
  | some r =>
    (s.attach num).onStream slot (fun t => { t with pfx := some num, length := r.length, sumRelease := r.summary })

/-- The entry is whole: PROMPT, or READY on a block without the prefill personality, and the cmp record of str.open (R311,
R328). -/
def State.finishOpen (p : Pkt) (slot : Nat) (s : State) : State :=
  let s1 := if s.prefill then s.setState slot .prompt else s.firstReady slot
  let s2 := match s1.stream? slot with
    | some t => if !s1.prefill && t.parse.gstate != GState.none then s1.queueBackground slot else s1
    | none => s1
  let (s3, held) := s2.heldBit slot
  match s3.stream? slot with
  | none => s3
  | some t =>
    let h := t.handle
    let vh := match s3.versionOf t with | some v => v.handle | none => 0
    let i := held ||| s3.workInfo p
    s3.cmpFull p h (some h) (statusOfInfo i) i (BitVec.ofNat 64 h) (BitVec.ofNat 64 (t.id.modelGen + vh * 2 ^ 16))
      (BitVec.ofNat 64 t.length) |>.pauseDeferred slot

/-- str.open once the local record, if any, is found. -/
def State.openLocal (p : Pkt) (o : OpenReq) (v : Version) (g : Option Gram) (pfx : Option PfxRec) (s : State) : State :=
  match s.openRefusal o v (pfx.map PfxRec.view) with
  | some st => s.refuse p st
  | none =>
    match s.buildEntry p o v g with
    | none => s.refuse p stNoSpace
    | some (slot, s1) =>
      (match pfx with | some r => s1.attachPrefix slot r.num | none => s1).finishOpen p slot

/-- The replica of a holder's record (R446): its Beryl entry and its pages; none when either does not fit. -/
def State.makeReplica (handle tenant : Nat) (r : ChainRec) (s : State) : Option (Nat × List Nat × State) :=
  match s.freePfx with
  | none => none
  | some num =>
    match (if s.holdsKey 1 [handle, tenant] then some s else s.insertUse 24 1 (prefixEntry handle tenant num)) with
    | none => none
    | some s1 =>
      match s1.takePages (r.length / max 1 s1.sch.tokensPerPage) with
      | none => none
      | some (pages, s2) =>
        let rec_ : PfxRec := { num := num, handle := handle, tenant := tenant, parent := none, length := r.length,
                               pages := pages, attach := 0, summary := 0, canonCrc := r.canonCrc, modelGen := r.modelGen,
                               profile := r.profile, dropped := true, replica := true, depth := 0 }
        some (num, pages, (s2.onSto (fun x => { x with pfx := x.pfx ++ [rec_] })).setChain .handle pages)

/-- str.open with a chained hit (R446): the entry stays in OPENING until the copy has completed. -/
def State.openChained (p : Pkt) (o : OpenReq) (v : Version) (g : Option Gram) (holder : Nat) (r : ChainRec) (s : State) : State :=
  match s.openRefusal o v (some (chainView r)) with
  | some st => s.refuse p st
  | none =>
    match s.buildEntry p o v g with
    | none => s.refuse p stNoSpace
    | some (slot, s1) =>
      match s1.makeReplica o.pfx o.tenant r with
      | none => s.refuse p stNoSpace
      | some (num, pages, s2) =>
        ((s2.onStream slot (fun t => { t with wait := .replicaCopy })).onCas
          (fun c => { c with copies := c.copies ++ [(num, slot, holder, p)] })).send holder (.pfxCopy o.pfx o.tenant pages)

/-- str.open from the residency of what it names on (R310): found is the answer of a chained lookup. -/
def State.openWith (p : Pkt) (found : Option (Option (Nat × ChainRec))) (s0 : State) : State :=
  match openReq p.payload with
  | none => s0.refuse p stBadPacket
  | some o =>
    let s := if o.hasPrefix then s0.lookup 16 1 [o.pfx, o.tenant] else s0
    match s.committed o.profile, s.openGram o with
    | some v, some g =>
      if !o.hasPrefix then s.openLocal p o v g none
      else match s.findPfx o.pfx o.tenant, found with
        | some r, _ => s.openLocal p o v g (some r)
        | none, some (some (holder, r)) => s.openChained p o v g holder r
        | none, some none => s.refuse p stNotResident
        | none, none => if s.chains then s.startChain p o.pfx o.tenant true else s.refuse p stNotResident
    | _, _ => s.refuse p stNotResident

/-- The Beryl uses whose banks a str.open reads or updates. -/
def openUses (p : Pkt) : List Nat :=
  match openReq p.payload with
  | some o => (if o.hasPrefix then [1] else []) ++ (if o.noStops then [] else [2])
  | none => []

/-- STR_OPEN (R311). -/
def execStrOpen (dt ap pos : Nat) (s : State) : Res :=
  .next ((s.elapse dt).runBeryl (isOp 0x0301) openUses ap pos (fun p s => s.openWith p none))

/-! ### Answers to a chained lookup (R444 to R446) -/

/-- A chained lookup is decided: the hit of the lowest group number, or a miss (R444, R445). -/
def State.decideChain (c : Chain) (s : State) : State :=
  let s1 := s.onCas (fun g => { g with chains := g.chains.filter (fun x => x.request != c.request) })
  let hits := c.answered.filterMap (fun a => a.2.map (fun r => (a.1, r)))
  let best := minBy (fun h => h.1) hits
  if c.isOpen then s1.openWith c.pkt (some best)
  else match best with
    | none => s1.refuse c.pkt stNotResident
    | some (holder, r) =>
      let (x, y, z) := pfxResults r.length r.modelGen r.profile 0 r.attach r.canonCrc (2 ^ 21 + holder * 2 ^ 22)
      s1.done c.pkt 0 (some x) (some y) (some z)

/-- A lookup is decided when every member asked has answered. -/
def State.settleChain (request : Nat) (s : State) : State :=
  match s.cas.chains.find? (fun c => c.request == request) with
  | none => s
  | some c => if (bitList 64 c.asked).all (fun m => c.answered.any (fun a => a.1 == m)) then s.decideChain c else s

/-- CHAIN_ANS (R444). -/
def execChainAns (dt : Nat) (hdr : MsgHdr) (request : Nat) (hit : Option ChainRec) (s : State) : Res :=
  .next ((s.elapse dt).hear hdr false (fun s =>
    (s.onCas (fun g => { g with chains := g.chains.map (fun c =>
      if c.request == request && c.asked.testBit hdr.source && !c.answered.any (fun a => a.1 == hdr.source) then
        { c with answered := c.answered ++ [(hdr.source, hit)] }
      else c) })).settleChain request))

/-- CHAIN_FIND_TIMEOUT (R444): 50 µs after CHAIN_FIND the answers so far decide. -/
def execChainFindTimeout (dt request : Nat) (s : State) : Res :=
  let s1 := s.elapse dt
  .next (match s1.cas.chains.find? (fun c => c.request == request) with
    | some c => if c.sent + 50000 ≤ s1.aon.time then s1.decideChain c else s1
    | none => s1)

/-- PFX_COPY at the holder (R446, R447): the fabric copies the record's KV, parent pages included, and the copy counts as an
attachment. -/
def execPfxCopy (dt : Nat) (hdr : MsgHdr) (handle tenant : Nat) (pages : List Nat) (s : State) : Res :=
  .next ((s.elapse dt).hear hdr false (fun s =>
    match s.findPfx handle tenant with
    | some r => ((s.attach r.num).onCas (fun c => { c with serving := c.serving ++ [(hdr.source, r.num)] })).emit
        (.copyKv handle hdr.source pages)
    | none => s))

/-- PFX_COPY_DONE (R446, R447): at the requester the stream is attached and str.open completes; at the holder the copy's
attachment ends. -/
def execPfxCopyDone (dt handle tenant : Nat) (s : State) : Res :=
  let s1 := s.elapse dt
  let mine (n : Nat) : Bool := s1.sto.pfx.any (fun r => r.num == n && r.handle == handle && r.tenant == tenant)
  .next (match s1.cas.copies.find? (fun c => mine c.1) with
    | some (num, slot, _, p) =>
      let s2 := s1.onCas (fun c => { c with copies := c.copies.filter (fun x => x.1 != num) })
      let s3 := (s2.onStream slot (fun t => { t with wait := .none })).attachPrefix slot num
      s3.finishOpen p slot
    | none =>
      match s1.cas.serving.find? (fun c => mine c.2) with
      | some c => (s1.onCas (fun g => { g with serving := g.serving.erase c })).detach c.2
      | none => s1)

end Sys2Proof.Machine
end

