-- ==== Sys2Proof/Machine/Choice.lean ====
section
/-! DEFINITION. Choosing a token (R243 to R248), grants (R235), token commit (R196), stages 8 and 9 (R174 to R177), and the pause
that the lintel lays on a stream (R354). -/
namespace Sys2Proof.Machine
open Sys2Proof

/-! ### The test of a choice (R244, R226) -/

/-- The descriptor under which the row of a node was shaped (R244); where none has been, that of the node, one that is still to be built
taken as its build will leave it. -/
def State.rowDesc (s : State) (t : Stream) (node : Nat) : Shutter :=
  let d := ((assoc t.shaped node).orElse (fun _ => (t.nodeAt node).map (·.2))).getD {}
  if d.kind == .building || d.kind == .pending then
    let s1 := s.build t.id.slot node
    match s1.stream? t.id.slot with
    | some u => s1.resolved (((u.nodeAt node).map (·.2)).getD {})
    | none => d
  else d

/-- Whether a token lies outside the shutter of a node. -/
def State.outside (s : State) (t : Stream) (node tok : Nat) : Bool := !s.inDesc t (s.rowDesc t node) tok

/-- Whether the outstanding step of a stream is a tree step (R365). -/
def Stream.treeStep (t : Stream) : Bool := match t.tree with | some tr => tr.inStep | none => false

/-- Whether a choice of the stream is held or being carried out. -/
def Stream.choosing (t : Stream) : Bool := t.choice.isSome || t.commit.isSome

/-! ### Decoding a commit (R174 to R177) -/

/-- The decode settings of a stream (R162). -/
def State.decSet (s : State) (t : Stream) : DecSet :=
  { special := t.id.specialOut, raw := rawOut (s.vocabOf t).prof t.id.outInvalid }

/-- What a louvre slice makes of a commit: the bytes it releases, the decode state after it, how many of its tokens were decoded before a stop
ended the stream, and the keys that it searched. -/
structure Decoded where
  text : Bytes
  dec : Dec
  falseHits : Nat
  stopped : Bool
  used : Nat
  keys : List Nat := []
  deriving DecidableEq, Repr

/-- Output bytes pass through the stop matcher (R167 to R169); everything before the hold-back is released. -/
def Decoded.scan (stops : List StopSeq) (out : Bytes) (a : Decoded) : Decoded :=
  let r := stopScan stops a.dec out
  if r.stopped then
    { a with text := a.text ++ r.open_, dec := { carry := [], hold := 0, window := r.window, stopped := true },
             falseHits := a.falseHits + r.falseHits, stopped := true, keys := a.keys ++ r.keys }
  else
    let h := holdBack stops r.window
    { a with text := a.text ++ r.open_.take (r.open_.length - h), dec := { a.dec with hold := h, window := r.window },
             falseHits := a.falseHits + r.falseHits, keys := a.keys ++ r.keys }

/-- One committed token; a suppressed special token changes nothing (R164). -/
def decodeToken (v : Vocab) (d : DecSet) (stops : List StopSeq) (heal : Bytes) (a : Decoded) (tok : Nat) : Decoded :=
  if a.stopped then a
  else
    match v.render d heal false tok with
    | none => { a with used := a.used + 1 }
    | some b =>
      let b := a.dec.carry ++ b
      let (out, carry, _) := utf8Out d.raw false b.length b
      Decoded.scan stops out { a with dec := { a.dec with carry := carry }, used := a.used + 1 }

/-- The tokens of a commit; heal is the heal text that the first of them continues. -/
def decodeTokens (v : Vocab) (d : DecSet) (stops : List StopSeq) (dec : Dec) (heal : Bytes) (toks : List Nat) : Decoded :=
  let a0 : Decoded := { text := [], dec := dec, falseHits := 0, stopped := false, used := 0 }
  match toks with
  | [] => a0
  | x :: xs => xs.foldl (decodeToken v d stops []) (decodeToken v d stops heal a0 x)

/-- The end of a stream for another reason than a stop: the carry is resolved (R166) and the hold-back released (R177). -/
def decodeEnd (d : DecSet) (stops : List StopSeq) (a : Decoded) : Decoded :=
  if a.stopped then a
  else
    let (out, _, _) := utf8Out d.raw true a.dec.carry.length a.dec.carry
    let a1 := Decoded.scan stops out { a with dec := { a.dec with carry := [] } }
    if a1.stopped then a1
    else { a1 with text := a1.text ++ lastBytes a1.dec.hold a1.dec.window, dec := { a1.dec with hold := 0 } }

/-! ### Token commit (R196, R314, R330) -/

/-- Whether a committed token ends generation (R314), with the count generated and the context length after it. -/
def State.endsBy (s : State) (t : Stream) (tok generated context : Nat) : Bool :=
  t.id.ends.contains tok || (t.id.maxGen != 0 && decide (t.id.maxGen ≤ generated)) || decide (s.sch.maxContext ≤ context)

/-- The grammar under which a stream's next shutter is built: the one that has replaced its own, if any (R113, R114). -/
def State.presentGuid (s : State) (ps : Parse) : Nat :=
  if ps.gstate == .none then ps.guid
  else match s.gramNum ps.gid with
    | some g => g.uid
    | none => ps.guid

/-- The parse state after a committed token (R196); heal is the heal text that it continues. -/
def State.advanceBy (s : State) (t : Stream) (ps : Parse) (heal : Bytes) (tok : Nat) (inside : Bool) : Parse :=
  let v := s.vocabOf t
  let b := if v.isSpecial tok then none
    else some (if heal.isEmpty then (v.grammarBytes tok).getD [] else v.healBytes heal tok)
  Parse.commit (s.tables ps) ps b tok inside

/-- The heal text that a stream's next committed token continues. -/
def Stream.healText (t : Stream) : Bytes := if t.generated == 0 then (t.enc.heal.map (·.1)).getD [] else []

/-- The committed build that follows a commit (R227); a stream without a grammar needs none (R228). -/
def State.nextShutter (slot : Nat) (s : State) : State :=
  match s.stream? slot with
  | none => s
  | some t =>
    if t.parse.gstate == .none then (s.dropBuilds slot).onStream slot (fun t => { t with shutter := {} })
    else s.beginBuild slot 0

/-- Commits queued or in progress at a louvre slice (R179). -/
def State.sliceLoad (s : State) (n : Nat) : Nat := (s.str.tab.filter (fun t => (t.commit.bind (·.slice)) == some n)).length

/-- The louvre slice that a commit goes to: in service for the profile, with the fewest commits, the lowest first (R179). -/
def State.pickSlice (s : State) (profile : Nat) : Option Nat := minBy s.sliceLoad (s.serving_ 1 profile)

/-- Token commit of the tokens of a packet (R196, R227, R330): ps is the parse state after them, the last of them is queued, and
the louvre slice has their text to release. -/
def State.tokenCommit (slot : Nat) (pkt : Pkt) (toks : List Nat) (ps : Parse) (ended cut : Bool) (r0 waited : Nat)
    (s : State) : State :=
  match s.stream? slot with
  | none => s
  | some t =>
    let now := s.aon.time
    let heal := t.healText
    let complete := ps.gstate == .complete && t.parse.gstate != .complete
    let broke := ps.gstate == .broken && t.parse.gstate != .broken
    let cm : Commit := { pkt := pkt, step := t.lastStep, tokens := toks, index := t.generated, ended := ended, cut := cut,
                         heal := heal, r0 := r0, flags := flag complete 4 + flag (!heal.isEmpty) 5, waited := waited,
                         slice := s.pickSlice t.id.profile }
    let last := (toks.getLast?).getD 0
    let s1 := State.stow slot <| s.onStream slot (fun t => { t with
      generated := t.generated + toks.length, queue := [last], choice := none, commit := some cm, shaped := [],
      parse := { ps with guid := s.presentGuid ps }, broke := t.broke || broke,
      enc := { t.enc with heal := none, times := [(now, 1)] },
      lat := { t.lat with readyTime := now, deadline := deadlineOf now t.lat.tbt, lastCommit := some now, stalledSince := 0 } })
    let s2 := s1.onStr (fun g => { g with waitingChoices := g.waitingChoices.filter (· != slot) })
    let s3 := (s2.settleStack slot).nextShutter slot
    -- the last admitted step that used a replaced grammar frees it (R114)
    if s.replacedGram t.parse.guid then s3.sweepGrams else s3

/-- Token commit of a held tok.choose (stage 7). -/
def State.commitChoice (slot : Nat) (s : State) : State :=
  match s.stream? slot with
  | none => s
  | some t =>
    match t.choice with
    | none => s
    | some c =>
      let ps := s.rechunk false t.parse (s.advanceBy t t.parse t.healText c.token (!c.outside))
      let ended := s.endsBy t c.token (t.generated + 1) (t.length + 1)
      s.tokenCommit slot c.pkt [c.token] ps ended false c.pkt.arg (s.aon.time - c.arrived)

/-! ### Grants (R235) -/

/-- Streams whose choices wait before that of a slot. -/
def State.waitBefore (s : State) (slot : Nat) : List Nat := s.str.waitingChoices.takeWhile (· != slot)

/-- Since when a choice waits for credit; now for one that does not wait yet. -/
def State.choiceSince (s : State) (t : Stream) : Nat :=
  if s.str.waitingChoices.contains t.id.slot then (t.choice.map (·.arrived)).getD s.aon.time else s.aon.time

/-- Whether a stream's held choice can be granted now: its charge fits, and no choice or tree build that waited before it shares a unit
with it (R235, R360). -/
def State.grantable (s : State) (t : Stream) : Bool :=
  let c := s.choiceCharge t
  s.chargeFits c && (s.waitBefore t.id.slot).all (fun n => match s.stream? n with
    | some u => !(s.choiceCharge u).1.any c.1.contains
    | none => true) && !s.treesBefore (s.choiceSince t) c.1

/-- A held choice that has passed the fence is granted with its commit, or waits for credit from now on (R22, R235). -/
def State.grantOrWait (commit : Nat → State → State) (slot : Nat) (s : State) : State :=
  match s.stream? slot with
  | none => s
  | some t =>
    let begun := s.str.waitingChoices.contains slot
    let s1 := if begun then s
      else s.onStream slot (fun t => { t with choice := t.choice.map (fun c => { c with arrived := s.aon.time }) })
    if t.choice.isNone then s
    else if s.grantable t then commit slot s1
    else if begun then s
    else s1.onStr (fun g => { g with waitingChoices := g.waitingChoices ++ [slot] })

/-! ### tok.choose (R243 to R247) -/

/-- tok.choose (R22, R243 to R247): a choice that is held or at work stands, and a tree step is answered by a reply. -/
def tokChooseWork (p : Pkt) (s : State) : State :=
  match s.live? p.stream with
  | none => s.refuse p stStaleHandle
  | some t =>
    let v := s.vocabOf t
    if t.choosing || t.treeStep then s.refuse p stStateConflict
    else if v.prof.vocab ≤ p.arg then s.refuse p stBadPacket
    else if t.voided then s.refuse p stVoided
    else
      let tok := v.prof.m2c.getD p.arg 0
      let out := s.outside t 0 tok
      if out && !t.id.force then s.cmp p stDisallowed (flag t.replayed 1) (some p.arg) (some t.lastStep) (some 0)
      else
        let slot := t.id.slot
        let c : Choice := { pkt := p, token := tok, node := 0, reply := false, outside := out, arrived := s.aon.time }
        let s1 := s.onStream slot (fun t => { t with choice := some c })
        if s1.passed t.lastStep then s1.grantOrWait State.commitChoice slot else s1

/-- TOK_CHOOSE (R243). -/
def execTokChoose (dt ap pos : Nat) (s : State) : Res := .next ((s.elapse dt).runPacket (isOp 0x0601) ap pos tokChooseWork)

/-! ### Stages 8 and 9 (R174 to R178, R247, R331) -/

/-- RESULT2 of R247. -/
def State.chooseR2 (s : State) (slot : Nat) (c : Commit) : Nat :=
  match s.stream? slot with
  | none => 0
  | some t => flag t.broke 0 + (if t.broke then t.parse.bcause * 2 else 0) + c.flags + min c.waited (2 ^ 32 - 1) * 2 ^ 16

/-- RESULT0 of a commit: the chosen ID, or for a reply the field of R371 with ENDED. -/
def Commit.result0 (c : Commit) : Nat := c.r0 + flag c.cut 34

/-- A louvre slice has decoded a commit: its txt records, the decode state, the stream's next state and the cmp record. -/
def State.stage9 (slot : Nat) (c : Commit) (s : State) : State :=
  match s.stream? slot with
  | none => s
  | some t =>
    let stops := s.seenStops t
    let set := s.decSet t
    let a0 := decodeTokens (s.vocabOf t) set stops t.dec c.heal c.tokens
    let a := if c.ended then decodeEnd set stops a0 else a0
    let ended := c.ended || a.stopped
    let tf := flag t.lat.lateStep 0 + flag t.replayed 1
    let lf := flag a.stopped 2 + flag ended 3 + flag (!a.dec.carry.isEmpty) 4
    let recs := txtRecs t.handle c.step c.index tf lf s.now (splitRuns 4064 a.text.length [] a.text)
    let s1 := ((s.lookups (8 + c.slice.getD 0 / 2) 2 (a.keys.map (fun k => [k]))).count bcStopFalse a.falseHits).onStream slot (fun t => { t with
      commit := none, dec := a.dec, lat := { t.lat with policyDue := t.lat.lateStep && !ended } })
    let s2 := s1.egressAll t.id.ring (some t.handle) recs
    let s3 := if ended then s2.setState slot .draining else s2.enterReady slot
    let s4 := s3.pauseDeferred slot
    let (s5, held) := s4.heldBit slot
    let info := held + flag t.replayed 1 + flag t.lat.lateStep 2
    let r2 := s5.chooseR2 slot c
    ((s5.onStream slot (fun t => { t with broke := false })).workDone 1 (.stream slot)).done c.pkt info (some c.result0) (some c.step) (some r2)

/-- A commit goes to a louvre slice that serves its profile (R179). -/
def State.sliceCommit (slot : Nat) (s : State) : State :=
  match s.stream? slot with
  | none => s
  | some t =>
    let s1 := s.onStream slot (fun t => { t with commit := t.commit.map (fun c => { c with slice := none }) })
    let n := s1.pickSlice t.id.profile
    s1.onStream slot (fun t => { t with commit := t.commit.map (fun c => { c with slice := n }) })

/-- COMMIT_DECODE_DONE (R174): a commit that no slice has goes to one now (R179); while the stop bank is being reloaded its searches are
held (R299). -/
def execCommitDecodeDone (dt slot : Nat) (s : State) : Res :=
  let s1 := s.elapse dt
  .next (match s1.stream? slot with
    | some t => (match t.commit with
      | some c =>
        if c.slice.isNone then s1.sliceCommit slot
        else if !t.id.stops.isEmpty && s1.useReloading 2 then s1
        else s1.stage9 slot c
      | none => s1)
    | none => s1)

end Sys2Proof.Machine
end

