-- ==== Sys2Proof/Machine/Spec.lean ====
section
/-! DEFINITION. Draft trees and their replies (R356 to R372). -/
namespace Sys2Proof.Machine
open Sys2Proof

/-! ### Forking a tree (R356 to R361) -/

/-- Tree records of the pool (R361). -/
def State.treeRecords (s : State) : Nat := min 4096 (s.pool 4 / 4096)

/-- The array that a tree record lies in (R361, R381). -/
def State.treeArray (s : State) (record : Nat) : Nat := ((s.poolArrays 4).filter (fun a => !s.mem.withdrawn.contains a)).getD (record / 1024) 88

/-- The lowest tree record that no stream holds and that no march holds back (R390, log 16). -/
def State.freeTree (s : State) : Option Nat :=
  let used := s.str.tab.filterMap (fun t => t.tree.map (·.record))
  (List.range s.treeRecords).find? (fun i => !used.contains i && !s.mem.noAlloc.contains (s.treeArray i))

/-- A forked tree: its nodes, or the first node whose token its parent's shutter does not hold. -/
inductive Fork where
  | whole (nodes : List TNode)
  | refused (node : Nat)
  deriving DecidableEq, Repr

/-- The state with a stream's tree as far as it is forked, on which the shutters of its nodes are judged. -/
def State.withNodes (slot record : Nat) (nodes : List TNode) (s : State) : State :=
  s.onStream slot (fun t => { t with tree := some { record := record, nodes := nodes, inStep := false } })

/-- One more node of a fork (R358): parent and canonical token are given. -/
def State.forkNode (s : State) (t : Stream) (record : Nat) (nodes : List TNode) (parent tok : Nat) : Option TNode :=
  let s1 := s.withNodes t.id.slot record nodes
  match s1.stream? t.id.slot with
  | none => none
  | some u =>
    let out := s1.outside u parent tok
    if out && !t.id.force then none
    else
      let up := ((u.nodeAt parent).map (·.1)).getD u.parse
      let heal := if parent == 0 then u.healText else []
      let ps := s1.rechunk true up (s1.advanceBy u up heal tok (!out))
      let depth := (if parent == 0 then 0 else ((nodes[parent - 1]?).map (·.depth)).getD 0) + 1
      let d : Shutter := if ps.gstate == .none then {} else { kind := .building, guid := ps.guid }
      some { token := tok, parent := parent, depth := depth, broken := ps.gstate == .broken, parse := ps, shutter := d }

/-- The fork of a tree, node by node (R358). -/
def State.fork (s : State) (t : Stream) (record : Nat) : List (Nat × Nat) → List TNode → Fork
  | [], nodes => .whole nodes
  | (parent, tok) :: rest, nodes =>
    match s.forkNode t record nodes parent tok with
    | none => .refused (nodes.length + 1)
    | some n => s.fork t record rest (nodes ++ [n])

/-- The tree builds of a held tree, in node order: each asks for credit, and is granted while its charge fits and nothing waits before it
(R360). -/
def State.treeBuilds (slot : Nat) (s : State) : State :=
  match s.stream? slot with
  | none => s
  | some t =>
    let n := match t.tree with | some tr => tr.nodes.length | none => 0
    ((List.range n).map (· + 1)).foldl (fun s k =>
      match t.nodeAt k with
      | none => s
      | some (ps, _) =>
        if ps.gstate == .none then s
        else
          let b : Build := { slot := slot, node := k, background := false, running := false, units := [], share := 0, blocks := 0,
                             began := s.aon.time }
          let s1 := s.onStr (fun g => { g with builds := g.builds ++ [b] })
          if s1.treeGrantable b then s1.beginBuild slot k else s1) s

/-- RESULT0 of a tree (R359). -/
def treeR0 (epoch count depth : Nat) : Nat := epoch + count * 2 ^ 8 + depth * 2 ^ 16

/-- A tree every node of which was forked: held under the next epoch, completed, and its builds begun (R359, R360). -/
def treeHeld (p : Pkt) (t : Stream) (record : Nat) (nodes : List TNode) (s : State) : State :=
  let epoch := (t.epoch + 1) % 256
  let depth := (nodes.map (·.depth)).foldl max 0
  let s1 := (s.withNodes t.id.slot record nodes).onStream t.id.slot (fun t => { t with epoch := epoch })
  (s1.done p 0 (some (treeR0 epoch nodes.length depth)) (some 0) (some 0)).treeBuilds t.id.slot

/-- What a fork comes to: a tree held, or the number of the node that may not stand (R358, R359). -/
def treeForked (p : Pkt) (t : Stream) (record : Nat) (s : State) : Fork → State
  | .refused k => s.cmp p stDisallowed 0 (some (treeR0 t.epoch k 0)) (some 0) (some 0)
  | .whole nodes => treeHeld p t record nodes s

/-- Stack chunks that a tree of n draft nodes reserves: four for each advance of an ACTIVE grammar (R213, R358). -/
def treeChunks (t : Stream) (n : Nat) : Nat := if t.parse.gstate == .active then 4 * n else 0

/-- A tree that passed its checks, where there is a tree record and room for its chunks (R357, R358): s0 is the state it is forked in. -/
def treePlaced (p : Pkt) (ns : List (Nat × Nat)) (s s0 : State) : Option Stream → Option Nat → State
  | some t, some record =>
    if s0.chunksFree < treeChunks t ns.length then s.refuse p stNoSpace
    else treeForked p t record s0 (s0.fork t record ns [])
  | _, _ => s.refuse p stNoSpace

/-- The state in which a tree is forked: the stream's stack is wholly resident, and other stacks are spilled where chunks are short (R213,
R358); none when the stack does not fit. -/
def State.treeStart (t : Stream) (s : State) : Option State :=
  (s.takeStack t.id.slot).map (fun s1 => State.spillLow s1.str.tab.length s1)

/-- A tree whose checks passed, its tokens put in canonical form (R357). -/
def treeEntered (p : Pkt) (t : Stream) (ns : List (Nat × Nat)) (s : State) : State :=
  match s.treeStart t with
  | none => s.refuse p stNoSpace
  | some s0 =>
    treePlaced p (ns.map (fun n => (n.1, (s.vocabOf t).prof.m2c.getD n.2 0))) s s0 (s0.stream? t.id.slot) s0.freeTree

/-- spec.tree without REPLY (R356 to R360). -/
def treeWork (p : Pkt) (s : State) : State :=
  match s.live? p.stream with
  | none => s.refuse p stStaleHandle
  | some t =>
    let ns := treeNodes p.payload
    if t.tree.isSome then s.refuse p stStateConflict
    else if ns.any (fun n => decide ((s.vocabOf t).prof.vocab ≤ n.2)) then s.refuse p stBadPacket
    else treeEntered p t ns s

/-- SPEC_TREE (R358). -/
def execSpecTree (dt ap pos : Nat) (s : State) : Res :=
  .next ((s.elapse dt).runPacket (fun p => isOp 0x0701 p && !bit p.opflags 0) ap pos treeWork)

/-! ### The reply (R366 to R371) -/

/-- The nodes from depth 1 down to a node, with fuel for the depth. -/
def pathTo (nodes : List TNode) : Nat → Nat → List (Nat × TNode)
  | 0, _ => []
  | _, 0 => []
  | fuel + 1, k + 1 =>
    match nodes[k]? with
    | none => []
    | some n => pathTo nodes fuel n.parent ++ [(k + 1, n)]

/-- How many of some tokens are committed (R314, R369): up to the first that ends generation; base is POSITION + run. -/
def State.commitCount (s : State) (t : Stream) (base : Nat) (toks : List Nat) : Nat × Bool :=
  let set := s.decSet t
  let a := decodeTokens (s.vocabOf t) set (s.seenStops t) t.dec t.healText toks
  let stop := if a.stopped then a.used else toks.length + 1
  let hit := (toks.zipIdx).find? (fun x => s.endsBy t x.1 (t.generated + x.2 + 1) (base + x.2 + 1))
  let last := match hit with | some x => x.2 + 1 | none => toks.length + 1
  let n := min stop last
  if n ≤ toks.length then (n, true) else (toks.length, false)

/-- Own pages beyond a context length enter ROLLBACK (R370). -/
def State.trimPages (slot : Nat) (s : State) : State :=
  match s.stream? slot with
  | none => s
  | some t =>
    let keep := s.pagesFor t.length - (s.prefixPages t).length
    let kept := t.kv.take keep
    ((s.rollback (t.kv.drop keep)).onStream slot (fun t => { t with kv := kept })).setChain .stream kept

/-- The commit of a reply (R369 to R371): the accepted path and BONUS, the tree resolve, and the tree's record freed. -/
def State.commitReply (slot : Nat) (s : State) : State :=
  match s.stream? slot with
  | none => s
  | some t =>
    match t.choice, t.tree with
    | some c, some tr =>
      let path := pathTo tr.nodes 17 c.node
      let base := t.length - tr.nodes.length
      let toks := path.map (·.2.token) ++ [c.token]
      let (n, ended) := s.commitCount t base toks
      let d := min n path.length
      let ps :=
        if n ≤ path.length then ((path[n - 1]?).map (·.2.parse)).getD t.parse
        else
          let up := (path.getLast?.map (·.2.parse)).getD t.parse
          -- the accepted fork is the stream's parse state, and the others are gone, before BONUS advances it (R369, R371)
          let s0 := (s.dropTree slot false).onStream slot (fun t => { t with parse := up })
          s0.rechunk false up (s.advanceBy t up (if c.node == 0 then t.healText else []) c.token (!c.outside))
      let moves := ((path.take d).zipIdx).map (fun x => (base + x.1.1 - 1, base + x.2))
      let waited := s.aon.time - c.arrived
      let r0 := (s.vocabOf t).prof.c2m.getD c.token 0 + n * 2 ^ 20 + c.node * 2 ^ 28
      let s1 := (s.dropTree slot false).onStream slot (fun t => { t with length := base + d, resolving := true })
      let s2 := ((s1.emit (.treeResolve t.lastStep slot moves)).trimPages slot).charge t.id.tenant (fun b => b.wGen * (n - 1))
      s2.tokenCommit slot c.pkt (toks.take n) ps ended (decide (n < toks.length)) r0 waited
    | _, _ => s

/-- The commit of a stream's held choice or reply. -/
def State.commitHeld (slot : Nat) (s : State) : State :=
  match s.stream? slot with
  | none => s
  | some t => match t.choice with
    | some c => if c.reply then s.commitReply slot else s.commitChoice slot
    | none => s

/-- spec.tree with REPLY (R365 to R368). -/
def replyWork (p : Pkt) (s : State) : State :=
  match s.live? p.stream with
  | none => s.refuse p stStaleHandle
  | some t =>
    match t.tree with
    | none => s.refuse p stStateConflict
    | some tr =>
      let v := s.vocabOf t
      let bonus := bits p.arg 39 20
      let node := bits p.arg 13 8
      if !tr.inStep || t.choosing then s.refuse p stStateConflict
      else if v.prof.vocab ≤ bonus || tr.nodes.length < node then s.refuse p stBadPacket
      else if t.voided then s.refuse p stVoided
      else
        let tok := v.prof.m2c.getD bonus 0
        let out := s.outside t node tok
        if out && !t.id.force then s.cmp p stDisallowed (flag t.replayed 1) none none none
        else
          let slot := t.id.slot
          let c : Choice := { pkt := p, token := tok, node := node, reply := true, outside := out, arrived := s.aon.time }
          let s1 := s.onStream slot (fun t => { t with choice := some c })
          if s1.passed t.lastStep then s1.grantOrWait State.commitHeld slot else s1

/-- SPEC_TREE_REPLY (R369). -/
def execSpecTreeReply (dt ap pos : Nat) (s : State) : Res :=
  .next ((s.elapse dt).runPacket (fun p => isOp 0x0701 p && bit p.opflags 0) ap pos replyWork)

/-- CHOICE_GRANT (R235): a choice that waits for credit is granted when it fits and its turn has come. -/
def execChoiceGrant (dt slot : Nat) (s : State) : Res :=
  let s1 := s.elapse dt
  .next (if s1.str.waitingChoices.contains slot then (s1.grantOrWait State.commitHeld slot).grantTrees else s1)

/-- TREE_RESOLVE_ACK (R370): the stream may be admitted again. -/
def execTreeResolveAck (dt slot : Nat) (s : State) : Res :=
  .next ((s.elapse dt).onStream slot (fun t => { t with resolving := false }))

end Sys2Proof.Machine
end

