-- ==== Sys2Proof/Machine/Pause.lean ====
section
/-! DEFINITION. Pausing and resuming (R334 to R339), expiry (R337), and the page events that serve them (R324). -/
namespace Sys2Proof.Machine
open Sys2Proof

/-- All ones: no expiry, no deadline (R306, R336). -/
def allOnes64 : Nat := 2 ^ 64 - 1

/-! ### When a pause or a migration takes effect (R335, R242, R214) -/

/-- Whether a pending pause or migration of a stream can take effect: no step of it in the fabric, in PROMPT one queued token
and no document open, no build and no refill in progress. -/
def State.pauseDue (s : State) (t : Stream) : Bool :=
  t.wait == .none && t.state != .closed && !s.inFabric t.handle &&
  (t.state != .prompt || (!t.enc.docOpen && t.queue.length == 1)) &&
  !s.str.builds.any (fun b => b.slot == t.id.slot && b.running) && !t.parse.refill

/-- str.pause (R334); areaOk tells that the slot of the pause area can be written. -/
def pauseWork (areaOk : Bool) (clash : Option Nat) (p : Pkt) (s0 : State) : State :=
  let s := s0.collide (slotOf p.stream) clash
  match s.live? p.stream with
  | none => s.refuse p stStaleHandle
  | some t =>
    let b := p.payload
    let mode := rd b 0 1
    let tier := mode == 2 || (mode == 0 && t.id.pmode == 1)
    let ttl := rd b 8 4
    let addr := rd b 16 8
    let len := rd b 24 8
    if !tier && (addr != 0 || len != 0) then s.refuse p stBadPacket
    else if t.pausePending.isSome then s.refuse p stStateConflict
    else if (tier && len < t.kv.length * 262144) || !areaOk then s.refuse p stNoSpace
    else s.onStream t.id.slot (fun t => { t with
      pausePending := some (some p, if tier then .tier ttl addr len else .summary ttl) })

/-- STR_PAUSE (R334). -/
def execStrPause (dt ap : Nat) (pkt : PausePkt) (s : State) : Res :=
  .next ((s.elapse dt).runPacket (isOp 0x0304) ap pkt.pos (pauseWork pkt.areaOk pkt.clash))

/-- The pages of a stream go into TRANSIT (R335, R346). -/
def State.transit (slot : Nat) (s : State) : State :=
  match s.stream? slot with
  | some t => s.setChain .transit t.kv
  | none => s

/-- A pending pause is carried out: a summary entry is asked for, or the pages are marked TRANSIT and written to TIER_ADDR in
chain order; a held tree is dropped (R335, R372). -/
def State.takePause (slot : Nat) (s : State) : State :=
  match s.stream? slot with
  | none => s
  | some t =>
    match t.pausePending with
    | some (_, .summary _) =>
      ((s.dropTree slot true).onStream slot (fun t => { t with wait := .summaryStep, lintelSum := none })).onSch
        (fun g => { g with sumWanted := g.sumWanted ++ [slot] })
    | some (_, .tier _ addr _) =>
      (((s.dropTree slot true).transit slot).onStream slot (fun t => { t with wait := .tierWrites })).emit (.tierWrite slot addr t.kv)
    | _ => s

/-- PAUSE_TAKES_EFFECT (R335). -/
def execPauseTakesEffect (dt slot : Nat) (s : State) : Res :=
  let s1 := s.elapse dt
  .next (match s1.stream? slot with
    | some t => if s1.pauseDue t then s1.takePause slot else s1
    | none => s1)

/-! ### What every pause does (R335, R336) -/

/-- The stream is PAUSED under a pause record: its stack is spilled whole, its bias blocks are freed, its shutter is dropped, its window,
heal text and input queue go to the record and are freed, and its latency intervals end (R213, R228, R256, R335). -/
def State.setPaused (slot : Nat) (r : PauseRec) (s : State) : State :=
  State.stow slot <| (s.dropBuilds slot).onStream slot (fun t => { t.giveText with
    state := .paused, pause := some (t.recordText (s.recordShape t r)), pausePending := none, wait := .none, lintelSum := none,
    parse := { t.parse.spillAll with refill := false }, shutter := { kind := .pending, guid := t.parse.guid },
    id := { t.id with biasHeld := false }, lat := t.lat.endAll s.aon.time })

/-- The cmp record of a pause (R335). -/
def State.pauseDone (p : Option Pkt) (slot moved expiry : Nat) (s : State) : State :=
  match p with
  | none => s
  | some p => s.done p 0 (some moved) (some expiry) (some (((s.stream? slot).map (·.length)).getD 0))

/-- A summary pause completes when its summary is there and the step that made it has passed the fence (R335, R374): the own
pages are freed and the attachment is released. -/
def State.finishSummary (slot : Nat) (s : State) : State :=
  match s.stream? slot with
  | none => s
  | some t =>
    match t.pausePending, t.lintelSum with
    | some (p, .summary ttl), some (size, h, loc) =>
      if t.wait != .summaryEvent || s.inFabric t.handle then s
      else
        let expiry := s.aon.time + ttl * 1000000000
        let r : PauseRec := { pmode := 0, ret := t.state, sumSize := size, sumHandle := h, sumLoc := loc, expiry := expiry,
                              tierAddr := 0, tierPages := 0 }
        let s1 := ((s.setPaused slot r).freePages t.kv).onStream slot (fun t => { t with kv := [], pfx := none })
        let s2 := match t.pfx with | some n => s1.detach n | none => s1
        s2.pauseDone p slot size expiry
    | _, _ => s

/-- A summary taken at a raise is kept no longer: it is released (R354). -/
def State.dropLintelSum (slot : Nat) (s : State) : State :=
  match s.stream? slot with
  | none => s
  | some t =>
    match t.lintelSum with
    | none => s
    | some (_, h, _) => (s.onStream slot (fun t => { t with lintelSum := none })).releaseSummary h

/-- PAGE_SUMMARY (R324): the summary of a stream whose summary entry was issued; one that nothing waits for any more is released. -/
def execPageSummary (dt slot handle size loc : Nat) (s : State) : Res :=
  let s1 := s.elapse dt
  let who := (s1.stream? slot).map Stream.handle
  let asked := s1.sch.steps.any (fun x => x.desc.entries.any (fun e => e.slot == slot && e.kind == 3 && who == some e.handle))
  let s2 := s1.onSch (fun g => { g with steps := g.steps.map (fun x =>
    if x.desc.entries.any (fun e => e.slot == slot && e.kind == 3) && !x.reported.contains slot then
      { x with reported := x.reported ++ [slot], lastResult := some s1.aon.time,
               verdict := if x.verdict == .replaying then .waiting else x.verdict }
    else x) })
  .next (match s2.stream? slot with
    | some t =>
      if t.state != .closed && (t.wait == .summaryEvent || asked) then
        let s3 := s2.onStream slot (fun t => { t with lintelSum := some (size, handle, loc) })
        if t.wait == .summaryEvent then s3.finishSummary slot
        else if s3.sch.raised || (t.lpause && t.state != .paused) then s3
        else s3.dropLintelSum slot
      else if asked then s2.releaseSummary handle
      else s2
    | none => s2)

/-- KV_TIER_PAUSE_COMPLETE (R335): the pages are freed, and the stream is PAUSED. -/
def execKvTierPauseComplete (dt slot : Nat) (s : State) : Res :=
  let s1 := s.elapse dt
  .next (match s1.stream? slot with
    | none => s1
    | some t =>
      match t.pausePending with
      | some (p, .tier ttl addr _) =>
        if t.wait != .tierWrites then s1
        else
          let expiry := s1.aon.time + ttl * 1000000000
          let r : PauseRec := { pmode := 1, ret := t.state, sumSize := 0, sumHandle := 0, sumLoc := 0, expiry := expiry,
                                tierAddr := addr, tierPages := t.kv.length }
          let s2 := ((s1.setPaused slot r).freePages t.kv).onStream slot (fun t => { t with kv := [] })
          s2.pauseDone p slot (t.kv.length * 262144) expiry
      | _ => s1)

/-- PAUSE_EXPIRED (R337): the event record, then CLOSED. -/
def execPauseExpired (dt slot : Nat) (s : State) : Res :=
  let s1 := s.elapse dt
  .next (match s1.stream? slot with
    | none => s1
    | some t =>
      match t.state == .paused, t.pause with
      | true, some r =>
        if r.expiry != allOnes64 && r.expiry ≤ s1.aon.time then
          (s1.eventFull evPauseExpired t.handle 0xFFFF t.handle r.pmode 0).closeStream slot none
        else s1
      | _, _ => s1)

/-! ### str.resume (R338, R339) -/

/-- Whether a stream's version agrees with the value recorded for its profile (R100, R338, R354). -/
def State.canonAgrees (s : State) (t : Stream) : Bool :=
  match s.sch.canon.getD t.id.profile none with
  | none => true
  | some c => (match s.versionOf t with | some v => v.prof.canonCrc == c | none => true)

/-- The pause record's clock stops: a resume has executed (R337). -/
def Stream.stopClock (t : Stream) : Stream := { t with pause := t.pause.map (fun r => { r with expiry := allOnes64 }) }

/-- The stream returns to RETURN, its summary to be carried by its first generation step, and a background build is queued (R228,
R339). -/
def State.returnStream (slot : Nat) (s : State) : State :=
  match s.stream? slot with
  | none => s
  | some t =>
    match t.pause with
    | none => s
    | some r =>
      let s1 := State.stow slot <| s.onStream slot (fun t => { t.takeText with
        state := r.ret, pause := none, lpause := false, wait := .none, waitPkt := none,
        sumRelease := if r.pmode == 0 then r.sumHandle else t.sumRelease,
        parse := { t.parse with refill := t.parse.spilled != 0 }, id := { t.id with biasHeld := true } })
      let s2 := if r.ret == .ready then s1.enterReady slot else s1
      (s2.renewShutter slot).leavePrompt slot

/-- The resume of a paused stream completes (R328, R339). -/
def State.finishResume (slot : Nat) (p : Option Pkt) (s : State) : State :=
  let s1 := s.returnStream slot
  let (s2, held) := s1.heldBit slot
  match p with
  | some p => (s2.done p held none none none).pauseDeferred slot
  | none => s2.pauseDeferred slot

/-- A resume on this block: bias blocks, text staging and, in KV-tier mode, pages are taken, none when they do not fit (R339). A stream that
was received to be resumed here has its pages already. -/
def State.resumeHere (slot : Nat) (p : Option Pkt) (s : State) : Option State :=
  match s.stream? slot with
  | none => none
  | some t =>
    match t.pause with
    | none => none
    | some r =>
      if !s.resumeFits t then none
      else if r.pmode != 1 then some ((s.onStream slot Stream.stopClock).finishResume slot p)
      else
        match (if t.kv.length == r.tierPages then some (t.kv, s) else s.takePages r.tierPages) with
        | none => none
        | some (pages, s1) =>
          let s2 := (State.stow slot <| s1.onStream slot (fun t => { t.stopClock.takeText with
            kv := pages, wait := .restored, waitPkt := p, id := { t.id with biasHeld := true } })).setChain .transit pages
          some (s2.emit (.tierRead slot r.tierAddr pages))

/-- PAGE_RESTORED (R324, R339). -/
def execPageRestored (dt slot : Nat) (s : State) : Res :=
  let s1 := s.elapse dt
  .next (match s1.stream? slot with
    | some t => if t.wait == .restored then (s1.setChain .stream t.kv).finishResume slot t.waitPkt else s1
    | none => s1)

/-- str.resume (R338, R339): with DEST_VALID the stream migrates and is resumed there. -/
def resumeWork (p : Pkt) (s : State) : State :=
  match s.live? p.stream with
  | none => s.refuse p stStaleHandle
  | some t =>
    let slot := t.id.slot
    let away := bit p.arg 6
    if away && !s.validDest (bits p.arg 5 0) then s.refuse p stBadPacket
    else if t.pausePending.isSome || t.wait != .none then s.refuse p stStateConflict
    else if (t.id.pin && t.id.modelGen != s.sch.modelGen) || !s.canonAgrees t || (!away && s.cacheOnly) then
      s.refuse p stStateConflict
    else if away then
      s.onStream slot (fun t => { t.stopClock with pausePending := some (some p, .migrate (bits p.arg 5 0)) })
    else (s.resumeHere slot (some p)).getD (s.refuse p stNoSpace)

/-- STR_RESUME (R338). -/
def execStrResume (dt ap pos : Nat) (s : State) : Res := .next ((s.elapse dt).runPacket (isOp 0x0305) ap pos resumeWork)

end Sys2Proof.Machine
end

