-- ==== Sys2Proof/Machine/Migrate.lean ====
section
/-! DEFINITION. Migration (R345 to R351), the early hand-off (R376 to R379), and what a departure ends (R379, R449). -/
namespace Sys2Proof.Machine
open Sys2Proof

/-! ### Seals (R373) -/

/-- The seal of a step of this block. -/
def State.sealOf (s : State) (step : Nat) : Nat := step % 2 ^ 58 + s.groupNum * 2 ^ 58

/-! ### str.migrate (R345) -/

/-- str.migrate (R345). -/
def migrateWork (clash : Option Nat) (p : Pkt) (s0 : State) : State :=
  let s := s0.collide (slotOf p.stream) clash
  let d := bits p.arg 5 0
  match s.live? p.stream with
  | none => s.refuse p stStaleHandle
  | some t =>
    if !s.validDest d then s.refuse p stBadPacket
    else if t.pausePending.isSome || t.wait != .none then s.refuse p stStateConflict
    else s.onStream t.id.slot (fun t => { t with pausePending := some (some p, .migrate d) })

/-- STR_MIGRATE (R345). -/
def execStrMigrate (dt ap : Nat) (pkt : StreamPkt) (s : State) : Res :=
  .next ((s.elapse dt).runPacket (isOp 0x0307) ap pkt.pos (migrateWork pkt.clash))

/-! ### The package (R346) -/

/-- The code of a grammar state (R210). -/
def gstateCode : GState → Nat
  | .none => 0
  | .active => 1
  | .complete => 2
  | .broken => 3

/-- The grammar state that a code names. -/
def gstateOfCode : Nat → GState
  | 1 => .active
  | 2 => .complete
  | 3 => .broken
  | _ => GState.none

/-- A stream that is handed on when its prompt is complete travels as it enters READY (R330, R345). -/
def State.asReady (s : State) (t : Stream) : Stream :=
  { t with state := .ready, lat := { t.lat with
    readyTime := s.aon.time, deadline := deadlineOf s.aon.time t.lat.ttft, lastCommit := none, stalledSince := 0 } }

/-- The migration package of a stream (R346); resume tells that a str.resume sent it. The text of a paused stream is that of its pause
record. -/
def State.packageOf (s : State) (t0 : Stream) (isSealed resume : Bool) : PkgBody :=
  let t := t0.takeText
  let v := s.vocabOf t
  let l := t.lat.endAll s.aon.time
  let r : PauseRec := t.pause.getD { pmode := 0, ret := t.state, sumSize := 0, sumHandle := 0, sumLoc := 0, expiry := 0,
                                     tierAddr := 0, tierPages := 0 }
  { oldHandle := t.handle, isSealed := isSealed, resume := resume, abandon := false, paused := t.state == .paused, ap := t.id.ap,
    modelGen := t.id.modelGen, canonCrc := v.prof.canonCrc,
    grammarCrc := if t.parse.gstate == .none then 0 else (match s.gram? t.parse.guid with | some g => g.dirCrc | none => 0),
    sealId := s.sealOf t.lastStep, tenant := t.id.tenant, priority := t.id.priority, policy := t.id.policy,
    profile := t.id.profile, mode := flag t.id.force 0 + flag t.id.gang 1 + flag t.id.pin 2, state := stateCode t.state,
    ring := t.id.ring, epoch := t.epoch, specialOut := t.id.specialOut, outInvalid := t.id.outInvalid, pmode := t.id.pmode,
    promptDone := t.enc.promptDone, gid := t.parse.gid, gstate := gstateCode t.parse.gstate, bcause := t.parse.bcause,
    lex := t.parse.lex, stack := t.parse.stack, length := t.length, prompt := t.enc.prompt, generated := t.generated,
    maxGen := t.id.maxGen, readyTime := l.readyTime, deadline := l.deadline.getD allOnes64, ttft := l.ttft, tbt := l.tbt,
    lateCount := l.lateCount, stallLintel := l.stallLintel / 1000, stallHold := l.stallHold / 1000,
    stallRing := l.stallRing / 1000, tbtMax := l.tbtMax, carry := t.dec.carry, hold := t.dec.hold, window := t.dec.window,
    heal := t.enc.heal.map (·.1), stops := (s.stopsOf t).map (fun x => (x.mode, x.bytes)), rt := t.id.rt, topP := t.id.topP,
    minP := t.id.minP, topK := t.id.topK, bias := t.id.bias.map (fun e => (v.prof.c2m.getD e.1 0, e.2)), queue := t.queue,
    ends := t.id.ends, openTime := t.id.openTime, expiry := r.expiry, sumHandle := r.sumHandle, sumSize := r.sumSize,
    sumLoc := r.sumLoc, recPmode := r.pmode, returnState := stateCode r.ret, tierAddr := r.tierAddr, tierPages := r.tierPages,
    lastStep := t.lastStep, docSeen := t.enc.docSeen, lastCommit := l.lastCommit, stalledSince := l.stalledSince,
    sumRelease := t.sumRelease }

/-- Whether a stream is paused in KV-tier mode: a package of it ships nothing else (R346). -/
def Stream.tierPaused (t : Stream) : Bool :=
  t.state == .paused && (match t.pause with | some r => r.pmode == 1 | none => false)

/-- The packet that a pending migration answers. -/
def Stream.migPkt (t : Stream) : Option Pkt := match t.pausePending with | some (p, _) => p | none => none

/-- A package goes out, and the fabric ships the KV or the summary beside it (R346). -/
def State.sendPackage (slot dest : Nat) (isSealed resume : Bool) (wait : Wait) (s : State) : State :=
  match s.stream? slot with
  | none => s
  | some t0 =>
    let s1 := s.dropTree slot true
    let t := if t0.state == .prompt && t0.migPkt.isNone then s.asReady t0 else t0
    let body := s.packageOf { t with epoch := ((s1.stream? slot).map (·.epoch)).getD t.epoch } isSealed resume
    let s2 := (s1.send dest (.package body)).transit slot
    (if t.tierPaused then s2 else s2.emit (.shipKv slot dest)).onStream slot (fun t =>
      { t with wait := wait, migDest := some dest })

/-- MIGRATION_SEND (R346): a pending migration of a stream that can take effect. -/
def execMigrationSend (dt slot : Nat) (s : State) : Res :=
  let s1 := s.elapse dt
  .next (match s1.stream? slot with
    | none => s1
    | some t =>
      match t.pausePending with
      | some (p, .migrate d) =>
        let resume := match p with | some q => q.opcode == 0x0305 | none => false
        if s1.pauseDue t then s1.sendPackage slot d false resume .migAnswer else s1
      | _ => s1)

/-! ### The answer at the source (R349) -/

/-- The destination accepted: the stream is freed, its slot forwards, and the cmp record names destination and handle (R305,
R349). -/
def State.migAccepted (slot newHandle : Nat) (s : State) : State :=
  match s.stream? slot with
  | none => s
  | some t =>
    let d := t.migDest.getD 0
    let s1 := (s.releaseStream slot).onStr (fun g => { g with
      forwards := g.forwards ++ [{ slot := slot, gen := t.id.gen, dest := d, newHandle := newHandle }] })
    match t.migPkt with
    | some p => s1.done p 0 (some (d + newHandle * 2 ^ 32)) none none
    | none => s1

/-- The destination refused, or is gone: the stream stays in its state (R349). A destination that has had a sealed package is still sent its
notice at the verdict (R377). -/
def State.migRefused (slot status : Nat) (s : State) : State :=
  match s.stream? slot with
  | none => s
  | some t =>
    let s1 := (s.onStream slot (fun t => { t with
      pausePending := none, wait := .none, migDest := if t.wait == .sealedKv then t.migDest else none })).setChain .stream t.kv
    match t.migPkt with
    | some p => (s1.refuse p status).pauseDeferred slot
    | none => s1.pauseDeferred slot

/-- The answer to a stream that this block re-creates as the master of a rescue: old and new identity join the rescue list, which
holds up to 262,144 entries for a lost block (R450). -/
def State.rescueAnswer (slot : Nat) (answer : MigAnswer) (s : State) : State :=
  match s.cas.rescues.find? (fun r => slotOf r.2.1 == slot) with
  | none => s
  | some r =>
    s.onCas (fun c => { c with
      rescues := c.rescues.erase r
      rescueList := match answer with
        | .accepted h =>
          if (c.rescueList.filter (fun x => x.1.1 == r.1)).length < 262144 then c.rescueList ++ [((r.1, r.2.1), (r.2.2, h))]
          else c.rescueList
        | .refused _ => c.rescueList })

/-- MIGRATION_ANSWER (R349): to a stream of this block that waits for it, else to a rescue. -/
def execMigrationAnswer (dt slot : Nat) (answer : MigAnswer) (s : State) : Res :=
  let s1 := s.elapse dt
  let waits := match s1.stream? slot with
    | some t => t.state != .opening && (t.wait == .migAnswer || t.wait == .sealedKv)
    | none => false
  .next (if !waits then s1.rescueAnswer slot answer
    else
      match answer with
      | .accepted h => if s1.str.tab.any (fun t => t.id.slot == slot && t.wait == .migAnswer) then s1.migAccepted slot h else s1
      | .refused st => s1.migRefused slot st)

/-! ### The early hand-off (R376, R377) -/

/-- A report that an entry's work is written is a result of its step (R374, R375): the first one of a replay opens the step for its
verdict. -/
def Step.report (now : Nat) (x : Step) : Step :=
  { x with lastResult := some now, verdict := if x.verdict == .replaying then .waiting else x.verdict }

/-- The report of a summary release entry (R374). -/
def Step.reportRelease (now h : Nat) (x : Step) : Step :=
  if x.desc.entries.any (fun e => e.kind == 4 && e.summary == h) && !x.released.contains h then
    { x.report now with released := x.released ++ [h] }
  else x

/-- CHUNK_KV_WRITTEN (R374, R376): the report of a prompt entry, or with release of the release entry of a summary; the last chunk of a
stream that is to be handed on sends its sealed package at once. -/
def execChunkKvWritten (dt step : Nat) (what : KvReport) (s : State) : Res :=
  let s1 := s.elapse dt
  .next (match s1.step? step, what.release with
    | none, _ => s1
    | some _, some h => s1.onStep step (Step.reportRelease s1.aon.time h)
    | some x, none =>
      match x.desc.entries.find? (fun e => e.slot == what.slot && e.kind == 1), s1.stream? what.slot with
      | some e, some t =>
        let s2 := s1.onStep step (fun x =>
          { x.report s1.aon.time with reported := x.reported ++ (if x.reported.contains what.slot then [] else [what.slot]) })
        let last := t.state == .prompt && s2.handsOff t && x.verdict != .passed && t.handle == e.handle &&
          !t.enc.docOpen && t.enc.promptDone && t.queue.length == 1 && t.lastStep == step && t.pausePending.isNone &&
          t.wait == .none && t.migDest.isNone && !t.cancelPending
        if last then
          (s2.onStream what.slot (fun t => { t with pausePending := some (none, .migrate t.id.dest) })).sendPackage what.slot t.id.dest true
            false .sealedKv
        else s2
      | _, _ => s1)

/-- The verdict of a step reaches the streams that were handed on early (R376, R377, R379): a notice to each destination; after
PASS the migration takes effect, after FAIL it is made again from the replay. -/
def State.sealVerdict (step : Nat) (pass : Bool) (s : State) : State :=
  (s.str.tab.filter (fun t => t.lastStep == step && t.migDest.isSome && t.wait != .migAnswer)).foldl (fun s t =>
    let slot := t.id.slot
    let d := t.migDest.getD 0
    if t.state == .closed then
      (s.onStream slot (fun t => { t with migDest := none })).send d (.sealNotice (s.sealOf step) 2)
    else if t.wait != .sealedKv then
      -- the destination has refused the package: it is told all the same
      (s.onStream slot (fun t => { t with migDest := none })).send d (.sealNotice (s.sealOf step) (if pass then 1 else 2))
    else if pass then (s.onStream slot (fun t => { t with wait := .migAnswer })).send d (.sealNotice (s.sealOf step) 1)
    else
      ((s.onStream slot (fun t => { t with pausePending := none, wait := .none, migDest := none })).setChain .stream t.kv).send d
        (.sealNotice (s.sealOf step) 2)) s

/-! ### The destination (R347, R348, R378) -/

/-- Whether the personality serves a stream's state (R19, R347). -/
def State.servesState (s : State) : SState → Bool
  | .prompt => s.prefill
  | .ready => s.generation
  | .draining => s.prefill || s.generation
  | _ => false

/-- Whether the personality serves the stream of a package. -/
def State.servesBody (s : State) (b : PkgBody) : Bool :=
  if b.paused then bit s.img.frame.personality 2 || s.servesState (stateOfCode b.returnState)
  else s.servesState (stateOfCode b.state)

/-- The grammar of a package: none in the inner option for a stream without one (R347). One of the committed set goes before one that is
resident for streams only. -/
def State.bodyGram (s : State) (b : PkgBody) : Option (Option Gram) :=
  if b.gstate == 0 then some none
  else
    let ok (g : Gram) : Bool := !g.faulted && g.body.profile == b.profile && g.dirCrc == b.grammarCrc
    ((s.img.grams.find? (fun g => g.inSet && ok g)).or (s.img.grams.find? ok)).map some

/-- The profile version of a package: one with its profile number and CANON_CRC (R347), the committed one first. -/
def State.bodyVersion (s : State) (b : PkgBody) : Option Version :=
  let ok (v : Version) : Bool := !v.faulted && v.number == b.profile && v.prof.canonCrc == b.canonCrc
  (s.img.versions.find? (fun v => v.inSet && ok v)).or (s.img.versions.find? ok)

/-- Whether a package's pause record is in KV-tier mode; and whether in summary mode (R336, R346). -/
def bodyTier (b : PkgBody) : Bool := b.paused && b.recPmode == 1
def bodySummary (b : PkgBody) : Bool := b.paused && b.recPmode == 0

/-- Whether a package's stream takes its text and bias list up here: it is not paused, or it is to be resumed (R256, R338, R347). -/
def bodyRuns (b : PkgBody) : Bool := !b.paused || b.resume

/-- Pages that a package's KV takes here: every position, prefix pages included (R346); of a KV-tier pause those that its resume reads back
(R339). -/
def State.bodyPages (s : State) (b : PkgBody) : Nat :=
  if bodyTier b then (if b.resume then b.tierPages else 0) else if bodySummary b then 0 else s.pagesFor b.length

/-- Whether text staging and the bias area have room for a package (R347). -/
def State.bodyFits (s : State) (b : PkgBody) : Bool :=
  s.biasFits b.bias && s.unitsFree (textUnits b.queue.length (!b.stops.isEmpty) b.heal.isSome)

/-- Heal text as the encoder keeps it, with a mark where a character begins. -/
def healAsText (b : Bytes) : Text := b.map (fun x => (x, x.toNat / 64 != 2))

/-- The stream that a package becomes, in OPENING (R306, R346, R348). -/
def State.bodyStream (s : State) (b : PkgBody) (slot : Nat) (v : Version) (g : Option Gram) (stops : List (Nat × Nat))
    (pages : List Nat) : Stream :=
  let id : Ident :=
    { slot := slot, gen := s.genAt slot, tenant := b.tenant, priority := b.priority, policy := b.policy, profile := b.profile,
      vuid := v.uid, ap := b.ap, ring := b.ring, modelGen := b.modelGen, pin := bit b.mode 2, gang := bit b.mode 1,
      force := bit b.mode 0, specialOut := b.specialOut, outInvalid := b.outInvalid, pmode := b.pmode, maxGen := b.maxGen,
      ends := b.ends, rt := b.rt, topP := b.topP, minP := b.minP, topK := b.topK, bias := canonBias v b.bias,
      biasHeld := bodyRuns b, stops := stops, openTime := b.openTime }
  let ps : Parse := { gid := (g.map (·.id)).getD b.gid, guid := (g.map (·.uid)).getD 0, gstate := gstateOfCode b.gstate,
                      bcause := b.bcause, lex := b.lex, stack := b.stack, spilled := b.stack.length }
  let heal := b.heal.map (fun h => (h, itemTokens (v.vocab.wordItems (healAsText h))))
  let enc : Enc := { docSeen := b.docSeen, promptDone := b.promptDone, prompt := b.prompt, heal := heal }
  let lat : Lat := { readyTime := b.readyTime, deadline := if b.deadline == allOnes64 then none else some b.deadline,
                     ttft := b.ttft, tbt := b.tbt, lateCount := b.lateCount, stallLintel := b.stallLintel * 1000,
                     stallHold := b.stallHold * 1000, stallRing := b.stallRing * 1000, tbtMax := b.tbtMax,
                     lastCommit := b.lastCommit, stalledSince := b.stalledSince, lateSeen := b.lateCount != 0 }
  let r : PauseRec := { pmode := b.recPmode, ret := stateOfCode b.returnState,
                        sumSize := b.sumSize, sumHandle := b.sumHandle, sumLoc := b.sumLoc, expiry := b.expiry,
                        tierAddr := b.tierAddr, tierPages := b.tierPages }
  let t0 : Stream :=
    { id := id, state := .opening, parse := ps, kv := pages, length := b.length, generated := b.generated, epoch := b.epoch,
      enc := enc, dec := { carry := b.carry, hold := b.hold, window := b.window }, lat := lat,
      shutter := { kind := .pending, guid := ps.guid }, lastStep := b.lastStep, sumRelease := b.sumRelease, wait := .sealedKv }
  let t := t0.enqueue s.aon.time b.queue
  if !b.paused then t
  else
    let r1 := t.recordText { r with rt := b.rt, topP := b.topP, minP := b.minP, topK := b.topK, bias := b.bias }
    if b.resume then { t with pause := some r1 } else { t.giveText with pause := some r1 }

/-- R347 for a package in an OPENING entry whose slot and pages are taken: version, grammar, personality, stop strings and bias
list; the status of a refusal, or the state with the whole entry. -/
def State.fillEntry (b : PkgBody) (slot : Nat) (pages : List Nat) (s : State) : Nat ⊕ State :=
  match s.bodyVersion b, s.bodyGram b with
  | some v, some g =>
    if !s.servesBody b then .inl stStateConflict
    else if !s.bodyFits b then .inl stNoSpace
    else
      match State.takeStops (b.stops.map (fun x => { mode := x.1, bytes := x.2 : StopEnt })) s with
      | none => .inl stNoSpace
      | some (stops, s1) =>
        let t := s1.bodyStream b slot v g stops pages
        let s2 := (s1.onStr (fun x => { x with tab := x.tab.filter (fun u => u.id.slot != slot) ++ [t] })).stow slot
        .inr (if b.paused || b.gstate == 0 then s2 else s2.settleNew slot)
  | _, _ => .inl stNotResident

/-- The answer to a package (R349). -/
def State.answerPackage (p : Sealed) (a : MigAnswer) (s : State) : State := s.send p.source (.migAnswer p.body.oldHandle a)

/-- The record of a package in an OPENING entry goes. -/
def State.dropHeld (p : Sealed) (s : State) : State :=
  s.onCas (fun c => { c with held := c.held.filter (fun x => x.slot != p.slot) })

/-- An OPENING entry goes without becoming a stream: its slot is FREE without a generation increment, its pages are FREE at the next
step boundary (R378). -/
def State.discardEntry (p : Sealed) (s : State) : State :=
  let stops := ((s.stream? p.slot).map (·.id.stops)).getD []
  let s1 := stops.foldl (fun s x => s.dropStop x.1) s
  ((s1.dropHeld p).onStr (fun g => { g with tab := g.tab.filter (fun t => t.id.slot != p.slot),
                                            freeTail := g.freeTail ++ [p.slot] })).rollback p.pages

/-- Whether a package's entry still stands: a str.cancel may have closed it. -/
def State.heldStands (s : State) (p : Sealed) : Bool :=
  match s.stream? p.slot with
  | some t => t.state == .opening && t.wait == .sealedKv
  | none => false

/-- A package is discarded (R351, R378, R379); one whose entry a str.cancel has closed leaves its slot and pages to the stream's release. -/
def State.voidHeld (p : Sealed) (s : State) : State := if s.heldStands p then s.discardEntry p else s.dropHeld p

/-- The entry is whole and its KV is there (R347, R348): the stream takes its state, its shutter is rebuilt here, and the source
is told. -/
def State.takeBody (p : Sealed) (s : State) : State :=
  let b := p.body
  let slot := p.slot
  let st := stateOfCode b.state
  let s1 := ((s.dropHeld p).setChain .stream p.pages).onStream slot (fun t => { t with state := st, wait := .none })
  let s2 := if st == .paused then s1 else s1.renewShutter slot
  let s3 := if st == .ready then s2.enterReady slot else s2
  match s3.stream? slot with
  | none => s3
  | some t =>
    let s4 := ((s3.answerPackage p (.accepted t.handle)).leavePrompt slot).pauseDeferred slot
    -- a block with the cache personality alone holds streams in PAUSED only (R18)
    if b.resume && st == .paused && !s4.cacheOnly then (s4.resumeHere slot none).getD s4 else s4

/-- A package that no notice holds and whose KV has come becomes a stream. -/
def State.settleHeld (p : Sealed) (s : State) : State :=
  if !s.heldStands p then (s.dropHeld p).answerPackage p (.refused stCancelled)
  else if p.isHeld || !(p.arrived || bodyTier p.body) then s
  else s.takeBody p

/-- A migration that its source abandons (R351): the package that has not been accepted is discarded. -/
def State.abandonHeld (source oldHandle : Nat) (s : State) : State :=
  (s.cas.held.filter (fun p => p.source == source && p.body.oldHandle == oldHandle)).foldl (fun s p => s.voidHeld p) s

/-- PACKAGE (R347, R378): slot and pages are taken; a sealed package waits for its notice, any other is judged at once. -/
def State.receivePackage (source : Nat) (b : PkgBody) (s : State) : State :=
  let fail (st : Nat) : State := s.send source (.migAnswer b.oldHandle (.refused st))
  match s.takeSlot with
  | none => fail stNoSpace
  | some (slot, s1) =>
    match s1.takePages (s1.bodyPages b) with
    | none => fail stNoSpace
    | some (pages, s2) =>
      let s3 := s2.setChain .transit pages
      let p : Sealed := { source := source, slot := slot, body := b, pages := pages, isHeld := b.isSealed, arrived := false }
      let record (s : State) : State := s.onCas (fun c => { c with held := c.held ++ [p] })
      if b.isSealed then
        let t : Stream := { id := { slot := slot, gen := s3.genAt slot }, state := .opening, kv := pages, wait := .sealedKv }
        record (s3.onStr (fun x => { x with tab := x.tab ++ [t] }))
      else
        match s3.fillEntry b slot pages with
        | .inl st => fail st
        | .inr s4 => (record s4).settleHeld p

/-- PACKAGE (R346), or the source's word that it abandons one (R351). -/
def execPackage (dt : Nat) (hdr : MsgHdr) (body : PkgBody) (s : State) : Res :=
  .next ((s.elapse dt).hear hdr false (fun s =>
    if body.abandon then s.abandonHeld hdr.source body.oldHandle else s.receivePackage hdr.source body))

/-- PAGE_MOVED (R324): the KV of a package has arrived. -/
def execPageMoved (dt slot : Nat) (s : State) : Res :=
  let s1 := s.elapse dt
  .next (match s1.cas.held.find? (fun p => p.slot == slot && !p.arrived) with
    | none => s1
    | some p =>
      let p' := { p with arrived := true }
      (s1.onCas (fun c => { c with held := c.held.map (fun x => if x.slot == slot then p' else x) })).settleHeld p')

/-- A CLEAR notice for a package (R378): R347 is applied. -/
def State.clearHeld (p : Sealed) (s : State) : State :=
  if !s.heldStands p then s.settleHeld p
  else
    match s.fillEntry p.body p.slot p.pages with
    | .inl st => (s.discardEntry p).answerPackage p (.refused st)
    | .inr s1 =>
      let p' := { p with isHeld := false }
      (s1.onCas (fun c => { c with held := c.held.map (fun x => if x.slot == p.slot then p' else x) })).settleHeld p'

/-- SEAL_NOTICE (R377, R378). -/
def execSealNotice (dt : Nat) (hdr : MsgHdr) (sealId kind : Nat) (s : State) : Res :=
  .next ((s.elapse dt).hear hdr false (fun s =>
    (s.cas.held.filter (fun p => p.isHeld && p.source == hdr.source && p.body.sealId == sealId)).foldl (fun s p =>
      if kind == 1 then s.clearHeld p else if kind == 2 then s.voidHeld p else s) s))

/-! ### Departures (R349, R379, R447, R449) -/

/-- Sealed packages from a member are discarded as a VOID notice would discard them (R379). -/
def State.discardFrom (member : Nat) (s : State) : State :=
  (s.cas.held.filter (fun p => p.isHeld && p.source == member)).foldl (fun s p => s.voidHeld p) s

/-- A member is gone (R449): sealed packages from it go, migrations to it that it has not answered end with NOT_RESIDENT (R349),
copies from it fail (R447), copies to it end, and it is left out of lookups. -/
def State.memberGone (member : Nat) (s : State) : State :=
  let s1 := s.discardFrom member
  let s2 := (s1.str.tab.filter (fun t => t.migDest == some member && (t.wait == .migAnswer || t.wait == .sealedKv))).foldl
    (fun s t => s.migRefused t.id.slot stNotResident) s1
  let s3 := (s2.cas.copies.filter (fun c => c.2.2.1 == member)).foldl (fun s c =>
    (s.abandonCopy c.2.1 stNotResident).closeStream c.2.1 none) s2
  let s4 := (s3.cas.serving.filter (fun c => c.1 == member)).foldl (fun s c => s.detach c.2)
    (s3.onCas (fun c => { c with serving := c.serving.filter (fun x => x.1 != member) }))
  let asked := s4.cas.chains.map (fun c => c.request)
  asked.foldl (fun s r => s.settleChain r) (s4.onCas (fun c => { c with chains := c.chains.map (fun x =>
    { x with asked := bitMap ((bitList 64 x.asked).filter (· != member)) }) }))

end Sys2Proof.Machine
end

