-- ==== Sys2Proof/Machine/Lintel.lean ====
section
/-! DEFINITION. The lintel (R352 to R354): raising it, closing admission at a boundary, and lowering it. -/
namespace Sys2Proof.Machine
open Sys2Proof

/-! ### lintel.raise (R352) -/

/-- lintel.raise (R352): it counts as raised from now on, and admission closes at the next step boundary. -/
def raiseWork (p : Pkt) (s : State) : State :=
  if s.sch.raised then s.refuse p stStateConflict
  else s.onSch (fun g => { g with raised := true, closing := some p, closingMask := bits p.arg 15 0 })

/-- LINTEL_RAISE (R352). -/
def execLintelRaise (dt ap pos : Nat) (s : State) : Res := .next ((s.elapse dt).runPacket (isOp 0x0A01) ap pos raiseWork)

/-- Whether a raise asks for a summary of a stream: it is not PAUSED, and it is pinned or its profile is marked (R352). -/
def wantsSummary (mask : Nat) (t : Stream) : Bool := t.state != .paused && (t.id.pin || mask.testBit t.id.profile)

/-! ### lintel.lower (R353, R354) -/

/-- Whether some stream holds pages, own or attached. -/
def State.pagesHeld (s : State) : Bool := s.str.tab.any (fun t => !t.kv.isEmpty || t.pfx.isSome)

/-- The status with which lintel.lower is refused, if any (R353, R434). -/
def State.lowerRefusal (s : State) (r : LowerReq) : Option Nat :=
  if !s.sch.raised || (s.img.frame.inGroup && !s.cas.welcomed) ||
    (s.sch.lowered && r.tokensPerPage != s.sch.tokensPerPage && s.pagesHeld) then some stStateConflict
  else none

/-- What lintel.lower records (R354): a value not stated is kept. -/
def State.recordModel (r : LowerReq) (s : State) : State :=
  let canon := (s.sch.canon.zipIdx).map (fun x => if r.profiles.testBit x.2 then some (r.canon.getD x.2 0) else x.1)
  s.onSch (fun g => { g with modelGen := r.modelGen, tokensPerPage := r.tokensPerPage, maxContext := r.maxContext,
                             lowered := true, canon := canon })

/-- Whether the model recorded now makes the block pause a stream (R100, R354): one that is PAUSED already, and that no resume brings back,
is not paused again. -/
def State.mismatched (s : State) (t : Stream) : Bool :=
  t.state != .closed && !(t.state == .paused && t.wait == .none) &&
  ((t.id.pin && t.id.modelGen != s.sch.modelGen) || !s.canonAgrees t)

/-- Whether a stream that is to be paused must first end what it has in the fabric, its choice, its opening, or the pause, migration or
resume that is under way (R354, R374): it enters no step before it is paused. -/
def State.pausesLater (s : State) (t : Stream) : Bool :=
  t.state == .stepping || t.state == .await || t.state == .opening || t.wait != .none || s.inFabric t.handle

/-- A str.pause that has not taken effect yet is refused when the lintel pauses its stream first. -/
def State.refusePending (slot : Nat) (s : State) : State :=
  match s.stream? slot with
  | none => s
  | some t =>
    match t.pausePending with
    | some (_, .migrate _) => s
    | some (some p, _) => if t.wait != .none then s else (s.onStream slot (fun t => { t with pausePending := none })).refuse p stStateConflict
    | _ => s

/-- lintel.lower once it is not waiting for a raise (R353, R354): the model is recorded, mismatched streams are paused or marked, the
summaries of the others are released, and admission is open again. -/
def lowerNow (p : Pkt) (s : State) : State :=
  match lowerReq p.payload with
  | none => s.refuse p stBadPacket
  | some r =>
    match s.lowerRefusal r with
    | some st => s.refuse p st
    | none =>
      let s1 := s.recordModel r
      let bad := s1.str.tab.filter s1.mismatched
      let (later, now) := bad.partition s1.pausesLater
      let s2 := now.foldl (fun s t => (s.refusePending t.id.slot).lintelPause t.id.slot) s1
      let s3 := later.foldl (fun s t => (s.refusePending t.id.slot).onStream t.id.slot (fun t => { t with lpause := true })) s2
      let rest := s3.str.tab.filter (fun t => t.lintelSum.isSome && t.state != .paused && !t.lpause && t.wait != .summaryEvent)
      let s4 := rest.foldl (fun s t => s.dropLintelSum t.id.slot) s3
      let s5 := (s4.onSch (fun g => { g with raised := false, shut := false, sumLintel := [] })).onStr
        (fun g => { g with tab := g.tab.map (fun t => { t with lat := t.lat.endLintel s.aon.time }) })
      (s5.event evLintel 0 r.modelGen now.length).done p 0 none none none

/-- lintel.lower (R352, R353): it waits for the cmp record of a raise that has not closed admission yet. -/
def lowerWork (p : Pkt) (s : State) : State :=
  if s.sch.closing.isSome then s.onSch (fun g => { g with waitingLower := g.waitingLower ++ [p] }) else lowerNow p s

/-- LINTEL_LOWER (R354). -/
def execLintelLower (dt ap pos : Nat) (s : State) : Res := .next ((s.elapse dt).runPacket (isOp 0x0A02) ap pos lowerWork)

/-! ### Closing admission (R352) -/

/-- A raise whose summary entries have all been issued writes its LINTEL and cmp records, and a lowering that waited goes on. -/
def State.finishRaise (s : State) : State :=
  match s.sch.closing with
  | none => s
  | some p =>
    if !s.sch.shut || !s.sch.sumLintel.isEmpty then s
    else
      let s1 := (s.onSch (fun g => { g with closing := none, waitingLower := [] })).event evLintel 1 s.sch.modelGen 0
      s.sch.waitingLower.foldl (fun s q => lowerNow q s) (s1.done p 0 none none none)

/-- At a step boundary a raise closes admission: it asks for its summaries, and unpinned streams in READY are held from now on (R330,
R352). -/
def State.shutLintel (s : State) : State :=
  if s.sch.closing.isNone || s.sch.shut then s
  else
    let slots := (s.str.tab.filter (wantsSummary s.sch.closingMask)).map (·.id.slot)
    let s1 := s.onSch (fun g => { g with shut := true, sumLintel := slots })
    (s1.onStr (fun g => { g with tab := g.tab.map (fun t =>
      if t.state == .ready && !t.id.pin then
        { t with lat := { t.lat with lintelSince := some (t.lat.lintelSince.getD s.aon.time) } } else t) })).finishRaise

end Sys2Proof.Machine
end

