-- ==== Sys2Proof/Machine/Sched.lean ====
section
/-! DEFINITION. Steps: boundaries (R317), issue_step (R318 to R320, R363), rows and their cand records (R249 to R253, R263, R264, R268
to R270, R364), and verdicts (R374, R375). -/
namespace Sys2Proof.Machine
open Sys2Proof

/-! ### Deadline policies (R331) -/

/-- The policy of a stream's late step is applied. -/
def State.applyPolicy (slot : Nat) (s : State) : State :=
  match s.stream? slot with
  | none => s
  | some t =>
    if !t.lat.policyDue then s
    else
      let s1 := s.onStream slot (fun t => { t with lat := { t.lat with policyDue := false, lateSeen := true } })
      let tell (s : State) : State := s.eventFull evDeadline t.handle 0xFFFF t.handle t.id.policy t.lastStep
      if t.id.policy == 1 then (tell s1).closeStream slot none
      else if t.id.policy == 2 then
        tell (s1.onStream slot (fun t => { t with id := { t.id with priority := min 3 (t.id.priority + 1) } }))
      else if t.lat.lateSeen then s1 else tell s1

/-- DEADLINE_POLICY (R331). -/
def execDeadlinePolicy (dt slot : Nat) (s : State) : Res := .next ((s.elapse dt).applyPolicy slot)

/-! ### Step boundaries (R110, R317, R322, R324, R332, R352) -/

/-- Slots of the streams that satisfy a test. -/
def State.slotsWith (s : State) (f : Stream → Bool) : List Nat := (s.str.tab.filter f).map (·.id.slot)

/-- What a step boundary does: commits take effect, the lintel closes, ROLLBACK pages become FREE, CLOSED streams are freed, streams
marked for cancellation are cancelled, and deadline policies are applied. What waits for a stream's step waits for its verdict. -/
def State.boundary (s : State) : State :=
  let s1 := s.applyCommits.shutLintel.freeRollback
  let s2 := (s1.slotsWith s1.mayRelease).foldl (fun s n => s.releaseStream n) s1
  let due := s2.slotsWith (fun t => t.cancelPending && t.state != .closed && !s2.inFabric t.handle)
  let s3 := due.foldl (fun s n => s.closeStream n none) s2
  (s3.slotsWith (fun t => t.lat.policyDue)).foldl (fun s n => s.applyPolicy n) s3

/-- IDLE_BOUNDARY (R317): 10 µs after the last step was issued. -/
def execIdleBoundary (dt : Nat) (s : State) : Res :=
  let s1 := s.elapse dt
  .next (if s1.serving && s1.sch.lastIssue + 10000 ≤ s1.aon.time then s1.boundary else s1)

/-! ### Candidates (R319) -/

/-- Slack: DEADLINE less the time of issue; 2^63 - 1 without a deadline. -/
def Stream.slack (now : Nat) (t : Stream) : Int :=
  match t.lat.deadline with
  | none => 2 ^ 63 - 1
  | some d => (d : Int) - now

/-- The generation order. -/
def genBefore (now : Nat) (a b : Stream) : Bool :=
  decide (a.id.priority < b.id.priority) || (a.id.priority == b.id.priority &&
  (decide (a.slack now < b.slack now) || (a.slack now == b.slack now &&
  (decide (a.lat.readyTime < b.lat.readyTime) || (a.lat.readyTime == b.lat.readyTime && decide (a.id.slot < b.id.slot))))))

/-- The prompt order. -/
def promptBefore (a b : Stream) : Bool :=
  decide (a.id.priority < b.id.priority) || (a.id.priority == b.id.priority &&
  (decide (a.oldest < b.oldest) || (a.oldest == b.oldest && decide (a.id.slot < b.id.slot))))

/-- Slots of the candidates of the generation loop, in order. -/
def State.genOrder (s : State) : List Nat :=
  (sortBy (genBefore s.aon.time) (s.str.tab.filter (fun t => t.state == .ready &&
    (!t.id.pin || t.id.modelGen == s.sch.modelGen)))).map (·.id.slot)

/-- Slots of the candidates of the prompt loop, in order. -/
def State.promptOrder (s : State) : List Nat :=
  (sortBy promptBefore (s.str.tab.filter (fun t => t.state == .prompt && decide (2 ≤ t.queue.length)))).map (·.id.slot)

/-- What admissible tests besides the tenant's level (R319, R370); a stream that the lintel is still to pause enters no step (R354). -/
def State.mayEnter (s : State) (t : Stream) : Bool :=
  !t.cancelPending && !t.lpause && t.pausePending.isNone && t.wait == .none && !s.ringHeld t.handle && !t.parse.refill && !t.resolving

/-- Whether a shutter lets a draft tree in (R360). -/
def treeReady (d : Shutter) : Bool := d.kind == .ready || d.kind == .open || d.kind == .heal

/-- The draft nodes that a stream's next step carries. -/
def Stream.draft (t : Stream) : List TNode := match t.tree with | some tr => tr.nodes | none => []

/-! ### Admission (R213, R240, R268, R319, R320, R327, R363) -/

/-- A step being built: the state, its entries, its fed tokens. -/
structure Issue where
  s : State
  ents : List StepEntry
  toks : Nat

/-- Pages that an admission needs beyond those the stream holds. -/
def State.needPages (s : State) (t : Stream) (positions : Nat) : Nat :=
  s.pagesFor (t.length + positions) - ((s.prefixPages t).length + t.kv.length)

/-- The number of the step being built. -/
def State.nextStep (s : State) : Nat := s.aon.stepCounter + 1

/-- What a generation admission reserves: stack chunks of an ACTIVE grammar (R213), parking of a row whose shutter is still being built
(R240, R268). None when one of them does not fit. -/
def State.reserve (slot : Nat) (s : State) : Option State :=
  match s.stream? slot with
  | none => none
  | some t =>
    let s1 := if t.parse.gstate == .active then State.spillLow s.str.tab.length s else s
    let k := parkBlocks (panesOf (s.vocabOf t).prof.vocab)
    if t.parse.gstate == .active && decide (s1.chunksFree < 4) then none
    else if t.shutter.kind != .building then some s1
    else if s1.parkFree < k then none
    else some (s1.onSch (fun g => { g with parkedReserve := g.parkedReserve ++ [(s.nextStep, slot, 0, k)] }))

/-- The common part of an admission: pages, the tenant's charge, the fed tokens, the latency holds, LAST_STEP and the descriptor
entry. -/
def Issue.addEntry (slot kind feed : Nat) (row : Bool) (pages : List Nat) (a : Issue) (s : State) : Issue :=
  match s.stream? slot with
  | none => a
  | some t =>
    let nodes := if kind == 2 then t.draft else []
    let kv := t.kv ++ pages
    let e : StepEntry :=
      { slot := slot, handle := t.handle, kind := kind, facets := if row then s.assignFacets t a.ents else [], row := row,
        profile := t.id.profile, nodes := nodes.length, position := t.length,
        tokens := t.queue.take feed ++ nodes.map (·.token), pages := s.prefixPages t ++ kv, newPages := pages.length,
        summary := if row then t.sumRelease else 0, parents := nodes.map (·.parent), epoch := if kind == 2 then t.epoch else 0,
        depth := (nodes.map (·.depth)).foldl max 0 }
    let s1 := (s.setChain .stream kv).onStream slot (fun t =>
      let u := t.dequeue feed
      { u with
        kv := kv, length := t.length + feed + nodes.length, lastStep := s.nextStep,
        state := if row then .stepping else t.state, voided := false, replayed := false, shaped := [],
        tree := if row then t.tree.map (fun tr => { tr with inStep := true }) else t.tree,
        lat := { t.lat.endAll s.aon.time with lateStep := if row then false else t.lat.lateStep } }) |>.stow slot
    let s2 := if t.parse.gstate == .none then s1 else s1.useGram t.parse.guid
    { s := s2, ents := a.ents ++ [e], toks := a.toks + feed + nodes.length }

/-- A generation stream deferred for want of pages with none on their way back raises the page-exhaustion cause (R323). -/
def State.starved (s : State) : State :=
  if s.sto.ledger.any (fun e => e.state == .rollback || e.state == .transit) then s else s.raise cPageExhaust

/-- One candidate of the generation loop. -/
def Issue.generation (entries tokens : Nat) (a : Issue) (slot : Nat) : Issue :=
  match a.s.stream? slot with
  | none => a
  | some t =>
    let run := t.queue.length
    let drafts := t.draft
    if entries ≤ a.ents.length || tokens < a.toks + run + drafts.length then a
    else if !a.s.mayEnter t then a
    else if !a.s.budgetSeen t.id.tenant then a
    else if !a.s.levelOk t.id.tenant then { a with s := a.s.holdStream slot }
    else if t.shutter.kind == .pending || (!drafts.isEmpty && !(t.descs.all treeReady)) then a
    else if (a.s.facets t.id.profile).isEmpty then a
    else
      match a.s.takePages (a.s.needPages t (run + drafts.length)) with
      | none => { a with s := a.s.starved }
      | some (pages, s1) =>
        match s1.reserve slot with
        | none => a
        | some s2 =>
          let s3 := s2.charge t.id.tenant (fun b => b.wGen + (run - 1) * b.wPrompt)
          Issue.addEntry slot (if drafts.isEmpty then 0 else 2) run true pages a s3

/-- One candidate of the prompt loop. -/
def Issue.prompt (entries tokens : Nat) (a : Issue) (slot : Nat) : Issue :=
  match a.s.stream? slot with
  | none => a
  | some t =>
    let chunk := min (min (t.queue.length - 1) (tokens - a.toks)) 8192
    if entries ≤ a.ents.length || chunk == 0 || !a.s.mayEnter t then a
    else if !a.s.budgetSeen t.id.tenant then a
    else if !a.s.levelOk t.id.tenant then { a with s := a.s.holdStream slot }
    else if a.s.sch.maxContext < t.length + chunk then a
    else
      let need := a.s.needPages t chunk
      if a.s.freeCount < need + a.s.reservePages then a
      else
        match a.s.takePages need with
        | none => a
        | some (pages, s1) => Issue.addEntry slot 1 chunk false pages a (s1.charge t.id.tenant (fun b => chunk * b.wPrompt))

/-- A summary entry of a stream (R335, R352). -/
def Issue.summary (entries : Nat) (a : Issue) (slot : Nat) : Issue :=
  if entries ≤ a.ents.length then a
  else
    let raised := a.s.sch.sumLintel.contains slot
    let s1 := a.s.onSch (fun g => { g with sumWanted := g.sumWanted.filter (· != slot), sumLintel := g.sumLintel.filter (· != slot) })
    match s1.stream? slot with
    | none => { a with s := s1 }
    | some t =>
      if (t.state == .closed && !raised) || t.state == .paused then { a with s := s1 }
      else
        let e : StepEntry :=
          { slot := slot, handle := t.handle, kind := 3, facets := [], row := false, profile := t.id.profile, nodes := 0,
            position := t.length, tokens := [], pages := s1.prefixPages t ++ t.kv, newPages := 0, summary := 0, parents := [],
            epoch := 0, depth := 0 }
        let s2 := s1.onStream slot (fun t => if t.wait == .summaryStep then { t with wait := .summaryEvent } else t)
        { a with s := s2, ents := a.ents ++ [e] }

/-- A summary release entry (R332, R339, R343, R354). -/
def Issue.release (entries : Nat) (a : Issue) (h : Nat) : Issue :=
  if entries ≤ a.ents.length then a
  else
    let e : StepEntry :=
      { slot := 0, handle := 0, kind := 4, facets := [], row := false, profile := 0, nodes := 0, position := 0, tokens := [],
        pages := [], newPages := 0, summary := h, parents := [], epoch := 0, depth := 0 }
    { a with s := a.s.onSch (fun g => { g with relSummaries := g.relSummaries.erase h }), ents := a.ents ++ [e] }

/-- The step is sent (R318, R496): the counter, the descriptor, and the rows that are expected. -/
def Issue.send (a : Issue) : State :=
  if a.ents.isEmpty then a.s
  else
    let s := a.s
    let n := s.nextStep
    let d : StepDesc := { step := n, imgGen := s.img.gen, modelGen := s.sch.modelGen, sealId := s.sealOf n, time := s.now,
                          entries := a.ents }
    let rows := (a.ents.filter (·.row)).flatMap (fun e => (List.range (e.nodes + 1)).map (fun k => (e.slot, k)))
    let x : Step := { desc := d, verdict := .waiting, replay := false, rowsLeft := rows, reported := [], released := [],
                      discarded := [], lastResult := none }
    let s0 := if rows.isEmpty then s else s.wakeDomain 3
    ((s0.onAon (fun g => { g with stepCounter := n })).onSch (fun g =>
      { g with steps := g.steps ++ [x], lastIssue := s.aon.time })).emit (.step d)

/-- issue_step (R319) under a grant: while admission is closed only the summaries of the raise pass. -/
def State.issue (entries tokens : Nat) (s : State) : State :=
  let a0 : Issue := { s := s, ents := [], toks := 0 }
  if s.sch.shut then ((s.sch.sumLintel.foldl (Issue.summary entries) a0).send).finishRaise
  else
    let s1 := s.unholdAll
    let a1 := if s.generation then s1.genOrder.foldl (Issue.generation entries tokens) { a0 with s := s1 } else { a0 with s := s1 }
    let a2 := a1.s.promptOrder.foldl (Issue.prompt entries tokens) a1
    let a3 := a2.s.sch.sumWanted.foldl (Issue.summary entries) a2
    (a3.s.sch.relSummaries.foldl (Issue.release entries) a3).send

/-- STEP_ISSUE (R319): the boundary before the step, then the step that the grant allows, of at most 16,384 entries and 65,536
tokens. -/
def execStepIssue (dt entries tokens : Nat) (s : State) : Res :=
  let s1 := s.elapse dt
  .next (if s1.serving && !s1.start.down then s1.boundary.issue (min entries 16384) (min tokens 65536) else s1)

/-! ### Rows (R249 to R253, R268, R269) -/

/-- The row that is being received. -/
def State.row? (s : State) (step slot node : Nat) : Option Row :=
  s.sch.rows.find? (fun r => r.step == step && r.slot == slot && r.node == node)

/-- The rows without one. -/
def rowsBut (step slot node : Nat) (l : List Row) : List Row :=
  l.filter (fun r => r.step != step || r.slot != slot || r.node != node)

/-- Whether every pane of a row has come. -/
def Row.whole (panes : Nat) (r : Row) : Bool := r.panes.length == panes

/-- PANES of a stream's vocabulary. -/
def State.panesFor (s : State) (t : Stream) : Nat := panesOf (s.vocabOf t).prof.vocab

/-- The steps that are past the fence with no row left to shape are done with. -/
def State.sweepSteps (s : State) : State :=
  s.onSch (fun g => { g with steps := g.steps.filter (fun x => x.verdict != .passed || !x.rowsLeft.isEmpty) })

/-- A result of a step has come (R374, R375): the first one of a replay opens the step for its verdict. -/
def State.resultIn (step : Nat) (s : State) : State :=
  s.onStep step (fun x => { x with lastResult := some s.aon.time,
                                   verdict := if x.verdict == .replaying then .waiting else x.verdict })

/-- A row's descriptor is still to come (R241). -/
def notBuilt (d : Shutter) : Bool := d.kind == .building || d.kind == .pending

/-- The reserved parking of a row is free again. -/
def State.unpark (step slot node : Nat) (s : State) : State :=
  s.onSch (fun g => { g with parkedReserve := g.parkedReserve.filter (fun r => r.1 != step || r.2.1 != slot || r.2.2.1 != node) })

/-! ### Voiding (R375) -/

/-- The streams of a step's entries that are still live. -/
def State.liveEntries (s : State) (x : Step) : List StepEntry :=
  x.desc.entries.filter (fun e => match s.live? e.handle with
    | some t => e.kind != 4 && t.state != .closed
    | none => false)

/-- The held choices of a step are refused with VOIDED, and no choice is taken before the replay's last row. -/
def State.voidChoices (x : Step) (s : State) : State :=
  ((s.liveEntries x).filter (·.row)).foldl (fun s e =>
    match s.stream? e.slot with
    | none => s
    | some t =>
      if t.lastStep != x.desc.step then s
      else
        let s1 := (s.onStream e.slot (fun t => { t with voided := true, choice := none })).onStr
          (fun g => { g with waitingChoices := g.waitingChoices.filter (· != e.slot) })
        match t.choice with
        | some c => s1.refuse c.pkt stVoided
        | none => s1) s

/-- The rows of a step that a replay brings for streams that still wait in the step; and those that it brings for others, which are
discarded. -/
def State.replayRows (s : State) (x : Step) : List (Nat × Nat) × List (Nat × Nat) :=
  let waits (e : StepEntry) : Bool := match s.live? e.handle with
    | some t => t.lastStep == x.desc.step && (t.state == .stepping || t.state == .await) && t.commit.isNone
    | none => false
  let rows (l : List StepEntry) : List (Nat × Nat) := l.flatMap (fun e => (List.range (e.nodes + 1)).map (fun k => (e.slot, k)))
  let (a, b) := (x.desc.entries.filter (·.row)).partition waits
  (rows a, rows b)

/-- A step is voided (R375): its rows are discarded with their releases, parking stays reserved for the replay, held choices are
refused, VOID notices go out. own: the block asks for it itself, and the verdict of the first delivery is discarded. -/
def State.voidStep (own : Bool) (step : Nat) (s : State) : State :=
  match s.step? step with
  | none => s
  | some x =>
    let panes (r : Row) : Nat := match s.stream? r.slot with | some t => s.panesFor t | none => 0
    let begun := s.sch.rows.filter (fun r => r.step == step)
    -- a row that was asked for again and has not come yet is kept by the fabric too (R253)
    let again := s.sch.faulted.filter (fun f => f.1 == step && !begun.any (fun r => r.slot == f.2.1 && r.node == f.2.2))
    let rel := (begun.filter (fun r => !(r.parked && r.whole (panes r)))).map (fun r => Out.rowRelease step r.slot r.node) ++
      again.map (fun f => Out.rowRelease step f.2.1 f.2.2)
    let (rows, gone) := s.replayRows x
    let s1 := (s.onSch (fun g => { g with rows := g.rows.filter (fun r => r.step != step),
                                          faulted := g.faulted.filter (fun r => r.1 != step) })).onStep step (fun x =>
      { x with verdict := if own then .replaying else .waiting, replay := true, rowsLeft := rows, reported := [], released := [],
               discarded := gone, lastResult := none })
    let s2 := ((s1.emits rel).voidChoices x).sealVerdict step false
    if own then s2.emit (.voidRequest step) else s2

/-- Whether the fabric has been sent the release of a row of a step that the block knows: the row is whole in parking, or it is expected
no more (R253). -/
def State.rowReleased (s : State) (x : Step) (slot node : Nat) : Bool :=
  if x.rowsLeft.contains (slot, node) then
    match s.row? x.desc.step slot node, s.stream? slot with
    | some r, some t => r.parked && r.whole (s.panesFor t)
    | _, _ => false
  else x.desc.entries.any (fun e => e.row && e.slot == slot && decide (node ≤ e.nodes))

/-- A faulty row (R252): it is discarded and asked for again, unless its release has gone out already (R253; log 49); a second faulty
delivery of an expected row counts as a failing verdict of its step. -/
def State.rowFault (step slot node : Nat) (s : State) : State :=
  let s1 := s.raise cFabricProto
  match s1.step? step with
  | none => s1.emit (.rowResend step slot node)
  | some x =>
    if s1.rowReleased x slot node then s1
    else if s1.sch.faulted.contains (step, slot, node) then s1.voidStep true step
    else
      let expected := x.rowsLeft.contains (slot, node)
      (s1.onSch (fun g => { g with rows := rowsBut step slot node g.rows,
                                   faulted := if expected then g.faulted ++ [(step, slot, node)] else g.faulted })).emit
        (.rowResend step slot node)

/-! ### LOGIT_BURST (R249 to R253) -/

/-- A row as its first burst finds it: parked while its descriptor is being built; otherwise the facet latches the descriptor (R264), and the
reservation is freed unused (R241). A replay keeps its reservation (R270). -/
def State.beginRow (x : Step) (e : StepEntry) (t : Stream) (node : Nat) (s : State) : State × Row :=
  let d := ((t.nodeAt node).map (·.2)).getD {}
  let park := notBuilt d
  let r : Row := { step := x.desc.step, slot := e.slot, node := node, facets := e.facets, format := none,
                   next := rowStart (s.panesFor t) e.facets, panes := [], parked := park,
                   desc := if park then none else some (s.resolved d) }
  (if park || x.replay then s else s.unpark x.desc.step e.slot node, r)

/-- A burst joins its row. -/
def State.takeBurst (facet : Nat) (b : Burst) (t : Stream) (r : Row) (s : State) : State :=
  let vals := b.logits.map (Fp.ofFormat b.format)
  let ids := vals.take (((s.vocabOf t).prof.vocab) - 1024 * b.pane)
  let r' : Row := { r with format := some b.format, panes := insertBy (fun x y => decide (x.1 < y.1)) (b.pane, vals) r.panes,
                           next := r.next.map (fun c => if c.1 == facet then (c.1, c.2 + 1) else c) }
  let s1 := (s.onSch (fun g => { g with rows := rowsBut b.step b.slot b.node g.rows ++ [r'] })).count bcNonfinite
    (ids.filter (fun v => !Fp.finite v)).length
  let s2 := s1.resultIn b.step
  -- a row written whole to parking is released at once (R253)
  if r'.parked && r'.whole (s.panesFor t) then s2.emit (.rowRelease b.step b.slot b.node) else s2

/-- Whether a burst continues a row: its channel is one of the row's, its pane the next of that channel, its format the row's (R252). -/
def State.burstFits (s : State) (t : Stream) (facet : Nat) (b : Burst) (r : Row) : Bool :=
  decide (b.format ≤ 3) && (r.format.getD b.format == b.format) && assoc r.next facet == some b.pane &&
  (r.facets.zipIdx).any (fun x => x.1 == facet && gangOwns (s.panesFor t) r.facets.length x.2 b.pane)

/-- A burst of a row that the block expects, or of the rest of a row that a cancellation has given up before the fence (R270), which is
discarded; any other is a fault (R252). -/
def State.burst (facet : Nat) (b : Burst) (s : State) : State :=
  match s.step? b.step with
  | none => s.rowFault b.step b.slot b.node
  | some x =>
    match x.desc.entries.find? (fun e => e.row && e.slot == b.slot), s.stream? b.slot with
    | some e, some t =>
      if !x.rowsLeft.contains (b.slot, b.node) then
        (if x.verdict != .passed && x.discarded.contains (b.slot, b.node) then s.resultIn b.step else s.rowFault b.step b.slot b.node)
      else
        let (s1, r) := match s.row? b.step b.slot b.node with
          | some r => (s, r)
          | none => s.beginRow x e t b.node
        if s1.burstFits t facet b r then s1.takeBurst facet b t r else s1.rowFault b.step b.slot b.node
    | _, _ => s.rowFault b.step b.slot b.node

/-- LOGIT_BURST (R250): a burst holds 1,024 logits. -/
def execLogitBurst (dt facet : Nat) (burst : Burst) (s : State) : Res :=
  let s1 := s.elapse dt
  .next (if s1.serving && burst.logits.length == 1024 then s1.burst facet burst else s1)

/-! ### ROW_SHAPED (R263, R264, R331, R364) -/

/-- TBT_MAX with the token whose cand record is handed over now (R331). -/
def Lat.measure (now : Nat) (l : Lat) : Lat :=
  match l.lastCommit with
  | none => l
  | some c => { l with tbtMax := max l.tbtMax (now - c - (l.endAll now).stalledSince) }

/-- Whether a record handed over now is late (R331). -/
def Lat.lateAt (now : Nat) (l : Lat) : Bool :=
  match (l.endAll now).deadline with
  | none => false
  | some d => decide (d < now)

/-- The latency record after a cand record: LATE_COUNT counts a step once. -/
def Lat.handed (now node : Nat) (l : Lat) : Lat :=
  let l1 := if node == 0 then l.measure now else l
  if l.lateAt now && !l.lateStep then { l1 with lateStep := true, lateCount := l.lateCount + 1 } else l1

/-- The cand record of a shaped row (R263). -/
def State.candOf (s : State) (x : Step) (t : Stream) (r : Row) (sh : Shaped) (late : Bool) : CandRec :=
  { stream := t.handle, provisional := x.verdict != .passed, step := r.step, node := r.node, epoch := t.epoch,
    allowed := sh.allowed, lse := sh.lse, mass := sh.mass, toppN := sh.toppN, minpN := sh.minpN,
    cflags := flag x.replay 0 + flag late 1 + flag (decide (2 ≤ r.facets.length)) 2, time := s.now, entries := sh.entries }

/-- A row's cand record goes to egress; with the last row of its entry the stream waits for its choice. -/
def State.handOver (x : Step) (t : Stream) (r : Row) (sh : Shaped) (s : State) : State :=
  let now := s.aon.time
  let left := x.rowsLeft.erase (r.slot, r.node)
  let last := !left.any (fun p => p.1 == r.slot)
  let s1 := s.onStream r.slot (fun t => { t with lat := t.lat.handed now r.node })
  let late := match s1.stream? r.slot with | some u => u.lat.lateStep | none => false
  let s2 := (s1.wakeDomain 2).egressFor t.id.ring (some t.handle) (.cand (s.candOf x t r sh late))
  let s3 := if r.parked then s2 else s2.emit (.rowRelease r.step r.slot r.node)
  let s4 := (s3.onSch (fun g => { g with rows := rowsBut r.step r.slot r.node g.rows })).unpark r.step r.slot r.node
  let s5 := (s4.onStep r.step (fun x => { x with rowsLeft := left })).workDone 3 (.row r.step r.slot r.node)
  let s6 := if last then s5.onStream r.slot (fun t => { t with state := .await, voided := false, replayed := x.replay }) else s5
  s6.sweepSteps

/-- Whether a facet has failed and is not back in service: what it began is repeated elsewhere (R271). -/
def State.facetFailed (s : State) (f : Nat) : Bool :=
  s.mem.units.any (fun u => u.kind == 3 && u.inst == f && !u.inService && (u.testing == 3 || u.cls == 2))

/-- ROW_SHAPED (R263): of a row that is whole, under the descriptor that it has latched or that has been built since, after the rows of the
nodes before it. -/
def execRowShaped (dt step slot node : Nat) (s : State) : Res :=
  let s1 := s.elapse dt
  .next (match s1.step? step, s1.stream? slot, s1.row? step slot node with
    | some x, some t, some r =>
      let d := r.desc.getD (((t.nodeAt node).map (·.2)).getD {})
      if x.rowsLeft.contains (slot, node) && r.whole (s1.panesFor t) && !notBuilt d && !r.facets.any s1.facetFailed &&
          !x.rowsLeft.any (fun p => p.1 == slot && decide (p.2 < node)) then
        (s1.handOver x t r (s1.shapeRow t d (r.panes.map (·.2)))).onStream slot (fun t => { t with
          shaped := (t.shaped.filter (·.1 != node)) ++ [(node, s1.resolved d)] })
      else s1
    | _, _, _ => s1)

/-! ### Verdicts (R374, R375, R377) -/

/-- Streams of a step whose choice is held, in order of arrival. -/
def State.heldChoices (s : State) (step : Nat) : List Nat :=
  (sortBy (fun a b => decide (((a.choice.map (·.arrived)).getD 0) < ((b.choice.map (·.arrived)).getD 0)))
    (s.str.tab.filter (fun t => t.lastStep == step && t.state == .await && t.choice.isSome))).map (·.id.slot)

/-- What the fence lets happen to an entry's stream: the summary it continued from is released, a prompt may be complete, a summary
pause completes (R313, R335, R339, R354). -/
def State.passEntry (s : State) (e : StepEntry) : State :=
  match s.live? e.handle with
  | none => s
  | some t =>
    if e.kind == 4 || t.state == .closed then s
    else
      let s1 := if e.summary != 0 && t.sumRelease == e.summary then
          (s.onStream e.slot (fun t => { t with sumRelease := 0 })).releaseSummary e.summary
        else s
      ((s1.leavePrompt e.slot).finishSummary e.slot).pauseDeferred e.slot

/-- VERDICT_PASS (R374): the step passes the commit fence; held choices are carried out. -/
def execVerdictPass (dt step : Nat) (s : State) : Res :=
  let s1 := s.elapse dt
  .next (match s1.step? step with
    | none => s1
    | some x =>
      if x.verdict != .waiting then s1
      else
        let s2 := s1.onStep step (fun x => { x with verdict := .passed })
        let s3 := (s2.heldChoices step).foldl (fun s n => s.grantOrWait State.commitHeld n) s2
        let s4 := (x.desc.entries.foldl State.passEntry s3).sealVerdict step true
        s4.sweepSteps)

/-- VERDICT_FAIL (R375): a verdict for a delivery that the block gave up itself is discarded. -/
def execVerdictFail (dt step : Nat) (s : State) : Res :=
  let s1 := s.elapse dt
  .next (match s1.step? step with
    | none => s1
    | some x => if x.verdict == .waiting then s1.voidStep false step else s1)

/-- Whether every result of a step has come: its rows are whole, its prompt, summary and release entries are reported (R374). -/
def State.resultsIn (s : State) (x : Step) : Bool :=
  x.rowsLeft.all (fun p => match s.row? x.desc.step p.1 p.2, s.stream? p.1 with
    | some r, some t => r.whole (s.panesFor t)
    | _, _ => false) &&
  (s.liveEntries x).all (fun e => e.row || x.reported.contains e.slot) &&
  (x.desc.entries.filter (fun e => e.kind == 4)).all (fun e => x.released.contains e.summary)

/-- VERDICT_TIMEOUT (R374): 1 ms after the last of a step's results without a verdict. -/
def execVerdictTimeout (dt step : Nat) (s : State) : Res :=
  let s1 := s.elapse dt
  .next (match s1.step? step with
    | none => s1
    | some x =>
      match x.lastResult with
      | some t =>
        if x.verdict == .waiting && s1.resultsIn x && decide (t + 1000000 ≤ s1.aon.time) then
          (s1.raise cFabricProto).voidStep true step
        else s1
      | none => s1)

end Sys2Proof.Machine
end

