-- ==== Sys2Proof/Machine/Memory.lean ====
section
/-! DEFINITION. Memory test and repair (R380 to R402): the fault history's locations (R463, R465), spares, repair_bank, and the march
engine on request, by packet and by register (R485). -/
namespace Sys2Proof.Machine
open Sys2Proof

/-! ### Locations of the fault history (R463 to R465) -/

/-- Changes that are not written back yet. -/
def State.unwritten (s : State) : Nat := s.mem.unwrittenUnits.length + s.mem.unwrittenLocs.length

/-- Whether two entries name one location. -/
def Loc.same (a b : Loc) : Bool := a.kind == b.kind && a.unit == b.unit && a.bank == b.bank && a.index == b.index

/-- With more than 4,096 changes waiting, the newest CANDIDATE is discarded and counted (R465). -/
def State.trimUnwritten (s : State) : State :=
  if s.unwritten ≤ 4096 then s
  else
    match s.mem.unwrittenLocs.reverse.find? (fun x => x.cls == 1) with
    | none => s
    | some d => (s.onMem (fun m => { m with unwrittenLocs := m.unwrittenLocs.erase d })).count bcHistDiscard 1

/-- A change of a location waits to be written back (R465). -/
def State.noteLoc (l : Loc) (s : State) : State :=
  (s.onMem (fun m => { m with unwrittenLocs := m.unwrittenLocs.filter (fun x => !x.same l) ++ [l] })).trimUnwritten

/-- A change of a unit waits to be written back (R465). -/
def State.noteUnit (i : Nat) (s : State) : State :=
  (s.onMem (fun m => { m with unwrittenUnits := if m.unwrittenUnits.contains i then m.unwrittenUnits else m.unwrittenUnits ++ [i] })).trimUnwritten

/-- A location joins a history that holds up to 65,536 of them: when it is full a PERMANENT one replaces the oldest CANDIDATE, and a
CANDIDATE is discarded (R465). -/
def State.addLoc (l : Loc) (s : State) : State :=
  if s.mem.locs.length < 65536 then (s.onMem (fun m => { m with locs := m.locs ++ [l] })).noteLoc l
  else if l.cls == 1 then s
  else
    match s.mem.locs.find? (fun x => x.cls == 1) with
    | none => s
    | some old => (s.onMem (fun m => { m with locs := m.locs.erase old ++ [l] })).noteLoc l

/-- The entry of a location. -/
def State.loc? (s : State) (l : Loc) : Option Loc := s.mem.locs.find? (fun x => x.same l)

/-- A location has failed (R463): at first it is a CANDIDATE, or PERMANENT where cls says so; after that PERMANENT. -/
def State.locFails (l : Loc) (s : State) : State :=
  match s.loc? l with
  | none => s.addLoc { l with fails := 1 }
  | some old =>
    let l' := { old with cls := 2, fails := satInc 16 old.fails }
    (s.onMem (fun m => { m with locs := m.locs.map (fun x => if x.same l then l' else x) })).noteLoc l'

/-- The location of an SRAM cell: row and column in one index (R464). -/
def cellLoc (array : Nat) (c : Cell) : Loc :=
  { kind := 0, cls := 1, unit := array, bank := c.bank, index := c.row + c.column * 2 ^ 16, fails := 0 }

/-- The location of a CAM row, and of a KV page. -/
def rowLoc (bank row : Nat) : Loc := { kind := 1, cls := 1, unit := bank, bank := 0, index := row, fails := 0 }
def pageLoc (page : Nat) : Loc := { kind := 2, cls := 2, unit := 0, bank := 0, index := page, fails := 0 }

/-- Whether a location counts as PERMANENT. -/
def State.isPermanent (s : State) (l : Loc) : Bool := match s.loc? l with | some x => x.cls == 2 | none => false

/-! ### Spares (R397, R400) -/

/-- The spare that a fail names beyond the last row or column of its unit, if any (R387, R397); CAM banks count from 88 on. -/
def spareOf (x : Nat × Cell) : Option (Nat × Nat × Nat × Nat) :=
  if x.1 < 88 then
    if 1024 ≤ x.2.row then some (0, x.1, x.2.bank, x.2.row - 1024)
    else if 576 ≤ x.2.column then some (1, x.1, x.2.bank, x.2.column - 576)
    else none
  else if 8192 ≤ x.2.row then some (2, x.1 - 88, 0, x.2.row - 8192) else none

/-- Fails of spares are kept: a spare that has failed is never used (R387). -/
def State.noteSpares (l : List (Nat × Cell)) (s : State) : State :=
  s.onMem (fun m => { m with badSpares := (m.badSpares ++ l.filterMap spareOf).eraseDups })

/-- The working spare rows (KIND 0 or 2) or columns (KIND 1) of a bank that no repair uses. -/
def State.freeSpares (s : State) (kind array bank : Nat) : List Nat :=
  (List.range (if kind == 1 then 4 else 8)).filter (fun i => !s.mem.badSpares.contains (kind, array, bank, i) &&
    !s.mem.repair.any (fun r => r.kind == kind && r.unit == array && r.bank == bank && r.spare == i))

/-- Whether a cell's row or column is repaired already. -/
def State.repaired (s : State) (array : Nat) (c : Cell) : Bool :=
  s.mem.repair.any (fun r => r.unit == array && r.bank == c.bank &&
    ((r.kind == 0 && r.index == c.row) || (r.kind == 1 && r.index == c.column)))

/-- A working spare is taken for a failing cell in service: a row while one is left, else a column (R400). Whether one was taken. -/
def State.takeSpare (array : Nat) (c : Cell) (s : State) : State × Bool :=
  if s.repaired array c then (s, false)
  else
    let e (kind index spare : Nat) : Repair := { kind := kind, source := 4, unit := array, bank := c.bank, index := index, spare := spare }
    match s.freeSpares 0 array c.bank, s.freeSpares 1 array c.bank with
    | i :: _, _ => (s.repairAdd (e 0 c.row i), true)
    | [], i :: _ => (s.repairAdd (e 1 c.column i), true)
    | [], [] => (s, false)

/-- A failing cell is recorded and, where repair says so or it has become PERMANENT, repaired; with no spare left it is recorded as
PERMANENT (R400, R463). Whether a spare was taken. -/
def State.cellFails (repair : Bool) (array : Nat) (c : Cell) (s : State) : State × Bool :=
  let l := cellLoc array c
  let s1 := s.locFails l
  if !repair && !s1.isPermanent l then (s1, false)
  else
    let (s2, took) := s1.takeSpare array c
    if took || s2.repaired array c || s2.isPermanent l then (s2, took) else (s2.locFails l, false)

/-! ### repair_bank (R398) -/

/-- The spare rows and columns taken so far for a bank, in order, of so many working ones. -/
structure Spared where
  rows : List Nat
  cols : List Nat
  workRows : Nat := 8
  workCols : Nat := 4
  deriving DecidableEq, Repr

/-- Cells that no spare covers yet. -/
def Spared.left (a : Spared) (fails : List Cell) : List Cell := fails.filter (fun c => !a.rows.contains c.row && !a.cols.contains c.column)

/-- Distinct rows that fail in a column, distinct columns that fail in a row. -/
def rowsIn (col : Nat) (l : List Cell) : Nat := (((l.filter (fun c => c.column == col)).map (·.row)).eraseDups).length
def colsIn (row : Nat) (l : List Cell) : Nat := (((l.filter (fun c => c.row == row)).map (·.column)).eraseDups).length

/-- Distinct numbers, ascending. -/
def ascendingOf (l : List Nat) : List Nat := sortBy (fun a b => decide (a < b)) l.eraseDups

/-- The columns that must be spared, in one pass. -/
def mustCols (fails : List Cell) : List Nat → Spared → Option Spared
  | [], a => some a
  | c :: cs, a =>
    if rowsIn c (a.left fails) ≤ a.workRows - a.rows.length then mustCols fails cs a
    else if a.workCols ≤ a.cols.length then none
    else mustCols fails cs { a with cols := a.cols ++ [c] }

/-- The rows that must be spared, in one pass. -/
def mustRows (fails : List Cell) : List Nat → Spared → Option Spared
  | [], a => some a
  | r :: rs, a =>
    if colsIn r (a.left fails) ≤ a.workCols - a.cols.length then mustRows fails rs a
    else if a.workRows ≤ a.rows.length then none
    else mustRows fails rs { a with rows := a.rows ++ [r] }

/-- The loop of repair_bank: passes until nothing changes; there are twelve spares, so fuel for thirteen. -/
def mustLoop (fails : List Cell) : Nat → Spared → Option Spared
  | 0, a => some a
  | n + 1, a =>
    match mustCols fails (ascendingOf (fails.map (·.column))) a with
    | none => none
    | some b =>
      match mustRows fails (ascendingOf (fails.map (·.row))) b with
      | none => none
      | some c => if c == a then some c else mustLoop fails n c

/-- Columns of one row, each taking a spare column. -/
def sparingCols : List Nat → Spared → Option Spared
  | [], a => some a
  | c :: cs, a =>
    if a.cols.contains c then sparingCols cs a
    else if a.workCols ≤ a.cols.length then none
    else sparingCols cs { a with cols := a.cols ++ [c] }

/-- The last part of repair_bank: each row with a cell not yet repaired. -/
def sparingRest (fails : List Cell) : List Nat → Spared → Option Spared
  | [], a => some a
  | r :: rs, a =>
    let mine := (a.left fails).filter (fun c => c.row == r)
    if mine.isEmpty then sparingRest fails rs a
    else if a.rows.length < a.workRows then sparingRest fails rs { a with rows := a.rows ++ [r] }
    else match sparingCols (ascendingOf (mine.map (·.column))) a with
      | none => none
      | some b => sparingRest fails rs b

/-- repair_bank (R398) with so many working spare rows and columns: the spares that repair a bank, none for an unrepairable one. -/
def repairBank (workRows workCols : Nat) (fails : List Cell) : Option Spared :=
  (mustLoop fails 13 { rows := [], cols := [], workRows := workRows, workCols := workCols }).bind (sparingRest fails (ascendingOf (fails.map (·.row))))

/-! ### The march engine on request (R389 to R396) -/

/-- Rows of an SRAM array, and of a CAM bank. -/
def arrayRows : Nat := 65536
def camRows : Nat := 8192

/-- Changes the march engine's record. -/
def State.onMarch (f : March → March) (s : State) : State := s.onMem (fun m => { m with march := f m.march })

/-- Arrays that a destructive march on request may name: the memo, parking, text staging and the draft-tree pool (R390). -/
def State.mayDestroy (s : State) (a : Nat) : Bool :=
  (20 ≤ a && a ≤ 31) || (match s.poolOf a with | some n => n == 2 || n == 3 || n == 4 | none => false)

/-- The units of a range. -/
def unitRange (first last : Nat) : List Nat := (List.range (last + 1 - first)).map (· + first)

/-- The status with which a march is refused, if any; abort is its own request (R389, R390, R395). -/
def State.marchRefusal (s : State) (mode : Nat) (target : Bool) (first last : Nat) : Option Nat :=
  let units := unitRange first last
  let mapped (b : Nat) : Bool := (s.logical b).isSome
  if s.mem.march.running then some stStateConflict
  else if !target then (if mode == 1 && !units.all s.mayDestroy then some stStateConflict else none)
  else if mode == 1 then (if units.all s.spares.contains then none else some stStateConflict)
  else if units.any mapped && s.spares.isEmpty then some stNoSpace
  else none

/-- Memo entries of sets that an array holds are invalid (R390). -/
def State.clearMemo (arrays : List Nat) (s : State) : State :=
  s.onImg (fun g => { g with memo := g.memo.filter (fun e => !(memoArrays e.set).any arrays.contains) })

/-- The next CAM bank of a range is taken: a logical bank that it maps moves to a free spare, whose reload begins (R395). None when no
spare is free for it. -/
def State.beginCam (b : Nat) (s : State) : Option State :=
  let s1 := s.onMarch (fun m => { m with camBank := some b, nextUnit := b + 1 })
  match s.logical b with
  | none => some s1
  | some n =>
    match s1.spares.head? with
    | none => none
    | some q => some ((s1.mapEntry n (some q) 4).onBer (fun g => { g with
        map := modifyAt g.map n (fun _ => some q), reloading := if g.reloading.contains n then g.reloading else g.reloading ++ [n],
        rows := g.rows.filter (fun r => r.bank != q) }))

/-- A march that is not refused begins (R389 to R395). -/
def State.beginMarch (pkt : Option Pkt) (mode : Nat) (target : Bool) (first last : Nat) (s : State) : State :=
  let units := unitRange first last
  let m : March := { running := true, byReg := pkt.isNone, mode := mode, target := flag target 0, first := first, last := last,
                     pkt := pkt, requested := s.aon.time, lastStatus := s.mem.march.lastStatus, nextUnit := first }
  if target then ((s.onMarch (fun _ => m)).beginCam first).getD (s.onMarch (fun _ => m))
  else if mode == 1 then
    let memo := units.filter (fun a => decide (a < 32))
    ((s.onMarch (fun _ => { m with waiting := units.filter (fun a => decide (32 ≤ a)) })).clearMemo memo).onMem
      (fun g => { g with noAlloc := units })
  else s.onMarch (fun _ => { m with pos := (units.take 8).map (fun a => (a, 0)), nextUnit := first + 8 })

/-- A status is kept as LAST_STATUS (R485). -/
def State.marchStatus (st : Nat) (s : State) : State := s.onMarch (fun m => { m with lastStatus := st })

/-- test.march with MODE 0 or 1 (R389). -/
def marchWork (p : Pkt) (s : State) : State :=
  let mode := bits p.arg 1 0
  let target := bit p.arg 2
  let first := bits p.arg 10 4
  let last := bits p.arg 17 11
  match s.marchRefusal mode target first last with
  | some st => (s.marchStatus st).refuse p st
  | none => s.beginMarch (some p) mode target first last

/-- test.march with MODE 2 (R389, R394): the march ends at the next row boundary. -/
def marchAbortWork (p : Pkt) (s : State) : State :=
  if s.mem.march.running then (s.onMarch (fun m => { m with aborting := true })).done p 0 none none none
  else (s.marchStatus stStateConflict).refuse p stStateConflict

/-- TEST_MARCH_PRESERVING (R389). -/
def execTestMarchPreserving (dt ap pos : Nat) (s : State) : Res :=
  .next ((s.elapse dt).runPacket (fun p => isOp 0x0C01 p && bits p.arg 1 0 == 0) ap pos marchWork)

/-- TEST_MARCH_DESTRUCTIVE (R390). -/
def execTestMarchDestructive (dt ap pos : Nat) (s : State) : Res :=
  .next ((s.elapse dt).runPacket (fun p => isOp 0x0C01 p && bits p.arg 1 0 == 1) ap pos marchWork)

/-- TEST_MARCH_ABORT (R394). -/
def execTestMarchAbort (dt ap pos : Nat) (s : State) : Res :=
  .next ((s.elapse dt).runPacket (fun p => isOp 0x0C01 p && bits p.arg 1 0 == 2) ap pos marchAbortWork)

/-! ### The end of a march (R396) -/

/-- The march ends: arrays return to their pools and the cmp record is written. -/
def State.endMarch (s : State) : State :=
  let m := s.mem.march
  let s1 := (s.onMarch (fun m => { m with running := false, byReg := false, waiting := [], pos := [], skipped := [], aborting := false,
                                          camBank := none, pkt := none, lastStatus := stOk })).onMem
    (fun g => { g with noAlloc := [] })
  match m.pkt with
  | some p => s1.done p 0 (some m.rows) (some (m.fails + m.spares * 2 ^ 32)) (some (m.yields + m.untested * 2 ^ 32))
  | none => s1

/-- A march is given up with a status (R390). -/
def State.failMarch (st : Nat) (s : State) : State :=
  let m := s.mem.march
  let s1 := (s.onMarch (fun m => { m with running := false, byReg := false, waiting := [], pos := [], skipped := [], aborting := false,
                                          camBank := none, pkt := none, lastStatus := st })).onMem
    (fun g => { g with noAlloc := [] })
  match m.pkt with
  | some p => s1.refuse p st
  | none => s1

/-- Whether no block of an array is in use: no tree record and no block of text staging lies in it, and all that parking and text staging hold
fits elsewhere. -/
def State.arrayIdle (s : State) (a : Nat) : Bool :=
  match s.poolOf a with
  | some 2 => s.sch.parkedReserve.isEmpty || decide (0 < s.parkFree)
  | some 3 => !s.str.tab.any (fun t => t.blocks.units.any (fun u => (s.poolArrays 3)[u * 64 / 2 ^ 22]? == some a)) && s.unitsFree 0
  | some 4 => !s.str.tab.any (fun t => match t.tree with | some tr => s.treeArray tr.record == a | none => false)
  | _ => true

/-- DESTRUCTIVE_MARCH_START (R390): no block of the array is allocated any more. -/
def execDestructiveMarchStart (dt array : Nat) (s : State) : Res :=
  let s1 := s.elapse dt
  .next (if s1.arraysUp && s1.mem.march.waiting.contains array && s1.arrayIdle array then
      s1.onMarch (fun m => { m with waiting := m.waiting.filter (· != array) })
    else s1)

/-- DESTRUCTIVE_MARCH_TIMEOUT (R390): 100 ms after the request an array is still in use. -/
def execDestructiveMarchTimeout (dt array : Nat) (s : State) : Res :=
  let s1 := s.elapse dt
  .next (if s1.mem.march.waiting.contains array && decide (s1.mem.march.requested + 100000000 ≤ s1.aon.time) then
      s1.failMarch stStateConflict
    else s1)

/-! ### Borrowed rows (R391 to R393) -/

/-- The row that the engine borrows next of an array: the next of its pass, then those put off. -/
def March.nextRow (m : March) (a : Nat) : Option Nat :=
  match assoc m.pos a with
  | none => none
  | some r => if r < arrayRows then some r else (m.skipped.find? (fun x => x.1 == a)).map (·.2.1)

/-- An array leaves the set under test when its pass and its skipped rows are done, and the next of the range joins it. -/
def March.settle (a : Nat) (m : March) : March :=
  match assoc m.pos a with
  | none => m
  | some r =>
    if r < arrayRows || m.skipped.any (fun x => x.1 == a) then m
    else
      let rest := m.pos.filter (fun p => p.1 != a)
      if m.nextUnit ≤ m.last then { m with pos := rest ++ [(m.nextUnit, 0)], nextUnit := m.nextUnit + 1 } else { m with pos := rest }

/-- A row is taken off the pass: how often it was put off before. -/
def March.take (a row : Nat) (m : March) : March × Nat :=
  match m.skipped.find? (fun x => x.1 == a && x.2.1 == row) with
  | some x => ({ m with skipped := m.skipped.erase x }, x.2.2)
  | none => ({ m with pos := m.pos.map (fun p => if p.1 == a then (a, p.2 + 1) else p) }, 0)

/-- A row is put off; after 16 times it is left untested (R393). -/
def March.putOff (a row before : Nat) (m : March) : March :=
  if before + 1 < 16 then { m with skipped := m.skipped ++ [(a, row, before + 1)] } else { m with untested := m.untested + 1 }

/-- The fails of a borrowed row: each is recorded and repaired at once (R400). -/
def State.rowFails (a : Nat) (fails : List Cell) (s : State) : State :=
  fails.foldl (fun s c =>
    let (s1, took) := s.cellFails true a c
    s1.onMarch (fun m => { m with fails := m.fails + 1, spares := if took then m.spares + 1 else m.spares })) s

/-- MARCH_BORROW (R391 to R393, R400): no row is borrowed in retention (R386). A fail in a spare column of the row is kept (R387). -/
def execMarchBorrow (dt array : Nat) (found : Borrow) (s : State) : Res :=
  let s1 := s.elapse dt
  let m := s1.mem.march
  .next (if !s1.arraysUp || !m.running || m.target != 0 || m.mode != 0 || m.aborting then s1
    else
      match m.nextRow array with
      | none => s1
      | some row =>
        let (m1, before) := m.take array row
        match found with
        | .tested fails =>
          let mine := fails.filter (fun c => c.bank == row % 64 && c.row == row / 64)
          (((s1.noteSpares (mine.map (fun c => (array, c)))).onMarch (fun _ => { m1 with rows := m1.rows + 1 })).rowFails array
            (mine.filter (fun c => decide (c.column < 576)))).onMarch (March.settle array)
        | .yielded => s1.onMarch (fun _ => ({ m1 with yields := m1.yields + 1 }.putOff array row before).settle array)
        | .notBorrowed => s1.onMarch (fun _ => (m1.putOff array row before).settle array))

/-! ### MARCH_END -/

/-- Rows that an aborted preserving march leaves. -/
def March.rowsLeft (m : March) : Nat :=
  (m.pos.map (fun p => arrayRows - p.2)).foldl (· + ·) 0 + m.skipped.length + (m.last + 1 - m.nextUnit) * arrayRows

/-- An aborted march whose rows the manual does not count: the rows tested are free (log 2), the others are untested. -/
def State.endFree (total : Nat) (s : State) : State :=
  let k := s.free.toNat % (total + 1)
  (s.drawn.onMarch (fun m => { m with rows := m.rows + k, untested := m.untested + (total - k) })).endMarch

/-- A destructive march of SRAM arrays has ended: its fails are recorded, and repaired where they are PERMANENT now. -/
def State.endDestructive (fails : List (Nat × Cell)) (s : State) : State :=
  let m := s.mem.march
  let n := m.last + 1 - m.first
  if m.aborting then s.endFree (n * arrayRows)
  else
    let mine := fails.filter (fun x => decide (m.first ≤ x.1) && decide (x.1 ≤ m.last))
    let s1 := (mine.filter (fun x => (spareOf x).isNone)).foldl (fun s x =>
      let (s1, took) := s.cellFails false x.1 x.2
      s1.onMarch (fun m => { m with fails := m.fails + 1, spares := if took then m.spares + 1 else m.spares })) (s.noteSpares mine)
    (s1.onMarch (fun m => { m with rows := m.rows + n * arrayRows })).endMarch

/-- A CAM row has failed (R400, R463): it is recorded and, after a preserving march or once it is PERMANENT, takes a working spare row. Whether it
is repaired, and whether a spare was taken. -/
def State.camRowFails (b row : Nat) (s : State) : State × Bool × Bool :=
  let s1 := s.locFails (rowLoc b row)
  if s1.mem.repair.any (fun r => r.kind == 2 && r.unit == b && r.index == row) then (s1, true, false)
  else if s.mem.march.mode == 1 && !s1.isPermanent (rowLoc b row) then (s1, false, false)
  else match s1.freeSpares 2 b 0 with
    | i :: _ => (s1.repairAdd { kind := 2, source := 4, unit := b, bank := 0, index := row, spare := i }, true, true)
    | [] => (if s1.isPermanent (rowLoc b row) then s1 else s1.locFails (rowLoc b row), false, false)

/-- The failing rows of a marched CAM bank, counted; whether each is repaired. -/
def State.camRowsFail (b : Nat) (rows : List Nat) (s : State) : State × Bool :=
  rows.foldl (fun a r =>
    let (s1, good, took) := a.1.camRowFails b r
    (s1.onMarch (fun m => { m with spares := if took then m.spares + 1 else m.spares }), a.2 && good)) (s, true)

/-- A CAM bank has been marched: rows that failed are recorded and repaired, a bank with a row left unrepaired fails and is out of service, and
the next bank of the range is taken (R299, R395, R400, log 72). -/
def State.endCam (b : Nat) (all : List (Nat × Cell)) (s : State) : State :=
  let m := s.mem.march
  if m.aborting then s.endFree ((m.last + 1 - b) * camRows)
  else
    let mine := all.filter (fun x => x.1 == b && decide (x.2.row < 8200))
    let fails := (mine.filter (fun x => decide (x.2.row < 8192))).map (·.2)
    let (s1, good) := (s.noteSpares (mine.map (fun x => (88 + x.1, x.2)))).camRowsFail b (ascendingOf (fails.map (·.row)))
    let s2 := if good then s1 else (s1.bankFailed b).eventFull evCapacity 0 b 4 1 0
    let s3 := s2.onMarch (fun m => { m with rows := m.rows + camRows, fails := m.fails + fails.length, camBank := none })
    if m.nextUnit ≤ m.last then
      match s3.beginCam m.nextUnit with
      | some s4 => s4
      | none => (s3.onMarch (fun m => { m with untested := m.untested + (m.last + 1 - m.nextUnit) * camRows })).endMarch
    else s3.endMarch

/-- MARCH_END (R396): fails are those of a destructive march by array, or of the CAM bank under test; a preserving march of SRAM arrays has
reported its own. While the Sill core is down its cmp record waits (R394), and in retention the engine stands still (R386). -/
def execMarchEnd (dt : Nat) (fails : List (Nat × Cell)) (s : State) : Res :=
  let s1 := s.elapse dt
  let m := s1.mem.march
  .next (if !s1.arraysUp || !m.running || s1.mem.sillHalted then s1
    else if m.target == 1 then
      match m.camBank with
      | some b =>
        let busy := (List.range 32).any (fun n => s1.ber.reloading.contains n)
        if busy && !m.aborting then s1 else s1.endCam b fails
      | none => s1.endMarch
    else if m.mode == 1 then
      if m.waiting.isEmpty || m.aborting then s1.endDestructive fails else s1
    else if m.aborting then (s1.onMarch (fun m => { m with untested := m.untested + m.rowsLeft })).endMarch
    else if m.pos.isEmpty then s1.endMarch
    else s1)

/-! ### BX_MARCH_CTL (R485) -/

/-- A march asked for by register: what R389 refuses starts nothing, and its status is kept. -/
def State.marchCtl (mode : Nat) (target : Bool) (first last : Nat) (s : State) : State :=
  let arg := mode + flag target 2 + first * 2 ^ 4 + last * 2 ^ 11
  if s.isolated then s
  else if !marchForm arg then s.marchStatus stBadPacket
  else if mode == 2 then
    if s.mem.march.running then (s.onMarch (fun m => { m with aborting := true })).marchStatus stOk
    else s.marchStatus stStateConflict
  else
    match s.marchRefusal mode target first last with
    | some st => s.marchStatus st
    | none => s.beginMarch none mode target first last

/-- MARCH_CTL_PRESERVING (R485). -/
def execMarchCtlPreserving (dt : Nat) (target : Bool) (first last : Nat) (s : State) : Res :=
  .next (((s.elapse dt).wakeCause).marchCtl 0 target first last)

/-- MARCH_CTL_DESTRUCTIVE (R485). -/
def execMarchCtlDestructive (dt : Nat) (target : Bool) (first last : Nat) (s : State) : Res :=
  .next (((s.elapse dt).wakeCause).marchCtl 1 target first last)

/-- MARCH_CTL_ABORT (R485). -/
def execMarchCtlAbort (dt : Nat) (target : Bool) (first last : Nat) (s : State) : Res :=
  .next (((s.elapse dt).wakeCause).marchCtl 2 target first last)

end Sys2Proof.Machine
end

