-- ==== Sys2Proof/Machine/Faults.lean ====
section
/-! DEFINITION. Faults (chapter 15; R383 to R385; R324): the patrol scrubber, what each unit fault costs and how it is classed, in-field
tests, the Sill core, the fault history's write-back, retired pages. -/
namespace Sys2Proof.Machine
open Sys2Proof

/-! ### Units (R464) -/

/-- The place of a unit in the history's order. -/
def unitIndex (kind inst : Nat) : Nat := [0, 16, 32, 96, 112, 146, 147].getD kind 148 + inst

/-- A unit's record. -/
def State.unit? (s : State) (kind inst : Nat) : Option FUnit := s.mem.units.find? (fun u => u.kind == kind && u.inst == inst)

/-- Changes a unit's record. -/
def State.onUnit (kind inst : Nat) (f : FUnit → FUnit) (s : State) : State :=
  s.onMem (fun m => { m with units := m.units.map (fun u => if u.kind == kind && u.inst == inst then f u else u) })

/-- The CAPACITY record of a unit that leaves service (out) or re-enters it, for a fault or for an in-field test (R74, R455). -/
def State.capacity_ (kind inst : Nat) (out test : Bool) (s : State) : State :=
  s.eventFull evCapacity 0 inst kind (flag out 0) (flag test 0)

/-! ### The loss of the block (R450, R458, R462) -/

/-- The block is lost: its rescue port sends DOWN to every live member, and every packet not done is answered with BLOCK_DOWN. -/
def State.blockDown (s : State) : State :=
  if s.start.down then s
  else
    let s1 := ((s.onStart (fun g => { g with down := true })).raise cBlockDown).event evBlockDown s.groupNum 0 0
    let s2 := if s1.img.frame.inGroup then s1.liveOthers.foldl (fun s n => s.send n (.down s.groupNum)) s1 else s1
    let st := s2.ing.staged
    let s3 := s2.onIng (fun g => { g with staged := [], working := g.working ++ st.map (fun q => { pkt := q }) })
    (s3.ing.working.map (·.pkt)).foldl (fun s p => s.refuse p stBlockDown) s3

/-! ### Lending (R458) -/

/-- A profile without an in-service unit of a kind is lent the lowest-numbered one: in service, or else one that is only under test. -/
def State.lendTo (kind profile : Nat) (s : State) : State :=
  if s.unitMask kind profile == 0 || !(s.serving_ kind profile).isEmpty then s
  else
    let all := s.mem.units.filter (fun u => u.kind == kind && u.cls != 2)
    match (all.filter (·.inService) ++ all).head? with
    | none => s
    | some u => (s.onMem (fun m => { m with loans := m.loans.filter (fun l => l.1 != kind || l.2.1 != profile) ++ [(kind, profile, u.inst)] })).raise
        cUnitLoss

/-- What follows when a unit of a kind has become PERMANENT: loans, or the loss of the block when no unit of a kind of the frame
partition is left. -/
def State.afterLoss (kind : Nat) (s : State) : State :=
  if 4 ≤ kind then s
  else if s.mem.units.any (fun u => u.kind == kind && u.cls != 2) then (List.range 16).foldl (fun s n => s.lendTo kind n) s
  else s.blockDown

/-! ### What is repeated (R456) -/

/-- Rows on a facet that has left service go to other facets (R271): rows begun there and not whole in parking are asked for again when
the facet has failed; begun says that they are finished first, as before a test (R467). With no facet left for the profile they wait until
one is lent to it or is back (R458). -/
def State.moveRows (facet : Nat) (begun : Bool) (s : State) : State :=
  s.sch.steps.foldl (fun s x => x.desc.entries.foldl (fun s e =>
    let mine (r : Row) : Bool := r.step == x.desc.step && r.slot == e.slot
    if !(e.row && e.facets.contains facet && x.rowsLeft.any (fun r => r.1 == e.slot)) || (begun && s.sch.rows.any mine) then s
    else
      match s.stream? e.slot with
      | none => s
      | some t =>
        let fs := s.assignFacets t []
        if fs.isEmpty then s else
        let lost := s.sch.rows.filter (fun r => mine r && !(r.parked && r.whole (s.panesFor t)))
        let s1 := s.onStep x.desc.step (fun y => { y with desc := { y.desc with
          entries := y.desc.entries.map (fun z => if z.slot == e.slot then { z with facets := fs } else z) } })
        let s2 := s1.onSch (fun g => { g with
          rows := (g.rows.filter (fun r => !lost.contains r)).map (fun r => if mine r then { r with facets := fs } else r) })
        s2.emits (lost.map (fun r => Out.rowResend r.step r.slot r.node))) s) s

/-- Builds that a casement unit was checking are rebuilt on the remaining units, their share reckoned for these (R239). -/
def State.moveBuilds (unit : Nat) (s : State) : State :=
  s.onStr (fun g => { g with builds := g.builds.map (fun b =>
    if !b.units.contains unit then b
    else
      let us := b.units.filter (· != unit)
      let cost := match s.stream? b.slot with
        | some t => (match t.nodeAt b.node with
          | some (ps, _) => (match (s.tables ps).configOf ps with | some c => c.cost | none => 0)
          | none => 0)
        | none => 0
      { b with units := us, share := shareOf cost us.length, sole := b.sole.filter (· != unit) }) })

/-- Segments of a sash lane that fails go to other lanes; the one in progress is processed from its start there, its transom pieces with it
(R147). -/
def State.loseLane (lane : Nat) (work : FaultWork) (s : State) : State :=
  (s.ing.working.filter (fun w => w.lane == some lane)).foldl (fun s w =>
    match s.workVersion w with
    | none => s
    | some v =>
      let s1 := if work == .packet w.pkt.ap w.pkt.pos then
          s.onWork w.pkt (fun w => { w with info := w.info ||| flag true 1, r1 := transomPieces (s.workItems w v) })
        else s
      s1.beginSegment w v) s

/-- Commits of a louvre slice that fails are decoded again, from the state of their streams, on other slices (R179). -/
def State.loseSlice (slice : Nat) (s : State) : State :=
  (s.str.tab.filter (fun t => (t.commit.bind (·.slice)) == some slice)).foldl (fun s t => s.sliceCommit t.id.slot) s

/-- The work of a unit that has failed is repeated elsewhere (R456): encode work shows it by REPLAYED. -/
def State.repeatWork (kind inst : Nat) (work : FaultWork) (s : State) : State :=
  match kind, work with
  | 0, work => s.loseLane inst work
  | 1, _ => s.loseSlice inst
  | 5, .packet ap pos => s.onIng (fun g => { g with working := g.working.map (fun w =>
      if w.pkt.ap == ap && w.pkt.pos == pos then { w with info := w.info ||| flag true 1 } else w) })
  | 2, _ => s.moveBuilds inst
  | 3, _ => s.moveRows inst false
  | _, _ => s

/-- The stream that a work item belongs to. -/
def State.workSlot (s : State) (w : FaultWork) : Option Nat :=
  match w with
  | .none => none
  | .packet ap pos => (s.ing.working.find? (fun x => x.pkt.ap == ap && x.pkt.pos == pos)).bind (fun x => x.pkt.named.map slotOf)
  | .stream slot => some slot
  | .row _ slot _ => some slot

/-- A stream is cancelled at its next step boundary. -/
def State.cancelLater (slot : Nat) (s : State) : State := s.onStream slot (fun t => { t with cancelPending := true })

/-- One more fault of a work item in its run on units of one kind; the third different unit makes the work faulty (R457). -/
def State.runFault (kind inst : Nat) (w : FaultWork) (s : State) : State :=
  if w == .none then s
  else
    let mine (x : FaultWork × List (Nat × Nat)) : Bool := x.1 == w && x.2.any (fun u => u.1 == kind)
    let old := ((s.mem.workRun.find? mine).map (·.2)).getD []
    let units := if old.contains (kind, inst) then old else old ++ [(kind, inst)]
    if 3 ≤ units.length then
      let s1 := s.onMem (fun m => { m with workRun := m.workRun.filter (fun x => !mine x), workFaults := satInc 32 m.workFaults })
      match s1.workSlot w with
      | some slot => s1.cancelLater slot
      | none => s1
    else s.onMem (fun m => { m with workRun := m.workRun.filter (fun x => !mine x) ++ [(w, units)] })

/-! ### Classes (R461, R463, R465) -/

/-- A unit becomes PERMANENT: it stays out of service, the history changes, and R458 applies. -/
def State.makePermanent (kind inst : Nat) (s : State) : State :=
  let s1 := s.onUnit kind inst (fun u => { u with cls := 2, age := 0, inService := false, testing := 0, testStart := none, due := none,
                                                  work := .none })
  let s2 := ((s1.raise cUnitFault).noteUnit (unitIndex kind inst)).afterLoss kind
  if kind == 3 then s2.moveRows inst false else s2

/-- A unit enters SUSPECT, its service time from now on counted. -/
def State.makeSuspect (kind inst : Nat) (s : State) : State :=
  (s.onUnit kind inst (fun u => { u with cls := 1, age := 0, suspectSince := s.aon.time })).noteUnit (unitIndex kind inst)

/-- A unit returns to service (R455). -/
def State.restore (kind inst : Nat) (test : Bool) (s : State) : State :=
  (s.onUnit kind inst (fun u => { u with inService := true, testing := 0, testStart := none, due := none, work := .none })).capacity_ kind inst
    false test

/-- A unit leaves service (R455). -/
def State.withdraw (kind inst : Nat) (test : Bool) (s : State) : State :=
  (s.onUnit kind inst (fun u => { u with inService := false })).capacity_ kind inst true test

/-! ### The Sill core (R462) -/

/-- The two cores disagree: they halt; a SUSPECT core becomes PERMANENT at once. The packet that firmware had in progress is the oldest
one staged for it. -/
def State.lockstep (s : State) : State :=
  if s.mem.sillHalted || s.start.down then s
  else
    let s1 := (s.onUnit 6 0 (fun u => { u with faults := satInc 16 u.faults })).onMem (fun m => { m with
      sillHalted := true, journal := s.ing.staged.find? Pkt.firmware, march := { m.march with aborting := m.march.running } })
    match s1.unit? 6 0 with
    | some u => if u.cls == 1 then (s1.makePermanent 6 0).blockDown else s1
    | none => s1

/-- LOCKSTEP_MISMATCH (R462); it aborts a march as MODE 2 does (R394). -/
def execLockstepMismatch (dt : Nat) (s : State) : Res :=
  let s1 := s.elapse dt
  .next (if s1.start.phase == .run then s1.lockstep else s1)

/-- SILL_RESUME (R462): the self-test has passed and firmware goes on from its journal, or the block is lost. -/
def execSillResume (dt : Nat) (passed : Bool) (s : State) : Res :=
  let s1 := s.elapse dt
  .next (if !s1.mem.sillHalted || s1.start.down then s1
    else if passed then
      let s2 := ((s1.onMem (fun m => { m with sillHalted := false, evQueue := 0 })).onUnit 6 0 (fun u =>
        { u with transients := satInc 32 u.transients })).makeSuspect 6 0
      (s2.raise cLockstep).event evReady s2.img.gen s2.img.frame.personality 1
    else (s1.makePermanent 6 0).blockDown)

/-! ### UNIT_FAULT (R454 to R461) -/

/-- A unit in service fails: its work is repeated elsewhere, and it is classed. -/
def State.unitFails (u : FUnit) (work : FaultWork) (s : State) : State :=
  let k := u.kind
  let i := u.inst
  let s1 := (s.onUnit k i (fun u => { u with faults := satInc 16 u.faults, work := work })).withdraw k i false
  let s2 := (s1.repeatWork k i work).runFault k i work
  if u.cls == 1 then s2.makePermanent k i else s2.onUnit k i (fun u => { u with testing := 3 })

/-- UNIT_FAULT (R456). A Beryl bank that is found failed is replaced at once (R299); the Sill core halts (R462). -/
def execUnitFault (dt kind inst : Nat) (work : FaultWork) (s : State) : Res :=
  let s1 := s.elapse dt
  .next (if !s1.serving || s1.start.down then s1
    else
      match s1.unit? kind inst with
      | none => s1
      | some u =>
        if !u.inService then s1
        else if kind == 6 then s1.lockstep
        else if kind == 4 then (s1.onUnit kind inst (fun u => { u with faults := satInc 16 u.faults })).failBank inst
        else s1.unitFails u work)

/-! ### In-field tests (R466 to R469) -/

/-- Whether work of a kind is queued for a profile (R468). -/
def State.workQueued (s : State) (kind profile : Nat) : Bool :=
  let on (p : Pkt) : Bool := match p.named with
    | some h => (match s.live? h with | some t => t.id.profile == profile | none => false)
    | none => p.standalone
  match kind with
  | 1 => s.str.tab.any (fun t => t.id.profile == profile && t.commit.isSome) || s.undone.any (fun p => p.opcode == 0x0501 && on p)
  | 3 => s.sch.steps.any (fun x => x.rowsLeft.any (fun r => match s.stream? r.1 with | some t => t.id.profile == profile | none => false))
  | _ => s.undone.any (fun p => p.opcode == 0x0401 && on p)

/-- Whether withdrawing a casement unit would take a profile that it serves from the first row of R237 to the second (R468). -/
def State.casementNeeded (s : State) (inst : Nat) : Bool :=
  (List.range 16).any (fun n =>
    let us := s.casements n
    us.contains inst && s.img.grams.any (fun g => g.inSet && g.body.profile == n &&
      decide (ceilDiv g.body.tab.cdCost us.length ≤ 9000) &&
      (us.length == 1 || decide (9000 < ceilDiv g.body.tab.cdCost (us.length - 1)))))

/-- Whether the test of a unit is deferred (R468). -/
def State.deferTest (s : State) (kind inst : Nat) : Bool :=
  if kind == 2 then s.casementNeeded inst
  else if kind == 5 then (List.range 16).any (s.workQueued 5)
  else (List.range 16).any (fun n => s.serving_ kind n == [inst] && s.workQueued kind n)

/-- Kinds that have an in-field test. -/
def testedKinds : List Nat := [0, 1, 2, 3, 5]

/-- Seconds and the test period in ns. -/
def second : Nat := 1000000000
def testPeriod : Nat := 600 * second

/-- Whether a unit holds a work item that it finishes before its test (R467): a lane its segment, a slice its commit, a facet the rows begun,
a casement unit its checks. A transom unit's piece is no item of its own in the model (log 32). -/
def State.unitHolds (s : State) (kind inst : Nat) : Bool :=
  match kind with
  | 0 => s.ing.working.any (fun w => w.lane == some inst)
  | 1 => s.str.tab.any (fun t => t.commit.bind (·.slice) == some inst)
  | 2 => s.str.builds.any (fun b => b.units.contains inst)
  | 3 => s.sch.rows.any (fun r => r.facets.contains inst)
  | _ => false

/-- A unit is withdrawn for its test; rows not begun on a facet go elsewhere, and the test starts when the unit holds no work item (R467). -/
def State.beginTest (kind inst why : Nat) (s : State) : State :=
  let s1 := (s.withdraw kind inst true).onUnit kind inst (fun u => { u with
    testing := why, testStart := if s.unitHolds kind inst then none else some s.aon.time, due := none })
  if kind == 3 then s1.moveRows inst true else s1

/-- INFIELD_TEST_DUE (R466, R468): the test begins, unless another unit of the kind is under test or being classed, or R468 defers it;
a unit that was withdrawn for a test and has finished its work item begins that test. -/
def execInfieldTestDue (dt kind inst : Nat) (s : State) : Res :=
  let s1 := s.elapse dt
  .next (if !s1.serving || s1.start.down || !testedKinds.contains kind then s1
    else
      match s1.unit? kind inst with
      | none => s1
      | some u =>
        if u.testing == 1 || u.testing == 2 then
          if s1.unitHolds kind inst then s1
          else s1.onUnit kind inst (fun u => { u with testStart := some (u.testStart.getD s1.aon.time) })
        else if u.testing != 0 || !u.inService then s1
        else
          let since := u.due.getD s1.aon.time
          let other := s1.mem.units.any (fun x => x.kind == kind && x.testing != 0)
          if other || (s1.deferTest kind inst && decide (s1.aon.time < since + testPeriod)) then
            s1.onUnit kind inst (fun u => { u with due := some since })
          else s1.beginTest kind inst 1)

/-- The cmp record of a requested test (R469): duration and wait are free where the unit's own work item ended at a time that no command
gave (log 2). -/
def State.testDone (u : FUnit) (passed : Bool) (s : State) : State :=
  match u.testPkt with
  | none => s
  | some p =>
    let cls := match s.unit? u.kind u.inst with | some x => x.cls | none => u.cls
    (s.onUnit u.kind u.inst (fun u => { u with testPkt := none })).done p 0 (some (flag passed 0 + cls * 2))
      (u.testStart.map (fun t => s.aon.time - t)) (u.testStart.map (fun t => t - u.testAsked))

/-- A test has ended (R461): a failing unit is PERMANENT; a passing one returns to service, SUSPECT where it was being classed after a
fault, or requalified. -/
def State.endTest (u : FUnit) (passed agreed : Bool) (s : State) : State :=
  let k := u.kind
  let i := u.inst
  let s1 := if passed then (s.onUnit k i (fun u => { u with tests := satInc 32 u.tests })).noteUnit (unitIndex k i) else s
  if u.testing == 3 then
    if passed && agreed then
      let s2 := ((s1.onUnit k i (fun u => { u with transients := satInc 32 u.transients })).makeSuspect k i).restore k i false
      if k == 3 then s2.moveRows i false else s2
    else s1.makePermanent k i
  else if !passed then (s1.makePermanent k i).testDone u passed
  else
    let s2 := if u.cls == 2 then s1.makeSuspect k i else s1
    (s2.restore k i true).testDone u passed

/-- INFIELD_TEST_DONE (R461); a test that waits for the unit's work item has not begun (R467). -/
def execInfieldTestDone (dt kind inst : Nat) (passed agreed : Bool) (s : State) : Res :=
  let s1 := s.elapse dt
  .next (match s1.unit? kind inst with
    | none => s1
    | some u => if u.testing == 0 || !s1.serving || (u.testing != 3 && s1.unitHolds kind inst) then s1 else s1.endTest u passed agreed)

/-- test.lane (R469): the unit gets no new work from now on; a PERMANENT one holds none, so its test begins at once. -/
def laneWork (p : Pkt) (s : State) : State :=
  let kind := bits p.arg 2 0
  let inst := bits p.arg 13 8
  let requalify := bit p.arg 16
  match s.unit? kind inst with
  | none => s.refuse p stBadPacket
  | some u =>
    if u.testing != 0 || (u.cls == 2) != requalify then s.refuse p stStateConflict
    else
      let s1 := if u.inService then s.withdraw kind inst true else s
      let s2 := s1.onUnit kind inst (fun u => { u with
        testing := 2, testAsked := s.aon.time, testPkt := some p, testStart := if s.unitHolds kind inst then none else some s.aon.time,
        due := none })
      if kind == 3 then s2.moveRows inst true else s2

/-- TEST_LANE (R469). -/
def execTestLane (dt ap pos : Nat) (s : State) : Res := .next ((s.elapse dt).runPacket (isOp 0x0C02) ap pos laneWork)

/-- SUSPECT_AGE_EXPIRY (R461): 86,400 s of service without a fault. -/
def execSuspectAgeExpiry (dt kind inst : Nat) (s : State) : Res :=
  let s1 := s.elapse dt
  .next (match s1.unit? kind inst with
    | none => s1
    | some u =>
      if u.cls == 1 && decide (86400 ≤ u.age + (s1.aon.time - u.suspectSince) / second) then
        (s1.onUnit kind inst (fun u => { u with cls := 0, age := 0 })).noteUnit (unitIndex kind inst)
      else s1)

/-- HISTORY_WRITEBACK (R465): a batch of every change each 300 s, and the changes to PERMANENT at any time. -/
def execHistoryWriteback (dt : Nat) (s : State) : Res :=
  let s1 := s.elapse dt
  let all := decide (s1.mem.lastWriteback + 300 * second ≤ s1.aon.time)
  let cls (i : Nat) : Nat := ((s1.mem.units[i]?).map (·.cls)).getD 0
  let us := s1.mem.unwrittenUnits.filter (fun i => all || cls i == 2)
  let ls := s1.mem.unwrittenLocs.filter (fun l => all || l.cls == 2)
  let s2 := s1.onMem (fun m => { m with
    unwrittenUnits := m.unwrittenUnits.filter (fun i => !us.contains i),
    unwrittenLocs := m.unwrittenLocs.filter (fun l => !ls.contains l),
    lastWriteback := if all then s1.aon.time else m.lastWriteback })
  .next (if !s1.serving || (us.isEmpty && ls.isEmpty) then s1 else s2.emit (.historyWrite (us.map (fun i => (i, cls i))) ls))

/-! ### Retired pages (R324) -/

/-- A page is RETIRED: it is recorded, the streams whose chain or prefix holds it are cancelled at their next boundary, and the prefix
records that hold it are dropped. -/
def State.retirePage (page : Nat) (s : State) : State :=
  if s.start.stackMap.kvCount ≤ page then s
  else
    let held := s.slotsWith (fun t => t.kv.contains page || (s.prefixPages t).contains page)
    let recs := (s.sto.pfx.filter (fun r => r.pages.contains page)).map (·.num)
    let s1 := (s.onSto (fun g => { g with ledger := ledgerSet g.ledger ⟨page, .retired, none⟩ })).locFails (pageLoc page)
    (held.foldl (fun s n => s.cancelLater n) s1).dropRecords recs

/-- PAGE_RETIRE (R324). -/
def execPageRetire (dt page : Nat) (s : State) : Res :=
  let s1 := s.elapse dt
  .next (if s1.serving then s1.retirePage page else s1)

/-! ### Uncorrectable errors (R384) -/

/-- The next packet of a stream completes with CANCELLED. -/
def State.markCancelled (h : Nat) (s : State) : State :=
  s.onStr (fun g => { g with memCancel := if g.memCancel.contains h then g.memCancel else g.memCancel ++ [h] })

/-- A stream that a memory error hits is cancelled as by str.cancel; where none of its packets is there to complete with CANCELLED, its
next one does. -/
def State.cancelNow (slot : Nat) (s : State) : State :=
  match s.stream? slot with
  | none => s
  | some t =>
    let waits := s.undone.any (fun p => p.named == some t.handle)
    (if waits then s else s.markCancelled t.handle).closeStream slot none

/-- Streams of a faulted version or grammar are cancelled at their next boundary. -/
def State.cancelAll (f : Stream → Bool) (s : State) : State :=
  (s.str.tab.filter f).foldl (fun s t => (s.cancelLater t.id.slot).markCancelled t.handle) s

/-- A profile version is faulted: no new use finds it, and its space is freed after its last stream. -/
def State.faultVersion (handle : Nat) (s : State) : State :=
  match s.img.versions.find? (fun v => v.handle == handle) with
  | none => s
  | some v =>
    let s1 := s.onImg (fun g => { g with versions := g.versions.map (fun x =>
      if x.uid == v.uid then { x with faulted := true, inSet := false } else x) })
    (s1.cancelAll (fun t => t.id.vuid == v.uid)).sweepVersions

/-- A grammar is faulted. -/
def State.faultGrammar (id : Nat) (s : State) : State :=
  match s.gramNum id with
  | none => s
  | some v =>
    let s1 := s.onImg (fun g => { g with grams := g.grams.map (fun x =>
      if x.uid == v.uid then { x with faulted := true, inSet := false } else x) })
    (s1.cancelAll (fun t => t.parse.guid == v.uid)).sweepGrams

/-- A parse state of a stream becomes BROKEN with BCAUSE 3 (R214, R384); its build ends. -/
def State.breakNode (slot node : Nat) (s : State) : State :=
  match (s.stream? slot).bind (fun t => t.nodeAt node) with
  | none => s
  | some (ps, _) =>
    if ps.gstate == .none || ps.gstate == .broken then s
    else (s.onStr (fun g => { g with builds := g.builds.filter (fun b => b.slot != slot || b.node != node) })).setNode slot node
      { ps with gstate := .broken, bcause := 3 } { guid := ps.guid }

/-- A stack chunk is lost: every parse state that shares it becomes BROKEN (R214). -/
def State.breakChunk (c : Nat) (s : State) : State :=
  let users := s.str.tab.flatMap (fun t => ((t.parses.zipIdx).filter (fun x => x.1.chunks.contains c)).map (fun x => (t.id.slot, x.2)))
  users.foldl (fun s u => s.breakNode u.1 u.2) s

/-- A shutter whose result is discarded is rebuilt with the priority of a committed build, which counts as a miss (R232, R239). -/
def State.rebuild (slot node : Nat) (s : State) : State :=
  let s1 := (s.beginBuild slot node).count bcShutterMiss 1
  s1.onStr (fun g => { g with builds := g.builds.map (fun b => if b.slot == slot && b.node == node then { b with missed := true } else b) })

/-- A cache entry is discarded; the shutters that name it are rebuilt (R232). -/
def State.loseEntry (num : Nat) (s : State) : State :=
  let mine (d : Shutter) : Bool := d.result == .cached num
  let users := s.str.tab.flatMap (fun t =>
    (if mine t.shutter then [(t.id.slot, 0)] else []) ++
    (match t.tree with
      | some tr => ((tr.nodes.zipIdx).filter (fun n => mine n.1.shutter)).map (fun n => (t.id.slot, n.2 + 1))
      | none => []))
  let s1 := s.onStr (fun g => { g with cache := g.cache.filter (fun e => e.num != num) })
  users.foldl (fun s u => s.rebuild u.1 u.2) s1

/-- A memo entry is invalidated (R145): its set and its way, the ways of a set counted in the order of the entries. -/
def State.loseMemo (off : Nat) (s : State) : State :=
  let set := off / 384
  let way := off % 384 / 48
  match (s.img.memo.filter (fun e => e.set == set))[way]? with
  | none => s
  | some e => s.onImg (fun g => { g with memo := g.memo.erase e })

/-- The entry of a stream cannot be read: the stream is cancelled and its slot withdrawn; without KV_HEAD or KV_TAIL its pages stay
allocated. -/
def State.loseSlot (off : Nat) (s : State) : State :=
  let slot := off / 256
  match s.stream? slot with
  | none => s
  | some t =>
    let s1 := (s.cancelNow slot).onStr (fun g => { g with withdrawn := if g.withdrawn.contains slot then g.withdrawn else g.withdrawn ++ [slot] })
    if off % 256 / 8 == 6 && !t.kv.isEmpty then
      (s1.onStream slot (fun t => { t with kv := [] })).onMem (fun m => { m with lostPages := m.lostPages + t.kv.length })
    else s1

/-- A parked row is lost: its step is voided by the block, as a FAIL verdict voids it (R384). -/
def State.loseRow (step slot node : Nat) (s : State) : State :=
  match s.row? step slot node with
  | none => s
  | some _ => s.voidStep true step

/-- A tree record is lost: the stream's tree is dropped (R372). -/
def State.loseTree (record : Nat) (s : State) : State :=
  match s.str.tab.find? (fun t => match t.tree with | some tr => tr.record == record | none => false) with
  | none => s
  | some t => s.dropTree t.id.slot true

/-- A shadow word is rewritten from its array row (R289); while the bank is being reloaded from the shadow there is no such row, and the
entry is restored from its own source (R459, log 116). -/
def State.loseShadow (off : Nat) (s : State) : State :=
  let n := off / 131072
  let row := off % 131072 / 16
  match s.physical n with
  | none => s
  | some b =>
    if s.ber.reloading.contains n then s.distrust n (row / s.bankWidth n)
    else (s.onBer (fun g => { g with shadow := rowSet g.shadow n row (rowAt g.rows b row) })).bankCount b 6 1

/-- Bytes of the stack pool at the start of the Garnet store, and of the shutter pool after it (R210, R229, R381). -/
def State.stackBytes (s : State) : Nat := min (s.pool 1 / 4) (16 * 2 ^ 20)
def State.shutterBytes (s : State) : Nat := s.pool 1 / 8

/-- What an uncorrectable word of a frame pool at an offset costs (R384). -/
def State.loseFrame (pool off : Nat) (owner : MemOwner) (s : State) : State :=
  match pool, owner with
  | 0, .version h => s.faultVersion h
  | 1, .grammar id => if off < s.stackBytes + s.shutterBytes then s else s.faultGrammar id
  | 1, .stream slot =>
    if off < s.stackBytes then s.breakChunk (off / 64)
    else if off < s.stackBytes + s.shutterBytes then s.rebuild slot 0
    else s
  | 1, .cacheEntry num => if off < s.stackBytes then s else s.loseEntry num
  | 2, .row step slot node => s.loseRow step slot node
  | 3, .stream slot => s.cancelNow slot
  | 4, _ => s.loseTree (off / 4096)
  | 5, o =>
    if off < s.pool 5 / 2 then s.loseShadow off
    else (match o with | .stream slot => s.cancelNow slot | _ => s)
  | _, _ => s

/-- What an uncorrectable word costs, by pool (R384). -/
def State.loseWord (array word : Nat) (owner : MemOwner) (s : State) : State :=
  let off (first : Nat) : Nat := (array - first) * 2 ^ 22 + word * 8
  if array < 2 then s.lockstep
  else if array < 18 then s.loseSlot (off 2)
  else if array < 20 then ((s.retirePage (off 18 / 4)).retirePage (off 18 / 4 + 1))
  else if array < 32 then s.loseMemo (off 20)
  else
    match s.poolOf array with
    | some n => s.loseFrame n (off ((s.poolArrays n).headD array)) owner
    | none => s

/-! ### PATROL_SCRUB (R383 to R385) -/

/-- Changes the error counters of an array. -/
def State.onCnt (array : Nat) (f : MemCnt → MemCnt) (s : State) : State :=
  s.onMem (fun m => { m with cnt := modifyAt m.cnt array f })

/-- Words of an array. -/
def arrayWords : Nat := 524288

/-- The bank, row and word of a word address in an array (R380). -/
def wordBank (w : Nat) : Nat := w % 64
def wordRow (w : Nat) : Nat := w / 512
def wordNum (w : Nat) : Nat := w / 64 % 8

/-- What a read of a word comes to (R383, R384). -/
def State.scrubWord (array w : Nat) (found : ReadFound) (s : State) : State :=
  match found with
  | .clean => s
  | .corrected bit recurring =>
    let s1 := s.onCnt array (fun c => { c with ce := satInc 16 c.ce, lastUe := false, bank := wordBank w, row := wordRow w, bit := bit })
    if recurring then (s1.cellFails false array { bank := wordBank w, row := wordRow w, column := wordNum w * 72 + bit }).1 else s1
  | .merged => (s.onCnt array (fun c => { c with ue := satInc 16 c.ue, lastUe := true, bank := wordBank w, row := wordRow w, bit := 0x7F })).raise cMemUncorr
  | .uncorrectable owner =>
    ((s.onCnt array (fun c => { c with ue := satInc 16 c.ue, lastUe := true, bank := wordBank w, row := wordRow w, bit := 0x7F })).raise
      cMemUncorr).loseWord array w owner

/-- PATROL_SCRUB (R385): the scrubber reads the next word of an array; with read given, another master's read has found what it tells in that
word (R383, R384). -/
def execPatrolScrub (dt array : Nat) (scrub : PatrolIn) (s : State) : Res :=
  let s1 := s.elapse dt
  let ok := match scrub.found with | .corrected bit _ => decide (bit < 72) | _ => true
  .next (if s1.serving && decide (array < 88) && !s1.mem.withdrawn.contains array && ok then
      match scrub.read with
      | some w => if w < arrayWords then s1.scrubWord array w scrub.found else s1
      | none =>
      let w := s1.mem.patrolPos.getD array 0
      (s1.onMem (fun m => { m with patrolPos := modifyAt m.patrolPos array (fun p => (p + 1) % arrayWords) })).scrubWord array w scrub.found
    else s1)

end Sys2Proof.Machine
end

