-- ==== Sys2Proof/Machine/Start.lean ====
section
/-! DEFINITION. Start-up (R426 to R428): the march at start, the fault history, repair, the stack map, the boot image, READY. -/
namespace Sys2Proof.Machine
open Sys2Proof

/-! ### Beginning (R388, R427) -/

/-- Changes the start record. -/
def State.atStep (n : Nat) (s : State) : State := s.onStart (fun g => { g with step := n, failed := false })

/-- A delivery of the management controller is asked for. -/
def State.ask (what : Nat) (s : State) : State := s.emit (.mcRequest what)

/-- The block leaves isolation, its first domains lock, and the march leaves every array clear; what failed is kept for the repair map. -/
def State.beginStart (warm : Bool) (fails : List (Nat × Cell)) (s : State) : State :=
  let on (d : Nat) : Bool := d == 0 || d == 5 || d == 6
  ((s.onStart (fun g => { g with phase := .starting, warm := warm, step := 5, failed := false, fails := fails })).onAon (fun a =>
    { a with domains := (List.range 7).map (fun d => (if on d then .gated else .off, a.time)) })).ask 0

/-- Fails that name a cell of an SRAM array or a row of a CAM bank (numbered from 88 on), spare rows and columns included. -/
def realFails (l : List (Nat × Cell)) : List (Nat × Cell) :=
  l.filter (fun x => if x.1 < 88 then decide (x.2.bank < 64) && decide (x.2.row < 1032) && decide (x.2.column < 580)
    else decide (x.1 < 122) && decide (x.2.row < 8200))

/-- COLD_START (R426): steps 2 to 4, from isolation. -/
def execColdStart (dt : Nat) (fails : List (Nat × Cell)) (s : State) : Res :=
  let s1 := s.elapse dt
  .next (if s1.start.phase == .isolated || (s1.start.phase == .starting && s1.start.step == 2) then
      s1.beginStart false (realFails fails)
    else s1)

/-- WARM_START (R427): steps 2 to 4, from AON ONLY. -/
def execWarmStart (dt : Nat) (fails : List (Nat × Cell)) (s : State) : Res :=
  let s1 := s.elapse dt
  .next (if s1.start.phase == .aonOnly then s1.beginStart true (realFails fails) else s1)

/-! ### The fault history (R464) -/

/-- Unit entry i of a history; none where it fails a range check. -/
def unitEntry (i : Nat) (b : Bytes) : Option FUnit :=
  let e := slice b (32 + 16 * i) 16
  match unitsAtReset[i]? with
  | none => none
  | some u =>
    let cls := rd e 2 1
    if rd e 0 1 == u.kind && rd e 1 1 == u.inst && decide (cls ≤ 2) && rd e 3 1 == 0 && (cls == 1 || rd e 8 4 == 0) then
      some { u with cls := cls, transients := rd e 4 4, age := rd e 8 4, tests := rd e 12 4, inService := cls != 2 }
    else none

/-- Location entry i of a history. -/
def locEntry (i : Nat) (b : Bytes) : Option Loc :=
  let e := slice b (32 + 16 * 148 + 16 * i) 16
  let l : Loc := { kind := rd e 0 1, cls := rd e 1 1, unit := rd e 2 1, bank := rd e 3 1, index := rd e 4 4, fails := rd e 8 2 }
  let inRange := match l.kind with
    | 0 => decide (l.unit < 88) && decide (l.bank < 64) && l.index == bits l.index 9 0 + bits l.index 25 16 * 2 ^ 16 &&
        decide (bits l.index 25 16 < 576)
    | 1 => decide (l.unit < 34) && l.bank == 0 && decide (l.index < 8192)
    | 2 => l.unit == 0 && l.bank == 0 && decide (l.index < 2 ^ 21)
    | _ => false
  if inRange && (l.cls == 1 || l.cls == 2) && allZero (slice e 10 6) then some l else none

/-- A list of entries that are all good. -/
def allGood {α : Type} (l : List (Option α)) : Option (List α) := l.mapM id

/-- A fault history: WORK_FAULTS, the units, the locations (R464). -/
def parseHistory (b : Bytes) : Option (Nat × List FUnit × List Loc) :=
  let n := rd b 8 4
  if decide (b.length < 32) || rd b 0 4 != 0x48465842 || rd b 4 1 != 1 || rd b 5 1 != 0 || rd b 6 2 != 148 || decide (65536 < n) ||
      b.length != 32 + 16 * 148 + 16 * n || rd b 12 4 != crc32c (b.take 12 ++ b.drop 32) || !allZero (slice b 0x14 12) then none
  else
    match allGood ((List.range 148).map (fun i => unitEntry i b)), allGood ((List.range n).map (fun i => locEntry i b)) with
    | some us, some ls => some (rd b 16 4, us, ls)
    | _, _ => none

/-! ### The repair map (R398, R399) -/

/-- SOURCE of an entry: a march fail at start-up, a location of the history (R401). -/
def sourceOf (march history : Bool) : Nat := flag march 0 + flag history 1

/-- The cell of a location. -/
def Loc.cell (l : Loc) : Cell := { bank := l.bank, row := bits l.index 9 0, column := bits l.index 25 16 }

/-- An array is withdrawn (R399): start-up fails where it belongs to a fixed pool. -/
def State.withdrawArray (array src : Nat) (s : State) : State :=
  if s.mem.withdrawn.contains array then s
  else
    let s1 := (s.onMem (fun m => { m with withdrawn := m.withdrawn ++ [array] })).repairAdd
      { kind := 4, source := src, unit := array, bank := 0, index := 0, spare := 0 }
    if array < 32 then (s1.onStart (fun g => { g with failed := true })).raise cMemRepair else s1

/-- The cells of one SRAM bank are repaired, or its array is withdrawn (R398, R399). -/
def State.repairSram (array bank : Nat) (march history : List Cell) (s : State) : State :=
  let fails := (march ++ history).eraseDups
  let at_ (f : Cell → Bool) : Nat := sourceOf (march.any f) (history.any f)
  let rows := (List.range 8).filter (fun i => !s.mem.badSpares.contains (0, array, bank, i))
  let cols := (List.range 4).filter (fun i => !s.mem.badSpares.contains (1, array, bank, i))
  match repairBank rows.length cols.length fails with
  | none => s.withdrawArray array (at_ (fun _ => true))
  | some a =>
    let s1 := (a.rows.zip rows).foldl (fun s r => s.repairAdd
      { kind := 0, source := at_ (fun c => c.row == r.1), unit := array, bank := bank, index := r.1, spare := r.2 }) s
    (a.cols.zip cols).foldl (fun s c => s.repairAdd
      { kind := 1, source := at_ (fun x => x.column == c.1), unit := array, bank := bank, index := c.1, spare := c.2 }) s1

/-- The rows of one CAM bank take spare rows in ascending order; a bank with more of them than working spares fails (R398, R399). -/
def State.repairCam (bank : Nat) (march history : List Nat) (s : State) : State :=
  let rows := ascendingOf (march ++ history)
  let spares := (List.range 8).filter (fun i => !s.mem.badSpares.contains (2, bank, 0, i))
  if spares.length < rows.length then s.bankFailed bank
  else (rows.zip spares).foldl (fun s r => s.repairAdd
    { kind := 2, source := sourceOf (march.contains r.1) (history.contains r.1), unit := bank, bank := 0, index := r.1, spare := r.2 }) s

/-- Distinct pairs of an array and a bank. -/
def banksHit (l : List (Nat × Cell)) : List (Nat × Nat) := (l.map (fun x => (x.1, x.2.bank))).eraseDups

/-- The repair map is built from the march and the history (R398), and the march's fails are recorded (R463). -/
def State.buildRepair (s : State) : State :=
  let march := s.start.fails.filter (fun x => (spareOf x).isNone)
  let past := s.mem.locs.filter (fun l => l.cls == 2)
  let sram := march.filter (fun x => decide (x.1 < 88))
  let old := (past.filter (fun l => l.kind == 0)).map (fun l => (l.unit, l.cell))
  let cell (x : Nat × Nat) (l : List (Nat × Cell)) : List Cell := (l.filter (fun y => y.1 == x.1 && y.2.bank == x.2)).map (·.2)
  let s1 := (banksHit (sram ++ old)).foldl (fun s x => s.repairSram x.1 x.2 (cell x sram) (cell x old)) s
  let rowsOf (b : Nat) : List Nat := (march.filter (fun x => x.1 == 88 + b)).map (·.2.row)
  let oldRows (b : Nat) : List Nat := (past.filter (fun l => l.kind == 1 && l.unit == b)).map (·.index)
  let s2 := (List.range 34).foldl (fun s b => if s.ber.failed.contains b then s else s.repairCam b (rowsOf b) (oldRows b)) s1
  let locs := (march.map (fun x => if x.1 < 88 then cellLoc x.1 x.2 else rowLoc (x.1 - 88) x.2.row)).eraseDups
  locs.foldl (fun s l => s.locFails l) s2

/-- Logical banks are mapped (R274): a failed physical bank is left out, and the first free spare takes its place. -/
def State.mapBanks (s : State) : State :=
  (List.range 32).foldl (fun s n =>
    if !s.ber.failed.contains n then s
    else
      let src := if s.mem.unwrittenUnits.contains (unitIndex 4 n) then 1 else 2
      let q := ([32, 33].filter (fun b => !s.ber.failed.contains b && !s.ber.map.contains (some b))).head?
      (s.onBer (fun b => { b with map := modifyAt b.map n (fun _ => q) })).mapEntry n q src) s

/-- Steps 5 and 6 (R426): the history is taken, empty where it is bad (R464); repair, units, banks, pages. -/
def State.takeHistory (bytes : Bytes) (s : State) : State :=
  let r := State.reset
  let s0 := ((s.onMem (fun m => { m with repair := [], repairChanges := 0, badSpares := [], withdrawn := [], unwrittenUnits := [], unwrittenLocs := [] })).onBer (fun b =>
    { b with map := r.ber.map, failed := [] })).atStep 5
  let s1 := match parseHistory bytes with
    | none => (s0.onMem (fun m => { m with units := unitsAtReset, locs := [], workFaults := 0 })).raise cHistory
    | some (w, us, ls) => (s0.onMem (fun m => { m with units := us, locs := ls, workFaults := w })).onBer (fun b =>
        { b with failed := (us.filter (fun (u : FUnit) => u.kind == 4 && u.cls == 2)).map (fun (u : FUnit) => u.inst) })
  let s2 := (s1.noteSpares s1.start.fails).buildRepair
  if s2.start.failed then s2.ask 0
  else
    let pages := ascendingOf ((s2.mem.locs.filter (fun (l : Loc) => l.kind == 2 && l.cls == 2)).map (fun (l : Loc) => l.index))
    ((s2.mapBanks.onSto (fun g => { g with ledger := pages.map (fun p => ⟨p, .retired, none⟩) })).atStep 7).ask 1

/-! ### Firmware and the stack map (R85, R321) -/

/-- The regions of a stack map: base and size. -/
def StackMap.regions (m : StackMap) : List (Nat × Nat) :=
  [(m.kvBase, m.kvCount * 2 ^ 18), (m.ovfBase, 2 ^ 30), (m.pauseBase, 16 * 2 ^ 30), (m.handleBase, 8 * 2 ^ 20)]

/-- The stack map that 64 bytes spell. -/
def stackMapOf (b : Bytes) : StackMap :=
  { kvBase := rd b 0 8, kvCount := rd b 8 4, ovfBase := rd b 16 8, pauseBase := rd b 24 8, handleBase := rd b 32 8 }

/-- Whether a stack map is whole, in range, aligned and without overlap (R321). -/
def stackMapOk (b : Bytes) : Bool :=
  let m := stackMapOf b
  let apart (x y : Nat × Nat) : Bool := decide (x.1 + x.2 ≤ y.1) || decide (y.1 + y.2 ≤ x.1)
  b.length == 64 && decide (1 ≤ m.kvCount) && decide (m.kvCount ≤ 2097152) && m.kvBase % 2 ^ 18 == 0 && m.ovfBase % 4096 == 0 &&
  m.pauseBase % 65536 == 0 && m.handleBase % 64 == 0 && noPair (fun x y => !apart x y) m.regions

/-- Step 7 (R426): keys and stack map. -/
def State.takeFirmware (keys : List (Option (Nat × Nat))) (map : Bytes) (s : State) : State :=
  let s1 := (s.onStart (fun g => { g with keys := (List.range 4).map (fun i => keys.getD i none) })).atStep 7
  if stackMapOk map then
    let m := stackMapOf map
    (((s1.onStart (fun g => { g with stackMap := m })).onSto (fun g =>
      { g with ledger := g.ledger.filter (fun e => decide (e.page < m.kvCount)) })).atStep 8).ask 2
  else ((s1.onStart (fun g => { g with failed := true })).raise cStackMap).ask 1

/-! ### The boot image (R86, R88, R105, R108, R399) -/

/-- Whether the withdrawn arrays leave every pool of the frame its minimum (R399). -/
def State.poolsHold (s : State) : Bool := (List.range 6).all (fun n => decide (poolMin.getD n 0 * 2 ^ 20 ≤ s.pool n))

/-- The boot image installed, or none when any check fails: its own frame applies from the start. No step boundary is waited for, and
no IMAGE record is written: R495 writes it when a commit takes effect under R110 (log 22). -/
def State.bootCommit (b : Bytes) (s : State) : Option State :=
  match imageHeader b with
  | .inr h =>
    match h.dir.find? (fun d => d.kind == 1) with
    | none => none
    | some d =>
      let f := frameOf (d.body b)
      if h.additive || b.length != h.total || (bit f.sigPolicy 0 && h.dir.any (fun e => !e.isSigned)) || (s.contentFault b 0).isSome then
        none
      else
        let s1 := s.onImg (fun g => { g with frame := f })
        if !s1.poolsHold then none
        else
          match s1.reserveImage 0 0 b h with
          | .inl _ => none
          | .inr (_, s2) =>
            match s2.stage (s2.slot 0) with
            | .inl _ => none
            | .inr l =>
              if (s2.commitRefusal l true).isSome then none
              else ((s2.setSlot 0 l).enterSlot 0).map (fun s3 => s3.install 0 (s3.slot 0))
  | .inl _ => none

/-- Step 9 (R426): READY. A block of a group is FORMING and sends JOIN (R431, R432). -/
def State.goReady (s : State) : State :=
  let s1 := (s.onStart (fun g => { g with phase := .run, step := 9, ready := true, failed := false })).onMem (fun m =>
    { m with lastWriteback := s.aon.time, repairChanges := 0, units := m.units.map (fun u => { u with suspectSince := s.aon.time }) })
  let s2 := s1.event evReady s1.img.gen s1.img.frame.personality 0
  if s2.img.frame.inGroup then (s2.onCas (fun c => { c with st := .forming, joining := true })).sendJoin else s2

/-- Step 8 (R426). -/
def State.takeBoot (b : Bytes) (s : State) : State :=
  match s.bootCommit b with
  | some s1 => s1.goReady
  | none => ((s.onStart (fun g => { g with failed := true })).raise cBootImage).ask 2

/-- MC_DELIVERY (R426, R428): what the step in progress waits for; at any other time it is only a wake cause (R413). -/
def execMcDelivery (dt : Nat) (delivery : Delivery) (s : State) : Res :=
  let s1 := s.elapse dt
  .next (if s1.start.phase != .starting then s1.wakeCause
    else match delivery, s1.start.step with
      | .history b, 5 => s1.takeHistory b
      | .firmware keys map, 7 => s1.takeFirmware keys map
      | .bootImage b, 8 => s1.takeBoot b
      | _, _ => s1)

end Sys2Proof.Machine
end

