-- ==== Sys2Proof/Machine/Cascade.lean ====
section
/-! DEFINITION. Cascaded blocks (R431 to R440, R449 to R453): forming and joining, beats and departures, polls and takeover, the time
base, leaving, rescue, the grp packets. The ledger's own messages are in Budget, chained lookups in Prefix and Open. -/
namespace Sys2Proof.Machine
open Sys2Proof

/-! ### Members and roles -/

/-- Whether n blocks are a quorum: more than half of MEMBERS (R431). -/
def State.quorum (s : State) (n : Nat) : Bool := decide ((bitList 64 s.img.frame.members).length < 2 * n)

/-- The bitmap with a member's bit set, or clear. -/
def withBit (m n : Nat) : Nat := if m.testBit n then m else m + 2 ^ n
def noBit (m n : Nat) : Nat := if m.testBit n then m - 2 ^ n else m

/-- Whether a block acts as one of the group. -/
def State.inGroup (s : State) : Bool := s.cas.st == .member || s.cas.st == .deputy || s.cas.st == .master

/-- The deputy that a block names: the live member with the lowest group number other than itself (R433, R436). -/
def State.nextDeputy (s : State) : Nat := s.liveOthers.headD s.groupNum

/-- A GROUP record: a change of epoch, master or deputy (R438). -/
def State.groupEvent (s : State) : State := s.event evGroup s.cas.epoch s.cas.master s.cas.deputy

/-- This block's role under a master and a deputy. -/
def State.roleOf (s : State) : CState :=
  if s.cas.master == s.groupNum then .master else if s.cas.deputy == s.groupNum then .deputy else .member

/-- Changes the cascade record and takes the role that follows. -/
def State.withRoles (f : Casc → Casc) (s : State) : State :=
  let s1 := s.onCas f
  s1.onCas (fun c => { c with st := s1.roleOf })

/-- The time base steps forward, never backward (R439). -/
def State.stepTo (t : Nat) (s : State) : State := s.onAon (fun a => { a with time := max a.time t })

/-- The figures of grp.query subject 1 for this block (R452). -/
def State.ownFigures (s : State) : Figures :=
  { imgGen := s.img.gen, profiles := bitMap (s.residentProfiles.map (·.1)), freeSlots := s.freeSlots,
    personality := s.img.frame.personality, freePages := s.freeCount }

/-! ### The ledger at a change of roles (R441, R443) -/

/-- What waited for a deputy that is gone: with a new deputy every record is mirrored anew, and its last acknowledgement lets all of it
happen; without one it happens now. -/
def State.syncLedger (s : State) : State :=
  let old := s.cas.owed.flatten
  match s.mirror with
  | some d =>
    let n := s.cas.ledger.length
    if n == 0 then old.foldl (fun s o => s.payOwed o) (s.onCas (fun c => { c with owed := [] }))
    else
      s.cas.ledger.foldl (fun s b => s.send d (.ledger (.put b.params b.level)))
        (s.onCas (fun c => { c with owed := List.replicate (n - 1) [] ++ [old] }))
  | none => old.foldl (fun s o => s.payOwed o) (s.onCas (fun c => { c with owed := [] }))

/-- Unanswered GRANT_REQ and BUD_FWD go to the new master (R443); a block that is master now answers them itself. Local records that are
spent ask (log 140). -/
def State.resend (s : State) : State :=
  let asks := s.sto.budgets.filter (·.requested)
  let s1 := asks.foldl (fun s b =>
    if s.cas.st == .master then s.masterGrant s.groupNum b.tenant b.quantum else s.send s.cas.master (.grantReq b.tenant b.quantum)) s
  let s2 := s.sto.budgets.foldl (fun s b => s.askSpent b.tenant) s1
  if s2.cas.st == .master then
    s2.cas.fwd.foldl (fun s f => s.masterSet f.2.2 (fun l => .localDone f.2.1 stOk l)
        (fun l s => s.done f.2.1 0 (some (levelWord l)) none none) (fun s => s.refuse f.2.1 stNoSpace))
      (s2.onCas (fun c => { c with fwd := [] }))
  else s2.cas.fwd.foldl (fun s f => s.send s.cas.master (.budFwd f.2.2 f.1)) s2

/-- The ledger index of WELCOME (R434): a local record for every tenant of it; one whose tenant has no group record is gone (log 141). -/
def State.followIndex (tenants : List BudSet) (s : State) : State :=
  let gone := s.sto.budgets.filter (fun b => !tenants.any (fun r => r.tenant == b.tenant))
  tenants.foldl (fun s r => s.followLedger r) (gone.foldl (fun s b => s.followLedger (removal b.tenant)) s)

/-- Local records without what was granted or refilled: positive levels go, and nothing is asked for (R434, R443). -/
def State.dropGrants (s : State) : State :=
  s.onSto (fun g => { g with budgets := g.budgets.map (fun b =>
    { b with level := min (s.fresh b).level 0, rem := 0, last := s.aon.time, requested := false }) })

/-- bud.set packets of a master that stops acting cannot be finished: they are refused as in ORPHAN (R441). -/
def State.dropOwed (s : State) : State :=
  let mine := s.cas.owed.flatten.filterMap (fun o => match o with | .localDone p _ _ => some p | _ => none)
  mine.foldl (fun s p => s.refuse p stStateConflict) (s.onCas (fun c => { c with owed := [], reqWaiting := [] }))

/-! ### Forming and joining (R432 to R435, R440) -/

/-- A joiner's WELCOME. -/
def State.sendWelcome (n : Nat) (s : State) : State :=
  s.send n (.welcome s.cas.epoch s.cas.live s.cas.asleep s.cas.master s.cas.deputy s.now (s.cas.ledger.map Budget.params))

/-- The master takes a block in: live, not asleep. -/
def State.admitMember (n : Nat) (s : State) : State :=
  s.onCas (fun c => { c with live := withBit c.live n, asleep := noBit c.asleep n, acks := assocSet c.acks n s.aon.time })

/-- This block forms the group (R433). -/
def State.form (s : State) : State :=
  let them := s.cas.joins.map (·.1)
  let t := (s.cas.joins.map (·.2)).foldl max s.aon.time
  let s1 := s.stepTo t
  let live := bitMap (s1.groupNum :: them)
  let s2 := s1.onCas (fun c => { c with
    st := .master, epoch := t % 2 ^ 32, master := s1.groupNum, live := live, asleep := 0, welcomed := true, joining := false,
    firstJoin := none, lastBeat := t, acks := them.map (fun n => (n, t)), polls := [], slew := 0 })
  let d := s2.img.frame.deputy
  let s3 := s2.onCas (fun c => { c with deputy := if d != s2.groupNum && live.testBit d then d else s2.nextDeputy, joins := [] })
  (them.foldl (fun s n => s.sendWelcome n) s3.groupEvent).syncLedger.resend

/-- Whether the JOIN messages received make a quorum with this block. -/
def State.canForm (s : State) : Bool := s.quorum (s.cas.joins.length + 1)

/-- Whether a block is looking for a group: FORMING, ORPHAN, or LEFT after grp.join (R432). -/
def State.seeking (s : State) : Bool := s.cas.st == .forming || s.cas.st == .orphan || (s.cas.st == .left && s.cas.joining)

/-- JOIN (R432 to R435, R440): the master welcomes a block with its own frame CRC that is not more than 1 ms ahead; the frame's MASTER
forms the group on a quorum; a joiner that hears of another frame sets the group-frame cause bit. -/
def execJoin (dt : Nat) (hdr : MsgHdr) (frameCrc time : Nat) (s : State) : Res :=
  .next ((s.elapse dt).hear hdr false (fun s =>
    if frameCrc != s.img.frame.crc then (if s.cas.joining then s.raise cGroupFrame else s)
    else if s.cas.st == .master then
      if s.aon.time + 1000000 < time then s else (s.admitMember hdr.source).sendWelcome hdr.source
    else if s.seeking then
      let s1 := s.onCas (fun c => { c with joins := assocSet c.joins hdr.source time })
      if s1.img.frame.master == s1.groupNum && s1.canForm then s1.form else s1
    else s))

/-- JOIN_TIMER (R432): every 100 µs until WELCOME. -/
def execJoinTimer (dt : Nat) (s : State) : Res :=
  let s1 := s.elapse dt
  .next (if s1.serving && !s1.start.down && s1.cas.joining && decide (s1.cas.lastJoin + 100000 ≤ s1.aon.time) then s1.sendJoin else s1)

/-- FORM_TIMEOUT (R433): 10 ms after its first JOIN, the lowest of the blocks that can gather a quorum forms the group. -/
def execFormTimeout (dt : Nat) (s : State) : Res :=
  let s1 := s.elapse dt
  let due := match s1.cas.firstJoin with | some t => decide (t + 10000000 ≤ s1.aon.time) | none => false
  .next (if s1.serving && !s1.start.down && s1.seeking && due && s1.canForm && s1.cas.joins.all (fun j => decide (s1.groupNum < j.1)) then
      s1.form
    else s1)

/-- WELCOME (R434, R439, R440): the joiner is a member, and takes the ledger index; a block that is more than 1 ms ahead of the master is
not. A block that had left gives up what its own buckets held. -/
def execWelcome (dt : Nat) (hdr : MsgHdr) (newEpoch live asleep master deputy time : Nat) (tenants : List BudSet) (s : State) : Res :=
  .next ((s.elapse dt).hear hdr false (fun s =>
    if !s.cas.joining then s
    else if time + 1000000 < s.aon.time then s.raise cGroupTime
    else
      let s0 := if s.cas.st == .left then s.dropGrants else s
      let s1 := if s0.aon.time + 10000 < time then s0.stepTo time else s0
      let changed := s.cas.epoch != newEpoch || s.cas.master != master || s.cas.deputy != deputy
      let s2 := s1.withRoles (fun c => { c with
        epoch := newEpoch, live := live, asleep := asleep, master := master, deputy := deputy, welcomed := true, joining := false,
        firstJoin := none, joins := [], polls := [], lastBeat := s1.aon.time, slew := 0 })
      let s3 := if changed then s2.groupEvent else s2
      (s3.followIndex tenants).resend.unholdAll))

/-! ### Beats and departures (R436, R439, R449) -/

/-- BEAT_TIMER (R436): the master, every 100 µs. -/
def execBeatTimer (dt : Nat) (s : State) : Res :=
  let s1 := s.elapse dt
  .next (if s1.serving && !s1.start.down && s1.cas.st == .master && decide (s1.cas.lastBeat + 100000 ≤ s1.aon.time) then
      let figures := assocSet s1.cas.figures s1.groupNum s1.ownFigures
      s1.liveOthers.foldl (fun s n => s.send n (.beat s.now s.cas.live s.cas.deputy ((assoc s.cas.delays n).getD 0) figures))
        (s1.onCas (fun c => { c with lastBeat := s1.aon.time, figures := figures }))
    else s1)

/-- BEAT (R436, R439): target, live bitmap, deputy and figures are taken, members no longer live are gone, and BEAT_ACK goes back. -/
def execBeat (dt : Nat) (hdr : MsgHdr) (time live deputy delay : Nat) (figures : List (Nat × Figures)) (s : State) : Res :=
  .next ((s.elapse dt).hear hdr true (fun s =>
    if hdr.source != s.cas.master || !(s.cas.st == .member || s.cas.st == .deputy) then s
    else
      let gone := s.liveOthers.filter (fun n => !live.testBit n)
      let changed := s.cas.deputy != deputy
      let s1 := s.withRoles (fun c => { c with
        live := live, deputy := deputy, figures := figures, lastBeat := s.aon.time, slew := ((time + delay : Nat) : Int) - (s.aon.time : Int),
        polls := [] })
      let s2 := gone.foldl (fun s n => s.memberGone n) s1
      let s3 := if changed then s2.groupEvent else s2
      s3.send s3.cas.master (.beatAck time s3.now s3.ownFigures)))

/-- BEAT_ACK (R436, R439): half of the round trip, the member's turnaround taken off. -/
def execBeatAck (dt : Nat) (hdr : MsgHdr) (echo received turnaround : Nat) (figures : Figures) (s : State) : Res :=
  .next ((s.elapse dt).hear hdr true (fun s =>
    let _ := received
    if s.cas.st == .master && s.cas.live.testBit hdr.source then
      s.onCas (fun c => { c with acks := assocSet c.acks hdr.source s.aon.time, figures := assocSet c.figures hdr.source figures,
                                 delays := assocSet c.delays hdr.source ((s.aon.time - echo - turnaround) / 2) })
    else s))

/-- A member leaves the live bitmap of the master; if it was the deputy, another is named, and the ledger is mirrored anew. -/
def State.notLive (n : Nat) (s : State) : State :=
  let s1 := s.onCas (fun c => { c with live := noBit c.live n, acks := c.acks.filter (fun a => a.1 != n),
                                       reqWaiting := c.reqWaiting.filter (fun r => r.1 != n) })
  if s1.cas.deputy == n then
    let s2 := s1.onCas (fun c => { c with deputy := s1.nextDeputy })
    s2.groupEvent.syncLedger
  else s1

/-- The master declares a member departed (R436, R449). -/
def State.depart (n : Nat) (s : State) : State := (s.notLive n).memberGone n

/-- MEMBER_DEPART_TIMEOUT (R436): 1 ms without a BEAT_ACK. -/
def execMemberDepartTimeout (dt member : Nat) (s : State) : Res :=
  let s1 := s.elapse dt
  let silent := decide ((assoc s1.cas.acks member).getD 0 + 1000000 ≤ s1.aon.time)
  .next (if s1.serving && !s1.start.down && s1.cas.st == .master && member != s1.groupNum && s1.cas.live.testBit member && silent then
      s1.depart member
    else s1)

/-- A block enters ORPHAN and sends JOIN (R432, R436, R437). -/
def State.orphan (s : State) : State :=
  (s.onCas (fun c => { c with st := .orphan, joining := true, joins := [], firstJoin := none, polls := [], slew := 0 })).dropOwed.sendJoin

/-- QUORUM_LOSS_TIMEOUT (R436): the master steps down without the acknowledgements of a quorum within 800 µs. -/
def execQuorumLossTimeout (dt : Nat) (s : State) : Res :=
  let s1 := s.elapse dt
  let heard := (s1.cas.acks.filter (fun a => s1.cas.live.testBit a.1 && decide (s1.aon.time < a.2 + 800000))).length
  .next (if s1.serving && !s1.start.down && s1.cas.st == .master && !s1.quorum (heard + 1) then s1.orphan else s1)

/-! ### Polls and takeover (R437, R438) -/

/-- The members that a deputy polls: live, and not the master that it misses. -/
def State.polled (s : State) : List Nat := s.liveOthers.filter (fun n => n != s.cas.master)

/-- DEPUTY_POLL_TIMEOUT (R437): 1 ms without BEAT. -/
def execDeputyPollTimeout (dt : Nat) (s : State) : Res :=
  let s1 := s.elapse dt
  .next (if s1.serving && !s1.start.down && s1.cas.st == .deputy && decide (s1.cas.lastBeat + 1000000 ≤ s1.aon.time) then
      s1.polled.foldl (fun s n => s.send n .poll) (s1.onCas (fun c => { c with polls := [] }))
    else s1)

/-- POLL (R437). -/
def execPoll (dt : Nat) (hdr : MsgHdr) (s : State) : Res :=
  .next ((s.elapse dt).hear hdr true (fun s =>
    if s.inGroup && hdr.source == s.cas.deputy then
      s.send hdr.source (.pollAns (s.cas.st == .master || decide (s.aon.time < s.cas.lastBeat + 1000000)))
    else s))

/-- A lost block's streams are asked for (R450). -/
def State.askRescue (s : State) : State := s.cas.lost.foldl (fun s n => s.send n (.rescue n [])) s

/-- The deputy becomes master (R437, R438): TAKEOVER goes out under the old epoch, then the new one holds. gone is the old master
where it is not there any more. -/
def State.takeOver (gone : Option Nat) (s : State) : State :=
  let e := (s.cas.epoch + 1) % 2 ^ 32
  let s1 := match gone with
    | some n => s.onCas (fun c => { c with live := noBit c.live n })
    | none => s
  let d := s1.nextDeputy
  let s2 := s1.liveOthers.foldl (fun s n => s.send n (.takeover e d)) s1
  let s3 := s2.onCas (fun c => { c with
    st := .master, epoch := e, master := s2.groupNum, deputy := d, lastBeat := s2.aon.time, polls := [], slew := 0, owed := [],
    reqWaiting := [], acks := s2.liveOthers.map (fun n => (n, s2.aon.time)) })
  let s4 := match gone with | some n => s3.groupEvent.memberGone n | none => s3.groupEvent
  s4.syncLedger.resend.askRescue

/-- POLL_ANS (R437): answers without a recent BEAT, and this block, make a quorum. -/
def execPollAns (dt : Nat) (hdr : MsgHdr) (recent : Bool) (s : State) : Res :=
  .next ((s.elapse dt).hear hdr true (fun s =>
    if s.cas.st != .deputy || recent || decide (s.aon.time < s.cas.lastBeat + 1000000) then s
    else
      let s1 := s.onCas (fun c => { c with polls := if c.polls.contains hdr.source then c.polls else c.polls ++ [hdr.source] })
      if s1.quorum (s1.cas.polls.length + 1) then s1.takeOver (some s1.cas.master) else s1))

/-- TAKEOVER (R437, R443): adopted only from the current deputy under the current epoch. -/
def execTakeover (dt : Nat) (hdr : MsgHdr) (newEpoch newDeputy : Nat) (s : State) : Res :=
  .next ((s.elapse dt).hear hdr true (fun s =>
    if !s.inGroup || hdr.source != s.cas.deputy then s
    else
      let s1 := s.withRoles (fun c => { c with epoch := newEpoch, master := hdr.source, deputy := newDeputy, lastBeat := s.aon.time,
                                               polls := [] })
      s1.groupEvent.resend))

/-- LEDGER (R438, R441): the deputy mirrors the record and acknowledges; every member follows it in its local record. The final LEDGER
of a hand-over makes the deputy master at once. -/
def execLedger (dt : Nat) (hdr : MsgHdr) (change : LedgerChange) (s : State) : Res :=
  .next ((s.elapse dt).hear hdr true (fun s =>
    match change with
    | .put b level =>
      let s1 := s.followPut b
      if s1.cas.st == .deputy then (s1.mirrorPut b level).send hdr.source .ledgerAck else s1
    | .remove t =>
      let s1 := s.followPut (removal t)
      if s1.cas.st == .deputy then
        (s1.onCas (fun g => { g with ledger := g.ledger.filter (fun x => x.tenant != t) })).send hdr.source .ledgerAck
      else s1
    | .final records =>
      if s.cas.st == .deputy && hdr.source == s.cas.master then
        (records.foldl (fun s r => s.mirrorPut r.1 r.2) (s.onCas (fun c => { c with ledger := [] }))).takeOver none
      else s))

/-- ORPHAN_TIMEOUT (R437): 2 ms without BEAT. -/
def execOrphanTimeout (dt : Nat) (s : State) : Res :=
  let s1 := s.elapse dt
  .next (if s1.serving && !s1.start.down && (s1.cas.st == .member || s1.cas.st == .deputy) &&
      decide (s1.cas.lastBeat + 2000000 ≤ s1.aon.time) then s1.orphan
    else s1)

/-! ### Slewing (R439) -/

/-- TIME_SLEW_TICK (R439): 1 ns of fine count added, or withheld, at most once every 5 µs. -/
def execTimeSlewTick (dt : Nat) (s : State) : Res :=
  let s1 := s.elapse dt
  .next (if !(s1.cas.st == .member || s1.cas.st == .deputy) || s1.cas.slew == 0 || decide (s1.aon.time < s1.cas.lastSlew + 5000) then s1
    else if 0 < s1.cas.slew then
      (s1.onAon (fun a => { a with time := a.time + 1 })).onCas (fun c => { c with slew := c.slew - 1, lastSlew := s1.aon.time })
    else if dt == 0 then s1
    else (s1.onAon (fun a => { a with time := a.time - 1 })).onCas (fun c => { c with slew := c.slew + 1, lastSlew := s1.aon.time }))

/-! ### Leaving (R435, R443, R451) -/

/-- Units that a leaving member returns go back to the bucket, which they cannot overfill. -/
def State.takeBack (x : Nat × Nat) (s : State) : State :=
  match s.group? x.1 with
  | none => s
  | some b0 =>
    let b := b0.refill s.aon.time
    s.onCas (fun c => { c with ledger := budgetPut c.ledger { b with level := min b.cap (b.level + x.2) } })

/-- LEAVE (R435, R443). -/
def execLeave (dt : Nat) (hdr : MsgHdr) (sleep : Bool) (units : List (Nat × Nat)) (s : State) : Res :=
  .next ((s.elapse dt).hear hdr true (fun s =>
    if s.cas.st != .master || !s.cas.live.testBit hdr.source then s
    else
      let s1 := (units.foldl (fun s x => s.takeBack x) s).notLive hdr.source
      if sleep then s1.onCas (fun c => { c with asleep := withBit c.asleep hdr.source }) else s1.memberGone hdr.source))

/-- grp.leave (R443, R451). -/
def leaveWork (p : Pkt) (s : State) : State :=
  if s.cas.st == .master || s.str.tab.any (fun t => t.state != .closed) then s.refuse p stStateConflict
  else if !s.img.frame.inGroup then s.done p 0 none none none
  else
    let pos := (s.sto.budgets.filter (fun b => decide (0 < b.level))).map (fun b => (b.tenant, b.level.toNat))
    let s1 := if s.inGroup then s.send s.cas.master (.leave false pos) else s
    (s1.dropGrants.onCas (fun c => { c with st := .left, joining := false, joins := [], firstJoin := none, slew := 0 })).done p 0 none none none

/-- GRP_LEAVE (R451). -/
def execGrpLeave (dt ap pos : Nat) (s : State) : Res := .next ((s.elapse dt).runPacket (isOp 0x0B03) ap pos leaveWork)

/-- grp.handover (R438): a final LEDGER, then the block stops acting; it is a member until the deputy's TAKEOVER comes. -/
def handoverWork (p : Pkt) (s : State) : State :=
  match s.cas.st, s.mirror with
  | .master, some d =>
    let l := s.cas.ledger.map (fun b => ((b.refill s.aon.time).params, (b.refill s.aon.time).level))
    (((s.send d (.ledger (.final l))).dropOwed).onCas (fun c => { c with st := .member, lastBeat := s.aon.time })).done p 0 none none none
  | _, _ => s.refuse p stStateConflict

/-- GRP_HANDOVER (R438, R451). -/
def execGrpHandover (dt ap pos : Nat) (s : State) : Res := .next ((s.elapse dt).runPacket (isOp 0x0B04) ap pos handoverWork)

/-- grp.join (R432, R451). -/
def joinWork (p : Pkt) (s : State) : State :=
  if s.cas.st == .left then ((s.onCas (fun c => { c with joining := true })).sendJoin).done p 0 none none none
  else s.refuse p stStateConflict

/-- GRP_JOIN (R451). -/
def execGrpJoin (dt ap pos : Nat) (s : State) : Res := .next ((s.elapse dt).runPacket (isOp 0x0B05) ap pos joinWork)

/-! ### Rescue (R450, R453) -/

/-- DOWN (R450): the master begins the rescue; any other member remembers a lost master, so that a deputy that takes over rescues it. -/
def execDown (dt : Nat) (hdr : MsgHdr) (lost : Nat) (s : State) : Res :=
  .next ((s.elapse dt).hear hdr false (fun s =>
    let s1 := s.onCas (fun c => { c with lost := if c.lost.contains lost then c.lost else c.lost ++ [lost] })
    if s.cas.st == .master then s1.send lost (.rescue lost []) else if lost == s.cas.master then s1 else s))

/-- A stream that a rescue re-creates: paused by summary or in a KV tier (R450). -/
def rescued (t : Stream) : Bool := t.state == .paused && (match t.pause with | some r => decide (r.pmode < 2) | none => false)

/-- Live members that hold a profile, with their free slots: those of their figures, and this block's own. -/
def State.holders (s : State) (lost profile : Nat) : List (Nat × Nat) :=
  ((assocSet s.cas.figures s.groupNum s.ownFigures).filter (fun f =>
    f.1 != lost && s.cas.live.testBit f.1 && f.2.profiles.testBit profile)).map (fun f => (f.1, f.2.freeSlots))

/-- The member that takes a rescued stream: the most free slots, the lowest group number among equals. -/
def State.rescueTo (s : State) (lost profile : Nat) : Option Nat :=
  (minBy (fun f => (slotCount - f.2) * 64 + f.1) (s.holders lost profile)).map (·.1)

/-- One stream of a lost block is re-created; its slots count for the next. -/
def State.rescueOne (lost : Nat) (s : State) (b : PkgBody) : State :=
  match s.rescueTo lost b.profile with
  | none => s
  | some n =>
    let s1 := s.onCas (fun c => { c with rescues := c.rescues ++ [(lost, b.oldHandle, n)],
                                         figures := c.figures.map (fun f =>
                                           if f.1 == n then (n, { f.2 with freeSlots := f.2.freeSlots - 1 }) else f) })
    if n == s.groupNum then s1.receivePackage s.groupNum b else s1.send n (.package b)

/-- RESCUE (R450): a lost block's rescue port answers with its paused streams in slot order; the master re-creates them. -/
def execRescue (dt : Nat) (hdr : MsgHdr) (lost : Nat) (streams : List PkgBody) (s : State) : Res :=
  .next ((s.elapse dt).arrives hdr false (fun s =>
    if s.start.down then
      if lost == s.groupNum then
        let mine := sortBy (fun a b => decide (a.id.slot < b.id.slot)) (s.str.tab.filter rescued)
        s.send hdr.source (.rescue lost (mine.map (fun t => s.packageOf t false false)))
      else s
    else if s.cas.st == .master && s.cas.lost.contains lost then
      streams.foldl (State.rescueOne lost) (s.onCas (fun c => { c with lost := c.lost.filter (· != lost) }))
    else s))

/-- LINK_UNREACHABLE (R449, R450): nothing is rescued, and the block is treated as departed. -/
def execLinkUnreachable (dt member : Nat) (s : State) : Res :=
  let s1 := s.elapse dt
  .next (if !s1.serving || s1.start.down || !s1.inGroup || member == s1.groupNum then s1
    else
      let s2 := s1.onCas (fun c => { c with lost := c.lost.filter (· != member) })
      if s2.cas.st == .master then (if s2.cas.live.testBit member then s2.depart member else s2)
      else if s2.cas.live.testBit member && member != s2.cas.master then
        (s2.onCas (fun c => { c with live := noBit c.live member })).memberGone member
      else s2)

/-- The identity of a rescued stream in the rescue list. -/
def State.rescuedAs (s : State) (group handle : Nat) : Option (Nat × Nat) :=
  (s.cas.rescueList.find? (fun x => x.1 == (group, handle))).map (·.2)

/-- grp.locate's answer (R453). -/
def State.locateDone (p : Pkt) (answer : Option (Nat × Nat)) (s : State) : State :=
  match answer with
  | some (g, h) => s.done p 0 (some (g + h * 2 ^ 32)) none none
  | none => s.refuse p stNotResident

/-- grp.locate (R453): the master looks in its rescue list, a member asks the master. -/
def locateWork (p : Pkt) (s : State) : State :=
  let h := rd p.payload 0 4
  let g := bits (rd p.payload 4 1) 5 0
  if !s.inGroup then s.refuse p stStateConflict
  else if s.cas.st == .master then s.locateDone p (s.rescuedAs g h)
  else (s.onCas (fun c => { c with locates := c.locates ++ [(p.tag, p)] })).send s.cas.master (.locate p.tag h g)

/-- GRP_LOCATE (R453). -/
def execGrpLocate (dt ap pos : Nat) (s : State) : Res := .next ((s.elapse dt).runPacket (isOp 0x0B02) ap pos locateWork)

/-- GRP_LOCATE_ANSWER (R453). -/
def execGrpLocateAnswer (dt : Nat) (hdr : MsgHdr) (tag : Nat) (answer : Option (Nat × Nat)) (s : State) : Res :=
  .next ((s.elapse dt).hear hdr true (fun s =>
    match s.cas.locates.find? (fun l => l.1 == tag) with
    | none => s
    | some l => (s.onCas (fun c => { c with locates := c.locates.erase l })).locateDone l.2 answer))

/-! ### grp.query (R452) -/

/-- The code of a cascade state (R431). -/
def cascadeCode : CState → Nat
  | .alone => 0
  | .forming => 1
  | .member => 2
  | .deputy => 3
  | .master => 4
  | .orphan => 5
  | .left => 6

/-- grp.query (R452). -/
def grpQueryWork (p : Pkt) (s : State) : State :=
  let c := s.cas
  if bits p.arg 1 0 == 0 then
    let recs := if c.st == .master || c.st == .deputy then c.ledger.length else 0
    s.done p 0 (some c.live) (some (c.epoch + c.master * 2 ^ 32 + c.deputy * 2 ^ 40 + cascadeCode c.st * 2 ^ 48))
      (some (recs + s.sto.budgets.length * 2 ^ 32))
  else
    let n := bits p.arg 13 8
    let f := if n == s.groupNum then some s.ownFigures else assoc c.figures n
    match (if c.live.testBit n then f else none) with
    | none => s.refuse p stNotResident
    | some f =>
      s.done p 0 (some (f.imgGen + f.profiles * 2 ^ 16 + f.freeSlots * 2 ^ 32))
        (some (f.personality + flag (c.asleep.testBit n) 3)) (some f.freePages)

/-- GRP_QUERY (R452). -/
def execGrpQuery (dt ap pos : Nat) (s : State) : Res := .next ((s.elapse dt).runPacket (isOp 0x0B01) ap pos grpQueryWork)

end Sys2Proof.Machine
end

