-- ==== Sys2Proof/Machine/Packets.lean ====
section
/-! DEFINITION. Triash packets and egress records (chapter 02): aperture writes and reads, consumption, credit words,
sys.* packets, ring polls, signals and ring faults. -/
namespace Sys2Proof.Machine
open Sys2Proof

/-! ### Apertures (R29 to R42) -/

/-- Bytes of an aperture, of the credit window, of the ingress region. -/
def apertureSize : Nat := 0x100000
def creditWindow : Nat := 262144
def regionSize : Nat := 64 * apertureSize

/-- Aperture n. -/
def State.ap (s : State) (n : Nat) : Aperture := s.ing.aps.getD n {}

/-- Changes aperture n. -/
def State.onAp (n : Nat) (f : Aperture → Aperture) (s : State) : State :=
  s.onIng (fun g => { g with aps := modifyAt g.aps n f })

/-- The position whose byte lies at an aperture offset (R33): the nearest one from 262,144 bytes below the consumed count on. An offset just
below the consumed count is a late write of what was consumed, such as padding, and no violation (log 126). -/
def Aperture.position (a : Aperture) (off : Nat) : Nat :=
  let low := a.consumed - creditWindow
  let p := low - low % apertureSize + off
  if p < low then p + apertureSize else p

/-- One DWORD recorded; a partial write leaves its mark for good (R34). -/
def Aperture.record (a : Aperture) (pos : Nat) (d : Dword) : Aperture :=
  let old := (a.dwords.find? (fun w => w.pos == pos)).map (·.whole)
  let w : WDword := { pos := pos, val := d.val, whole := d.whole && old.getD true }
  let rest := a.dwords.filter (fun x => x.pos != pos)
  { a with dwords := insertBy (fun x y => decide (x.pos < y.pos)) w rest }

/-- DWORDs recorded from a position on; those below the consumed count are never read (R33). -/
def Aperture.recordAll (a : Aperture) (pos : Nat) : List Dword → Aperture
  | [] => a
  | d :: ds => (if pos < a.consumed then a else a.record pos d).recordAll (pos + 4) ds

/-- A write discarded and counted (R31, R37, R40, R42). -/
def Aperture.discard (a : Aperture) : Aperture := { a with discarded := satInc 16 a.discarded }

/-- A halt (R40): every byte discarded, the consumed count at the halt position, an APERTURE_HALT record. -/
def State.halt (n pos reason : Nat) (s : State) : State :=
  (s.onAp n (fun a => { a with halted := true, haltPos := pos, consumed := pos, dwords := [] })).event evApertureHalt n pos
    reason

/-- A host write within one aperture (R31, R34, R36, R37, R40, R42). A write that is discarded before READY binds no port; one that is
discarded for a halt or a credit violation is the aperture's first write all the same (log 127). A halted aperture that meets a
credit violation stays where it halted. -/
def State.writeAp (n : Nat) (port : Bool) (off : Nat) (data : List Dword) (s : State) : State :=
  let a := s.ap n
  if !s.serving then s.onAp n Aperture.discard
  else if a.boundTo == some (!port) then (s.onAp n (fun a => { a.discard with portViol := true })).raise cAptPort
  else
    let s1 := s.onAp n (fun a => { a with boundTo := some port })
    let p := a.position off
    if p + 4 * data.length > a.consumed + creditWindow then
      let s2 := (s1.onAp n (fun a => { a.discard with creditViol := true })).raise cAptCredit
      if a.halted then s2 else s2.halt n a.consumed 2
    else if a.halted then s1.onAp n Aperture.discard
    else s1.onAp n (fun a => a.recordAll p data)

/-- A host write that starts at a region offset, cut where apertures meet. -/
def State.writeRegion (port : Bool) (off : Nat) (data : List Dword) (s : State) : State :=
  let n := off / apertureSize
  let o := off % apertureSize
  let k := (apertureSize - o) / 4
  if data.length ≤ k then s.writeAp n port o data
  else (s.writeAp n port o (data.take k)).writeAp (n + 1) port 0 (data.drop k)

/-- APERTURE_WRITE (R34): a write of 4 B to 4,096 B at a DWORD-aligned offset of the region (R29, R30); in SLEEP it is a
wake cause (R413). The block accepts no other write, which changes nothing (log 128). -/
def execApertureWrite (dt : Nat) (port : Bool) (offset : Nat) (data : List Dword) (s : State) : Res :=
  if offset % 4 == 0 && 1 ≤ data.length && data.length ≤ 1024 && offset + 4 * data.length ≤ regionSize then
    .next (((s.elapse dt).wakeCause).writeRegion port offset data)
  else .next (s.elapse dt)

/-- The apertures that a read touches; a read of no bytes touches the one at its offset. -/
def touchedAps (offset size : Nat) : List Nat :=
  (List.range 64).filter (fun n => decide (n * apertureSize < offset + max size 1) && decide (offset < (n + 1) * apertureSize))

/-- APERTURE_READ (R30): zeros, and the read counter of each aperture that the read touches, whatever its length; what lies beyond
the region is no aperture (log 128). -/
def execApertureRead (dt : Nat) (port : Bool) (offset size : Nat) (s : State) : Res :=
  .next (((touchedAps offset size).foldl (fun s n => s.onAp n (fun a => { a with reads := satInc 16 a.reads })) (s.elapse dt)).emit
    (.readData port offset size 0))

/-! ### Consumption (R33 to R40, R48, R78) -/

/-- n bytes from a position, n a multiple of 4: every DWORD written, and whether all were whole; none otherwise. -/
def Aperture.gather (a : Aperture) (pos : Nat) : Nat → Option (Bytes × Bool)
  | 0 => some ([], true)
  | k + 1 =>
    match a.dwords.find? (fun w => w.pos == pos), a.gather (pos + 4) k with
    | some w, some (bs, ok) => some (leBytes 4 w.val.toNat ++ bs, w.whole && ok)
    | _, _ => none

/-- The credit word of an aperture is written (R38). -/
def State.writeCredit (n : Nat) (s : State) : State :=
  let a := s.ap n
  (s.onAp n (fun a => { a with creditWritten := a.consumed })).emit (.credit n a.creditAddr a.consumed strictWrite)

/-- Whether credit write-back is on and an advance is not yet written (R38, R39, R67). -/
def Aperture.creditDue (a : Aperture) : Bool :=
  a.creditAddr != 0 && a.creditOn && decide (a.creditWritten < a.consumed)

/-- The credit word is written at once after an advance of 16,384 or more (R38). -/
def State.creditStep (n : Nat) (s : State) : State :=
  let a := s.ap n
  if a.creditDue && decide (a.creditWritten + 16384 ≤ a.consumed) then s.writeCredit n else s

/-- Bytes of the consumed packets of an aperture that are not yet executed. -/
def State.stagedBytes (s : State) (ap : Nat) : Nat :=
  ((s.ing.staged.filter (fun q => q.ap == ap)).map (fun q => 36 + q.payload.length)).foldl (· + ·) 0

/-- Events in the Sill core's queue (R78, R462): packets whose turn it is and that need firmware, and the returns of slots and evt records
that came while the core was down. A packet that its own stream or a FENCE holds back is no event yet, so that one stream's pressure
stops no other aperture (R79). -/
def State.events (s : State) : Nat :=
  (s.ing.staged.filter (fun q => q.firmware && s.mayStart q)).length + s.mem.evQueue

/-- Whether consumption of a packet must wait: its ring has a cmp record waiting, the aperture's part of the staging area has no room for it
beside what is already there, text staging has none for the text of a stream, or the firmware event queue is full (R78, R462; log 8). -/
def State.stopped (s : State) (p : Pkt) : Bool :=
  (s.ring p.ring).waiting.any (fun w => match w.2 with | .cmp _ => true | _ => false) ||
  (s.stagedBytes p.ap != 0 && decide (Config.ingressRoom < s.stagedBytes p.ap + 36 + p.payload.length)) ||
  ((p.opcode == 0x0401 || p.opcode == 0x0402) && !s.textRoom p.payload.length) ||
  decide (65536 ≤ s.events)

/-- Checks 1 to 4 of R48 on a consumed packet: refused, or staged for execution. A lost block answers BLOCK_DOWN
(R54). -/
def State.judge (p : Pkt) (b : Bytes) (whole : Bool) (s : State) : State :=
  if s.start.down then s.refuse p stBlockDown
  else if !whole || crc32c (b.take (32 + p.payload.length)) != rd b (32 + p.payload.length) 4 then s.refuse p stBadCrc
  else if !check2 p b then s.refuse p stBadPacket
  else if !check3 p.opcode then s.refuse p stUnknownOp
  else if !check4 p then s.refuse p stBadPacket
  else s.onIng (fun g => { g with staged := g.staged ++ [p] })

/-- Consumption of the next announced packet of an aperture (R35). -/
def State.consume (n : Nat) (s : State) : State :=
  let a := s.ap n
  if a.halted || !s.serving then s
  else
    match a.gather a.consumed 8 with
    | none => s
    | some (h, _) =>
      let len := rd h 4 4
      if rd h 18 1 != 1 || len > 65536 then s.halt n a.consumed 1
      else
        let total := 36 + len
        match a.gather a.consumed (ceilDiv total 4) with
        | none => s
        | some (b, whole) =>
          let p := Pkt.ofBytes n a.consumed b
          if s.stopped p then s
          else
            let next := ceilDiv (a.consumed + total) 64 * 64
            let s1 := s.onAp n (fun a => { a with consumed := next, dwords := a.dwords.filter (fun w => decide (next ≤ w.pos)) })
            let s2 := if p.opcode == 0x0401 then s1.wakeDomain 1 else s1
            (s2.judge p b whole).creditStep n

/-- PACKET_CONSUME (R35). -/
def execPacketConsume (dt ap : Nat) (s : State) : Res := .next ((s.elapse dt).consume ap)

/-- CREDIT_WORD_TIMER (R38): an advance not yet written is written. -/
def execCreditWordTimer (dt ap : Nat) (s : State) : Res :=
  let s1 := s.elapse dt
  .next (if (s1.ap ap).creditDue then s1.writeCredit ap else s1)

/-! ### sys packets (R41, R46, R47, R58 to R61) -/

/-- RESULT1 of sys.hello (R46). -/
def State.helloR1 (s : State) : Nat := s.img.gen + s.img.frame.personality * 2 ^ 16 + s.cas.epoch * 2 ^ 32

/-- A reset of an aperture (R41, R488): unconsumed bytes discarded, the consumed count at the next multiple of 0x10_0000
above, the port binding cleared; the advance may owe a credit word (R38). -/
def State.resetAp (n : Nat) (s : State) : State :=
  (s.onAp n (fun a => { a with consumed := (a.consumed / apertureSize + 1) * apertureSize, boundTo := none, halted := false,
                               haltPos := 0, dwords := [] })).creditStep n

/-- sys.hello without ARG[8] (R46). -/
def helloWork (p : Pkt) (s : State) : State :=
  let s1 := s.onAp p.ap (fun a => { a with creditAddr := le p.payload, creditOn := true })
  (s1.done p 0 (some s1.bxId) (some s1.helloR1) (some (s1.ap p.ap).consumed)).creditStep p.ap

/-- SYS_HELLO (R46). -/
def execSysHello (dt ap pos : Nat) (s : State) : Res :=
  .next ((s.elapse dt).runPacket (fun p => isOp 0x0101 p && !bit p.arg 8) ap pos helloWork)

/-- sys.hello with ARG[8] (R41, R46): the reset aperture takes the payload's credit-word address and its new count is
written there. -/
def helloResetWork (p : Pkt) (s : State) : State :=
  let n := bits p.arg 5 0
  let s1 := (s.resetAp n).onAp n (fun a => { a with creditAddr := le p.payload, creditOn := true })
  let s2 := if (s1.ap n).creditAddr == 0 then s1 else s1.writeCredit n
  s2.done p 0 (some s2.bxId) (some s2.helloR1) (some (s2.ap n).consumed)

/-- SYS_HELLO_APERTURE_RESET (R41). -/
def execSysHelloApertureReset (dt ap pos : Nat) (s : State) : Res :=
  .next ((s.elapse dt).runPacket (fun p => isOp 0x0101 p && bit p.arg 8) ap pos helloResetWork)

/-- sys.time (R47). -/
def timeWork (p : Pkt) (s : State) : State :=
  s.done p 0 (some s.now) (some (s.cas.epoch + s.cas.master * 2 ^ 32)) none

/-- SYS_TIME (R47). -/
def execSysTime (dt ap pos : Nat) (s : State) : Res :=
  .next ((s.elapse dt).runPacket (isOp 0x0103) ap pos timeWork)

/-- The ring number that a sys.ring packet names, and its ENABLE bit. -/
def Pkt.ringNum (p : Pkt) : Nat := rd p.payload 0 1
def Pkt.ringEnable (p : Pkt) : Bool := bit (rd p.payload 1 1) 0

/-- The staged evt records go to the event ring, oldest first, then one EVENTS_LOST record with the count of those discarded, be it
zero (R60). -/
def State.flushEvents (n : Nat) (s : State) : State :=
  let s1 := s.egr.evStaged.foldl (fun s e => s.egress n (.evt e)) (s.onEgr (fun g => { g with evStaged := [] }))
  (s1.onEgr (fun g => { g with evLost := 0 })).event evEventsLost s.egr.evLost 0 0

/-- sys.ring with ENABLE set (R58 to R60). Records written before the ring was last disabled and not yet signalled count on (log 129). -/
def ringEnableWork (p : Pkt) (s : State) : State :=
  match ringReq p.payload with
  | none => s.refuse p stBadPacket
  | some r =>
    if (s.ring r.ring).enabled then s.refuse p stStateConflict
    else
      let s1 := if r.events then s.onEgr (fun e => { e with rings := e.rings.map (fun g => { g with events := false }) }) else s
      let s2 := s1.onRing r.ring (fun g =>
        { g with enabled := true, events := r.events, coalesce := r.coalesce, vector := r.vector, sizeLog2 := r.sizeLog2,
                 base := r.base, headAddr := r.headAddr, modCount := r.modCount, modTime := r.modTime, tail := 0, head := 0,
                 coal := none, waiting := [], closing := false, waitSince := none, stallSent := false })
      (if r.events then s2.flushEvents r.ring else s2).done p 0 none none none

/-- SYS_RING_ENABLE (R58). -/
def execSysRingEnable (dt ap pos : Nat) (s : State) : Res :=
  .next ((s.elapse dt).runPacket (fun p => isOp 0x0102 p && p.ringEnable) ap pos ringEnableWork)

/-- A ring is disabled; the records that waited for it, one kept back for coalescing included, are discarded and counted (R61). VECTOR and
MOD_TIME stay, and what was written before is still signalled (R59, R75). -/
def State.disableRing (n : Nat) (s : State) : State :=
  let k := (s.ring n).waiting.length + (if (s.ring n).coal.isSome then 1 else 0)
  ((s.onRing n (fun g => { g with enabled := false, coal := none, waiting := [], closing := false, waitSince := none, stallSent := false,
                                  lost := g.lost + k })).count bcRecordsLost k).releaseRing

/-- Whether a stream outside FREE and CLOSED names a ring (R59). -/
def State.ringNamed (s : State) (n : Nat) : Bool := s.str.tab.any (fun t => t.id.ring == n && t.state != .closed)

/-- sys.ring with ENABLE clear (R59, R61): its own cmp record goes to the ring before the ring is disabled. -/
def ringDisableWork (p : Pkt) (s : State) : State :=
  let n := p.ringNum
  if s.ringNamed n then s.refuse p stStateConflict
  else if p.ring == n then
    let s1 := (s.done p 0 none none none).flushCoal n
    if (s1.ring n).waiting.isEmpty then s1.disableRing n else s1.onRing n (fun g => { g with closing := true })
  else (s.disableRing n).done p 0 none none none

/-- SYS_RING_DISABLE (R59). -/
def execSysRingDisable (dt ap pos : Nat) (s : State) : Res :=
  .next ((s.elapse dt).runPacket (fun p => isOp 0x0102 p && !p.ringEnable) ap pos ringDisableWork)

/-! ### Rings in time (R61, R65 to R67, R75) -/

/-- Writes the waiting records of a ring that now fit, in order, with fuel (R65, R66). -/
def State.drain (n : Nat) : Nat → State → State
  | 0, s => s
  | k + 1, s =>
    match (s.ring n).waiting with
    | [] => s
    | (_, r) :: rest =>
      if (s.ring n).fits r then State.drain n k ((s.onRing n (fun g => { g with waiting := rest })).put n r) else s

/-- A ring that no record waits for ends its waiting period; a ring that was to be disabled is (R61, R66). -/
def State.settleRing (n : Nat) (s : State) : State :=
  if (s.ring n).waiting.isEmpty then
    let s1 := s.onRing n (fun g => { g with waitSince := none, stallSent := false })
    if (s1.ring n).closing then s1.disableRing n else s1
  else s

/-- Whether the block reads the host's consumed count (R65): its own view of free space is below a quarter of the ring, or a record waits. -/
def Ring.pollDue (g : Ring) : Bool := g.enabled && (decide (4 * (g.head + g.size - g.tail) < g.size) || !g.waiting.isEmpty)

/-- RING_HEAD_POLL (R65): when it is due, the host's consumed count is read, and waiting records are written as they fit. -/
def execRingHeadPoll (dt ring value : Nat) (s : State) : Res :=
  let s1 := s.elapse dt
  .next (if (s1.ring ring).pollDue then
      let s2 := (s1.emit (.headRead ring (s1.ring ring).headAddr)).onRing ring (fun g => { g with head := value })
      ((s2.drain ring (s2.ring ring).waiting.length).settleRing ring).releaseRing
    else s1)

/-- RING_STALL (R66): one record for a waiting period of 100 ms, unless the event ring itself is stalled. -/
def execRingStall (dt ring : Nat) (s : State) : Res :=
  let s1 := s.elapse dt
  let g := s1.ring ring
  .next (match g.waitSince with
    | none => s1
    | some t =>
      if g.stallSent || s1.aon.time < t + 100000000 then s1
      else
        let s2 := s1.onRing ring (fun g => { g with stallSent := true })
        if s1.eventRing == some ring then s2 else s2.event evRingStall ring g.waiting.length 0)

/-- RECORDS_LOST (R61): the discards of a ring since its last report, at most one record in any 1 ms. -/
def execRecordsLost (dt ring : Nat) (s : State) : Res :=
  let s1 := s.elapse dt
  let g := s1.ring ring
  let soon := match g.lastLost with | none => false | some t => decide (s1.aon.time < t + 1000000)
  .next (if g.lost == 0 || soon then s1
    else (s1.onRing ring (fun g => { g with lost := 0, lastLost := some s1.aon.time })).event evRecordsLost ring g.lost 0)

/-- MOD_TIME_EXPIRY (R70, R75): a cmp record kept back for MOD_TIME is written, and the vector is signalled when the oldest unsignalled
record has waited MOD_TIME. -/
def execModTimeExpiry (dt ring : Nat) (s : State) : Res :=
  let s1 := s.elapse dt
  let g := s1.ring ring
  let s2 := match g.coal with
    | none => s1
    | some k => if k.since + g.modTime ≤ s1.aon.time then s1.flushCoal ring else s1
  .next (match g.oldest with
    | none => s2
    | some t => if t + g.modTime ≤ s2.aon.time then s2.signalRing ring else s2)

/-- RING_FAULT (R67): the ring is disabled and its held records are discarded, or credit write-back stops; the cause bit,
and a RING_FAULT record unless the failed ring is the event ring. -/
def execRingFault (dt : Nat) (target : PortFault) (s : State) : Res :=
  let s1 := s.elapse dt
  .next (match target with
    | .ring n =>
      let own := s1.eventRing == some n
      let s2 := (if (s1.ring n).enabled then s1.disableRing n else s1).raise cRingFault
      if own then s2 else s2.event evRingFault n 0 0
    | .credit n =>
      ((s1.onAp n (fun a => { a with creditOn := false })).raise cRingFault).event evRingFault (0x100 + n) 0 0)

end Sys2Proof.Machine
end

