-- ==== Sys2Proof/Machine/Power.lean ====
section
/-! DEFINITION. Power, clocks and supplies (chapter 13): rails, SLEEP and its wakes, domain states, droop, and the writes of
BX_AON_CTL. -/
namespace Sys2Proof.Machine
open Sys2Proof

/-! ### Loss of state (R415, R419) -/

/-- What is left when the rails of the fast domains are gone: with the always-on rail kept, the time base, the step counter,
BX_CAUSE, BX_CAUSE_LOST and the droop counters (R415); without it, nothing. -/
def State.lost (aonKept : Bool) (s : State) : State :=
  let r := State.reset
  let a := if aonKept then
      { r.aon with time := s.aon.time, stepCounter := s.aon.stepCounter, cause := s.aon.cause, lostSrc := s.aon.lostSrc,
                   lostCount := s.aon.lostCount, sensors := s.aon.sensors.map (fun x => { x with level := 0 }) }
    else r.aon
  { r with pending := s.pending, out := s.out, freeCtr := s.freeCtr, aon := a,
           start := { r.start with phase := if aonKept then .aonOnly else .isolated } }

/-- RAIL_LOSS (R419): outputs clamp, and the rail-loss cause bit is set while VBX_AON is good. -/
def execRailLoss (dt : Nat) (aonKept : Bool) (s : State) : Res :=
  let s1 := (s.elapse dt).lost aonKept
  .next (if aonKept then s1.onAon (fun a => { a with cause := a.cause ||| BitVec.ofNat 32 (2 ^ cRailLoss) }) else s1)

/-- WARM_RESET (R415, R421): the block is isolated and a warm start follows; SLEEP keeps the value written with it
(log 14). -/
def execWarmReset (dt : Nat) (_vset : Nat) (_autoGate sleep : Bool) (s : State) : Res :=
  let s1 := s.elapse dt
  .next (if s1.start.phase == .isolated || s1.start.phase == .aonOnly then s1
    else (s1.lost true).onAon (fun a => { a with sleepReq := sleep }))

/-! ### SLEEP (R411 to R414) -/

/-- A packet of an aperture announced and not consumed (R34, R411). -/
def State.announced (s : State) (n : Nat) : Bool :=
  let a := s.ap n
  match a.gather a.consumed 8 with
  | none => false
  | some (h, _) => (a.gather a.consumed (ceilDiv (36 + rd h 4 4) 4)).isSome

/-- Whether a migration of a stream is in progress (R345 to R351). -/
def Stream.migrating (t : Stream) : Bool :=
  t.wait == .migAnswer || (match t.pausePending with | some (_, .migrate _) => true | _ => false)

/-- Every condition of R411 for entering SLEEP; a record kept back for coalescing is one that waits (log 4). -/
def State.maySleep (s : State) : Bool :=
  s.aon.sleepReq && s.serving &&
  s.sch.steps.isEmpty && decide (s.sch.lastIssue + 1000000 ≤ s.aon.time) &&
  !s.str.tab.any (fun t => t.state == .opening || t.state == .stepping || t.state == .await) &&
  !(List.range 64).any s.announced && s.undone.isEmpty &&
  !s.egr.rings.any (fun g => !g.waiting.isEmpty || g.coal.isSome) && s.egr.evStaged.isEmpty &&
  !s.img.slots.any (fun l => l.state == .receiving || l.state == .committing) &&
  !s.str.tab.any Stream.migrating && s.cas.held.isEmpty &&
  s.cas.st != .master && s.cas.st != .deputy

/-- The earliest time the block must act on: a pause expiry or the end of a quarantine (R412). -/
def State.wakeTime (s : State) : Option Nat :=
  let ends := s.str.quarantine.map (·.2)
  let exps := s.str.tab.filterMap (fun t => match t.pause with
    | some r => if r.expiry == 2 ^ 64 - 1 then none else some r.expiry
    | none => none)
  minBy id (ends ++ exps)

/-- SLEEP_ENTRY (R412): a member of a group sends LEAVE with SLEEP first (R435), the wake timer is loaded, every fast
domain goes OFF, and the power manager is asked to lower VBX_ARR. -/
def execSleepEntry (dt : Nat) (s : State) : Res :=
  let s1 := s.elapse dt
  .next (if s1.maySleep then
      let s2 := if s1.cas.st == .member then s1.send s1.cas.master (.leave true []) else s1
      ((s2.onAon (fun a => { a with wakeTimer := s2.wakeTime, domains := List.replicate 7 (.off, a.time) })).onStart
        (fun g => { g with phase := .sleep })).emit (.arrRail false)
    else s1)

/-- WAKE_TIMER_EXPIRY (R413). -/
def execWakeTimerExpiry (dt : Nat) (s : State) : Res :=
  let s1 := s.elapse dt
  .next (match s1.aon.wakeTimer with
    | some t => if t ≤ s1.aon.time then s1.wakeCause else s1
    | none => s1)

/-- FULL_WAKE (R413). -/
def execFullWake (dt : Nat) (s : State) : Res := .next (s.elapse dt).wakeCause

/-! ### Domains (R406 to R408) -/

/-- Sets the state of a domain, with the time it takes it. -/
def State.setDomain (d : Nat) (x : DomState) (s : State) : State :=
  s.onAon (fun a => { a with domains := modifyAt a.domains d (fun _ => (x, a.time)) })

/-- DOMAIN_WAKE (R408): a gated, parked or off domain of a running block runs. -/
def execDomainWake (dt domain : Nat) (s : State) : Res :=
  let s1 := s.elapse dt
  .next (if s1.start.phase == .run && s1.domain domain != .running then s1.setDomain domain .running else s1)

/-- The garnet domain never parks while a stream with an ACTIVE grammar is outside FREE, CLOSED and PAUSED (R238). -/
def State.garnetHeld (s : State) : Bool :=
  s.str.tab.any (fun t => t.parse.gstate == .active && t.state != .closed && t.state != .paused)

/-- DOMAIN_PARK (R407): after 1 ms in which its units have all been gated; the request, Beryl and Sill domains never park outside SLEEP. -/
def execDomainPark (dt domain : Nat) (s : State) : Res :=
  let s1 := s.elapse dt
  let since := (s1.aon.domains.getD domain (.off, 0)).2
  .next (if s1.start.phase == .run && [1, 2, 3, 4].contains domain && s1.awake domain && !s1.domainBusy domain &&
      decide (since + 1000000 ≤ s1.aon.time) && !(domain == 4 && s1.garnetHeld) then s1.setDomain domain .parked
    else s1)

/-- DOMAIN_OFF (R407): after 100 ms PARKED while AUTO_GATE is set. -/
def execDomainOff (dt domain : Nat) (s : State) : Res :=
  let s1 := s.elapse dt
  let since := (s1.aon.domains.getD domain (.off, 0)).2
  .next (if s1.aon.autoGate && s1.domain domain == .parked && decide (since + 100000000 ≤ s1.aon.time) then
      s1.setDomain domain .off
    else s1)

/-! ### Droop (R422 to R424) -/

/-- DROOP_TRIP (R423): a crossing below THRESH halves, one below DEEP quarters, and each counts once (R424); a sensor of a
domain that is not RUNNING is inactive (R422). -/
def execDroopTrip (dt sensor : Nat) (deep : Bool) (s : State) : Res :=
  let s1 := s.elapse dt
  .next (if s1.domain (sensorDomain sensor) == .running && s1.start.phase != .sleep then
      s1.onAon (fun a => { a with sensors := modifyAt a.sensors sensor (fun x =>
        if deep then { x with quarter := satInc 16 x.quarter, level := 2 }
        else { x with half := satInc 16 x.half, level := max x.level 1 }) })
    else s1)

/-- DROOP_RELEASE (R423): the quarter rate goes back to the half rate, the half rate to the full one. -/
def execDroopRelease (dt sensor : Nat) (s : State) : Res :=
  .next ((s.elapse dt).onAon (fun a => { a with sensors := modifyAt a.sensors sensor (fun x => { x with level := x.level - 1 }) }))

/-! ### BX_AON_CTL (R411, R420, R421) -/

/-- A write of BX_AON_CTL without WARM_RESET: VSET 31 is ignored, clearing SLEEP is a wake cause (R421). -/
def State.aonCtl (vset : Nat) (autoGate sleep : Bool) (s : State) : State :=
  if s.isolated then s
  else
    let cleared := s.aon.sleepReq && !sleep
    let s1 := s.onAon (fun a => { a with vset := if vset < 31 then vset else a.vset, autoGate := autoGate, sleepReq := sleep })
    if cleared then s1.wakeCause else s1

/-- SLEEP_REQUEST (R411): a write with SLEEP set. -/
def execSleepRequest (dt vset : Nat) (autoGate : Bool) (s : State) : Res :=
  .next ((s.elapse dt).aonCtl vset autoGate true)

/-- SLEEP_CLEAR (R421): a write with SLEEP clear. -/
def execSleepClear (dt vset : Nat) (autoGate : Bool) (s : State) : Res :=
  .next ((s.elapse dt).aonCtl vset autoGate false)

/-- VSET_WRITE (R420). -/
def execVsetWrite (dt vset : Nat) (autoGate sleep : Bool) (s : State) : Res :=
  .next ((s.elapse dt).aonCtl vset autoGate sleep)

end Sys2Proof.Machine
end

