-- ==== Sys2Proof/Machine/Registers.lean ====
section
/-! DEFINITION. The register window (R472 to R493): what every register reads as, what reads clear and latch, and what writes do. -/
namespace Sys2Proof.Machine
open Sys2Proof

/-! ### Power and the window (R416, R418, R476) -/

/-- Registers that the always-on domain serves in every power state. -/
def alwaysOn (off : Nat) : Bool :=
  off == 0 || off == 4 || off == 8 || off == 0xC || off == 0x10 || off == 0x18 || off == 0x1C || off == 0x20 || off == 0x28 || off == 0x2C ||
  (0x40 ≤ off && off < 0xA0)

/-- An access to any other register is a wake cause. -/
def State.access (off : Nat) (s : State) : State := if alwaysOn (off / 4 * 4) then s else s.wakeCause

/-- Bytes of the window. -/
def windowSize : Nat := 65536

/-! ### What registers read as -/

/-- PSTATE of BX_STATUS (R410, R478). -/
def State.pstate (s : State) : Nat :=
  let d (n : Nat) : DomState := s.domain n
  if s.start.phase == .sleep then 3
  else if (List.range 7).all (fun n => d n == .gated) then 1
  else if [0, 5, 6].all (fun n => d n == .gated) && [1, 2, 3, 4].all (fun n => d n == .parked) then 2
  else 0

/-- BX_STATUS (R478). -/
def State.statusReg (s : State) : Nat :=
  s.start.step * 2 ^ 28 + flag s.start.failed 27 + cascadeCode s.cas.st * 2 ^ 20 + s.pstate * 2 ^ 18 +
  flag (s.start.ready && s.sch.raised) 4 + flag s.start.down 3 + flag s.start.warm 2 + flag s.start.ready 0

/-- BX_CAUSE_LOST (R480). -/
def Aon.lostReg (a : Aon) : Nat := a.lostSrc * 2 ^ 24 + a.lostCount

/-- BX_AON_CTL (R421). -/
def Aon.ctlReg (a : Aon) : Nat := a.vset * 2 ^ 8 + flag a.autoGate 1 + flag a.sleepReq 0

/-- The code of a domain's state (R409). -/
def domCode : DomState → Nat
  | .off => 0
  | .parked => 1
  | .gated => 2
  | .running => 3

/-- BX_CLK_STATE (R409). -/
def State.clkReg (s : State) : Nat :=
  ((List.range 7).map (fun d => (domCode (s.domain d) + 4 * s.aon.droopLevel d) * 2 ^ (4 * d))).foldl (· + ·) 0

/-- BX_DROOP_CNT of a sensor (R482). -/
def Sensor.reg (x : Sensor) : Nat := x.quarter * 2 ^ 16 + x.half

/-- BX_STB_COLLIDE (R484). -/
def Mem.collideReg (m : Mem) : Nat := flag m.stbValid 31 + m.stbCount * 2 ^ 24 + m.stbWord

/-- The lowest unit under test. -/
def March.unitNow (m : March) : Nat :=
  if !m.running then 0
  else if m.target == 1 then m.camBank.getD m.first
  else if m.mode == 1 then m.first
  else (m.pos.map (·.1)).foldl min m.last

/-- BX_MARCH_STAT (R485). -/
def March.statReg (m : March) : Nat :=
  flag m.running 31 + flag m.byReg 30 + m.mode * 2 ^ 28 + m.target * 2 ^ 27 + m.unitNow * 2 ^ 20 + m.lastStatus

/-- Two live figures, each saturated to its half (R485). -/
def halves (hi lo : Nat) : Nat := min hi 0xFFFF * 2 ^ 16 + min lo 0xFFFF

/-- An entry of the repair map (R401). -/
def Repair.word (r : Repair) : Nat :=
  2 ^ 63 + r.kind * 2 ^ 60 + r.source * 2 ^ 56 + r.unit * 2 ^ 48 + r.bank * 2 ^ 40 + r.index * 2 ^ 16 + r.spare * 2 ^ 8

/-- Entry INDEX of the repair map, zero beyond the last (R486). -/
def Mem.entry (m : Mem) : Nat :=
  match m.repair[m.repairIdx]? with
  | some r => r.word
  | none => 0

/-- The four registers of an aperture (R487). -/
def Aperture.reg (a : Aperture) (k : Nat) : Nat :=
  match k with
  | 0 => a.consumed % 2 ^ 32
  | 1 => a.consumed / 2 ^ 32
  | 2 => flag a.boundTo.isSome 9 + flag (a.boundTo.getD false) 8 + flag a.halted 2 + flag a.creditViol 1 + flag a.portViol 0
  | _ => a.discarded * 2 ^ 16 + a.reads

/-- BX_UNIT_FAULT of a unit (R489). -/
def FUnit.reg (u : FUnit) : Nat := u.cls * 2 ^ 30 + flag u.inService 29 + flag (u.testing != 0) 28 + u.faults

/-- BX_MEM_CE_a_CNT and _LOC (R490). -/
def MemCnt.cntReg (c : MemCnt) : Nat := c.ue * 2 ^ 16 + c.ce
def MemCnt.locReg (c : MemCnt) : Nat := flag c.lastUe 31 + c.bank * 2 ^ 17 + c.row * 2 ^ 7 + c.bit

/-- Word k of a wide value, low word first. -/
def wordAt (v k : Nat) : Nat := v / 2 ^ (32 * k) % 2 ^ 32

/-- The registers of CAM debug (R492, R493). -/
def Beryl.reg (b : Beryl) (off : Nat) : Nat :=
  if off < 0x1020 then wordAt b.dbgKey.toNat ((off - 0x1000) / 4)
  else if off < 0x1040 then wordAt b.dbgMask.toNat ((off - 0x1020) / 4)
  else if off == 0x1040 then b.dbgSel.toNat
  else if off == 0x1044 then b.dbgParm.toNat
  else if off == 0x1048 then b.dbgRowSel.toNat
  else if off == 0x1050 then flag b.dbgBusy 31 + flag b.dbgDone 0
  else if 0x1060 ≤ off && off < 0x1070 then wordAt b.dbgRes.toNat ((off - 0x1060) / 4)
  else if 0x1080 ≤ off && off < 0x1090 then wordAt b.dbgRow.toNat ((off - 0x1080) / 4)
  else if 0x1090 ≤ off && off < 0x10A0 then wordAt b.dbgShadow.toNat ((off - 0x1090) / 4)
  else if off == 0x10A0 then flag b.corrValid 31 + b.corrUse * 2 ^ 28 + b.corrBank * 2 ^ 22 + b.corrOver * 2 ^ 16 + b.corrRow
  else if off == 0x10A4 then wordAt b.cleanTime 0
  else if off == 0x10A8 then wordAt b.cleanTime 1
  else if off == 0x10AC then wordAt b.fixTime 0
  else if off == 0x10B0 then wordAt b.fixTime 1
  else if 0x1100 ≤ off && off < 0x1980 then (b.counters.getD ((off - 0x1100) / 64) []).getD ((off - 0x1100) % 64 / 4) 0
  else 0

/-- What a register reads as, latches aside; reserved offsets and write-only registers read as zero (R8, R9). -/
def State.reg (s : State) (off : Nat) : Nat :=
  let m := s.mem
  if off == 0 then s.bxId
  else if off == 4 then s.statusReg
  else if off == 8 then s.aon.cause.toNat
  else if off == 0xC then s.aon.lostReg
  else if off == 0x10 then s.aon.causeMask.toNat
  else if off == 0x14 then s.aon.causeVec
  else if off == 0x18 then s.aon.ctlReg
  else if off == 0x1C then s.clkReg
  else if off == 0x20 then s.aon.deep * 2 ^ 4 + s.aon.thresh
  else if off == 0x28 then wordAt s.now 0
  else if off == 0x2C then wordAt s.now 1
  else if off == 0x30 then m.collideReg
  else if 0x40 ≤ off && off < 0xA0 then (s.aon.sensors.getD ((off - 0x40) / 4) {}).reg
  else if off == 0x104 then m.march.statReg
  else if off == 0x108 then m.march.rows % 2 ^ 32
  else if off == 0x10C then halves m.march.spares m.march.fails
  else if off == 0x110 then halves m.march.untested m.march.yields
  else if off == 0x200 then m.repairIdx
  else if off == 0x204 then m.repairChanges * 2 ^ 17 + m.repair.length
  else if off == 0x208 then wordAt m.entry 0
  else if 0x400 ≤ off && off < 0x800 then (s.ap ((off - 0x400) / 16)).reg (off % 16 / 4)
  else if 0x800 ≤ off && off < 0xA50 then (match m.units[(off - 0x800) / 4]? with | some u => u.reg | none => 0)
  else if 0xC00 ≤ off && off < 0xEC0 then
    (let c := m.cnt.getD ((off - 0xC00) / 8) {}
     if off % 8 == 0 then c.cntReg else c.locReg)
  else if 0xF00 ≤ off && off < 0xF18 then m.blockCnt.getD ((off - 0xF00) / 4) 0
  else if 0x1000 ≤ off then s.ber.reg off
  else 0

/-! ### Latches (R473, R486) -/

/-- The _LO registers of R473, whose _HI lies next to them. -/
def loReg (off : Nat) : Bool :=
  off == 0x28 || (0x400 ≤ off && off < 0x800 && off % 16 == 0) || off == 0x10A4 || off == 0x10AC

/-- A latched value is taken: the value, and the latch without it. -/
def State.takeLatch (port : Bool) (off : Nat) (s : State) : Option Nat × State :=
  match s.mem.hiLatch.find? (fun l => l.1 == port && l.2.1 == off) with
  | none => (none, s)
  | some l => (some l.2.2, s.onMem (fun m => { m with hiLatch := m.hiLatch.erase l }))

/-- A _HI half is latched for a port. -/
def State.setLatch (port : Bool) (off v : Nat) (s : State) : State :=
  s.onMem (fun m => { m with hiLatch := m.hiLatch.filter (fun l => l.1 != port || l.2.1 != off) ++ [(port, off, v)] })

/-- A read of BX_REPAIR_MAP_LO latches the whole entry for its port. -/
def State.latchEntry (port : Bool) (s : State) : State :=
  s.onMem (fun m => { m with repairLatch := m.repairLatch.filter (fun l => l.1 != port) ++ [(port, m.entry)] })

/-- A read of BX_REPAIR_MAP_HI: the latched half, and INDEX increments. -/
def State.readEntryHi (port : Bool) (s : State) : Nat × State :=
  let v := ((s.mem.repairLatch.find? (fun l => l.1 == port)).map (·.2)).getD 0
  (wordAt v 1, s.onMem (fun m => { m with repairIdx := (m.repairIdx + 1) % 2 ^ 17 }))

/-! ### Reads that clear (R472) -/

/-- The bytes of a register that a read returns: the first, and how many. -/
structure Lanes where
  first : Nat
  count : Nat
  deriving DecidableEq, Repr

/-- Whether the bytes read hold the whole of a field. -/
def Lanes.covers (l : Lanes) (hi lo : Nat) : Bool := decide (l.first ≤ lo / 8) && decide (hi / 8 < l.first + l.count)

/-- The RC fields of a register that the bytes read cover are cleared. -/
def State.clearRead (off : Nat) (l : Lanes) (s : State) : State :=
  let hiHalf := l.covers 31 16
  let loHalf := l.covers 15 0
  if off == 0xC then
    s.onAon (fun a => { a with lostSrc := if l.covers 31 24 then 0 else a.lostSrc, lostCount := if loHalf then 0 else a.lostCount })
  else if off == 0x30 then
    s.onMem (fun m => { m with stbValid := m.stbValid && !l.covers 31 24, stbCount := if l.covers 31 24 then 0 else m.stbCount,
                               stbWord := if l.covers 22 0 then 0 else m.stbWord })
  else if 0x40 ≤ off && off < 0xA0 then
    s.onAon (fun a => { a with sensors := modifyAt a.sensors ((off - 0x40) / 4) (fun x =>
      { x with quarter := if hiHalf then 0 else x.quarter, half := if loHalf then 0 else x.half }) })
  else if 0x400 ≤ off && off < 0x800 && off % 16 == 12 then
    s.onAp ((off - 0x400) / 16) (fun a => { a with discarded := if hiHalf then 0 else a.discarded, reads := if loHalf then 0 else a.reads })
  else if 0x800 ≤ off && off < 0xA50 then
    s.onMem (fun m => { m with units := modifyAt m.units ((off - 0x800) / 4) (fun u => { u with faults := if loHalf then 0 else u.faults }) })
  else if 0xC00 ≤ off && off < 0xEC0 && off % 8 == 0 then
    s.onMem (fun m => { m with cnt := modifyAt m.cnt ((off - 0xC00) / 8) (fun c =>
      { c with ue := if hiHalf then 0 else c.ue, ce := if loHalf then 0 else c.ce }) })
  else if 0xF00 ≤ off && off < 0xF18 then
    (if l.covers 31 0 then s.onMem (fun m => { m with blockCnt := modifyAt m.blockCnt ((off - 0xF00) / 4) (fun _ => 0) }) else s)
  else if off == 0x10A0 then
    (if l.covers 21 16 then s.onBer (fun b => { b with corrOver := 0 }) else s)
  else if 0x1100 ≤ off && off < 0x1980 then
    (if l.covers 31 0 then s.onBer (fun b => { b with counters := modifyAt b.counters ((off - 0x1100) / 64) (fun c =>
        modifyAt c ((off - 0x1100) % 64 / 4) (fun _ => 0)) }) else s)
  else s

/-- A read of bytes of one register: its value and what the read does. -/
def State.readReg (port : Bool) (off : Nat) (l : Lanes) (s : State) : Nat × State :=
  if off == 0x20C then s.readEntryHi port
  else
    let (latched, s1) := s.takeLatch port off
    let v := latched.getD (s.reg off)
    let s2 := if off == 0x208 then s1.latchEntry port else if loReg off then s1.setLatch port (off + 4) (s.reg (off + 4)) else s1
    (v, s2.clearRead off l)

/-- Whether a read is one that the window serves: 1, 2, 4 or 8 naturally aligned bytes within it (R472). -/
def readOk (off size : Nat) : Bool := [1, 2, 4, 8].contains size && off % size == 0 && decide (off + size ≤ windowSize)

/-- A host read (R472, R473): while isolated every register reads as zero. -/
def State.hostRead (port : Bool) (off size : Nat) (s : State) : State :=
  let s0 := s.access off
  if s0.isolated then s0.emit (.readData port off size 0)
  else if size == 8 then
    let (a, s1) := s0.readReg port off ⟨0, 4⟩
    let (b, s2) := s1.readReg port (off + 4) ⟨0, 4⟩
    s2.emit (.readData port off size (a + b * 2 ^ 32))
  else
    let (v, s1) := s0.readReg port (off / 4 * 4) ⟨off % 4, size⟩
    s1.emit (.readData port off size (v / 2 ^ (8 * (off % 4)) % 2 ^ (8 * size)))

/-- REPAIR_MAP_READ_LO (R486). -/
def execRepairMapReadLo (dt : Nat) (port : Bool) (s : State) : Res := .next ((s.elapse dt).hostRead port 0x208 4)

/-- REPAIR_MAP_READ_HI (R486). -/
def execRepairMapReadHi (dt : Nat) (port : Bool) (s : State) : Res := .next ((s.elapse dt).hostRead port 0x20C 4)

/-- LO_READ_LATCH (R473): a 4-byte read of a _LO register. -/
def execLoReadLatch (dt : Nat) (port : Bool) (offset : Nat) (s : State) : Res :=
  let s1 := s.elapse dt
  .next (if loReg offset then s1.hostRead port offset 4 else s1)

/-- RC_READ (R472): a host read of the window, of whatever register. What any other read returns is not stated: a free value, and nothing
is cleared (log 130). -/
def execRcRead (dt : Nat) (port : Bool) (offset size : Nat) (s : State) : Res :=
  let s1 := s.elapse dt
  .next (if readOk offset size then s1.hostRead port offset size
    else (s1.access offset).drawn.emit (.readData port offset size (s1.free.toNat % 2 ^ (8 * size))))

/-! ### Write-one-to-clear bits (R475, R479, R481) -/

/-- A clear is lost: counted, with the bit that it was. -/
def State.lostClear (src : Nat) (s : State) : State := s.onAon (fun a => { a with lostSrc := src, lostCount := satInc 16 a.lostCount })

/-- The cause bits that exist. -/
def causeBits : Nat := 2 ^ 19 - 1

/-- A write of BX_CAUSE while hardware sets bits in the same clock: a bit that meets a clear stays set, or is set, without a signal. -/
def State.clearCause (word hardware : Nat) (s : State) : State :=
  let w := word &&& causeBits
  let h := hardware &&& causeBits
  let s1 := s.onAon (fun a => { a with cause := BitVec.ofNat 32 ((a.cause.toNat ^^^ (a.cause.toNat &&& w)) ||| (w &&& h)) })
  let s2 := (bitList 32 (w &&& h)).foldl (fun s n => s.lostClear n) s1
  ((bitList 32 h).filter (fun n => !w.testBit n)).foldl (fun s n => s.raise n) s2

/-- CAUSE_CLEAR (R475). -/
def execCauseClear (dt : Nat) (word hardware : Word) (s : State) : Res :=
  let s1 := s.elapse dt
  .next (if s1.isolated then s1 else s1.clearCause word.toNat hardware.toNat)

/-- A write of BX_CAUSE_MASK (R481): a bit newly set over a cause that stands signals at once. -/
def State.writeMask (word : Word) (s : State) : State :=
  let fresh := bitList 32 (word.toNat &&& s.aon.cause.toNat)
  let due := fresh.filter (fun n => !s.aon.causeMask.getLsbD n)
  due.foldl (fun s _ => s.signalCause) (s.onAon (fun a => { a with causeMask := word }))

/-- CAUSE_MASK_WRITE (R481). -/
def execCauseMaskWrite (dt : Nat) (word : Word) (s : State) : Res :=
  let s1 := s.elapse dt
  .next (if s1.isolated then s1 else s1.writeMask word)

/-- APERTURE_CTL_RESET (R488). -/
def execApertureCtlReset (dt : Nat) (ap : Nat) (s : State) : Res :=
  let s1 := (s.elapse dt).wakeCause
  .next (if s1.isolated || 64 ≤ ap then s1 else s1.resetAp ap)

/-- One violation bit of an aperture: cleared, unless hardware sets it in the same clock. k: 0 PORT_VIOL, 1 CREDIT_VIOL. -/
def State.violBit (ap k : Nat) (clear set_ : Bool) (s : State) : State :=
  let put (v : Bool) (s : State) : State :=
    s.onAp ap (fun a => if k == 0 then { a with portViol := v } else { a with creditViol := v })
  let cause := if k == 0 then cAptPort else cAptCredit
  if set_ then
    let s1 := (put true s).raise cause
    if clear then s1.lostClear (64 + 2 * ap + k) else s1
  else if clear then put false s
  else s

/-- APERTURE_VIOL_CLEAR (R475). -/
def execApertureViolClear (dt : Nat) (ap : Nat) (credit port : Bool) (hardware : Word) (s : State) : Res :=
  let s1 := (s.elapse dt).wakeCause
  .next (if s1.isolated || 64 ≤ ap then s1
    else (s1.violBit ap 0 port (hardware.getLsbD 0)).violBit ap 1 credit (hardware.getLsbD 1))

/-- A clear of VALID of BX_CAM_DBG_CORR (R475, R493). -/
def State.clearCorr (hardware : Bool) (s : State) : State :=
  if hardware then (s.onBer (fun b => { b with corrValid := true })).lostClear 200
  else s.onBer (fun b => { b with corrValid := false })

/-- CAM_CORR_CLEAR (R493). -/
def execCamCorrClear (dt : Nat) (hardware : Bool) (s : State) : Res :=
  let s1 := (s.elapse dt).wakeCause
  .next (if s1.isolated then s1 else s1.clearCorr hardware)

/-! ### Writes (R472) -/

/-- A number with its word k replaced. -/
def putWord (v k w : Nat) : Nat := v - wordAt v k * 2 ^ (32 * k) + w * 2 ^ (32 * k)

/-- A write of BX_MARCH_CTL by its ARG (R485). -/
def State.writeMarch (arg : Nat) (s : State) : State :=
  s.marchCtl (bits arg 1 0) (bit arg 2) (bits arg 10 4) (bits arg 17 11)

/-- A write of CAM debug registers (R492). -/
def State.writeCam (off v : Nat) (s : State) : State :=
  if off < 0x1020 then s.onBer (fun b => { b with dbgKey := BitVec.ofNat 256 (putWord b.dbgKey.toNat ((off - 0x1000) / 4) v) })
  else if off < 0x1040 then s.onBer (fun b => { b with dbgMask := BitVec.ofNat 256 (putWord b.dbgMask.toNat ((off - 0x1020) / 4) v) })
  else if off == 0x1040 then s.onBer (fun b => { b with dbgSel := BitVec.ofNat 32 v })
  else if off == 0x1044 then s.onBer (fun b => { b with dbgParm := BitVec.ofNat 32 (v &&& 0x1FF07) })
  else if off == 0x1048 then s.onBer (fun b => { b with dbgRowSel := BitVec.ofNat 32 (v &&& 0x3F1FFF) })
  else if off == 0x104C then (if v % 4 == 1 then s.dbgSearch else if v % 4 == 2 then s.dbgReadRow else s)
  else if off == 0x10A0 then (if bit v 31 then s.clearCorr false else s)
  else s

/-- A write of BX_ING_CREDIT_n_CTL (R487, R488). -/
def State.writeApCtl (ap v : Nat) (s : State) : State :=
  let s1 := (s.violBit ap 0 (bit v 0) false).violBit ap 1 (bit v 1) false
  if bit v 31 then s1.resetAp ap else s1

/-- A write of one register: its writable fields, and what the write does; every other register ignores it. A warm reset is its own. -/
def State.writeReg (off v : Nat) (s : State) : State :=
  if s.isolated then s
  else if off == 8 then s.clearCause v 0
  else if off == 0x10 then s.writeMask (BitVec.ofNat 32 v)
  else if off == 0x14 then s.onAon (fun a => { a with causeVec := v % 2 ^ 16 })
  else if off == 0x18 then
    (if bit v 2 then (s.lost true).onAon (fun a => { a with sleepReq := bit v 0 }) else s.aonCtl (bits v 12 8) (bit v 1) (bit v 0))
  else if off == 0x20 then
    s.onAon (fun a => { a with deep := bits v 5 4, thresh := if bits v 3 0 ≤ 10 then bits v 3 0 else a.thresh })
  else if off == 0x100 then s.writeMarch (bits v 17 0)
  else if off == 0x200 then s.onMem (fun m => { m with repairIdx := bits v 16 0 })
  else if 0x400 ≤ off && off < 0x800 && off % 16 == 8 then s.writeApCtl ((off - 0x400) / 16) v
  else if 0x1000 ≤ off && off < 0x10B4 then s.writeCam off v
  else s

/-- REGISTER_WRITE (R472): 4 or 8 naturally aligned bytes, the lower register first; the block ignores every other write (log 130). -/
def execRegisterWrite (dt : Nat) (_port : Bool) (offset size : Nat) (data : Nat) (s : State) : Res :=
  if windowSize < offset + size || size == 0 then .next (s.elapse dt)
  else
    let s1 := (s.elapse dt).access offset
    .next (if size == 4 && offset % 4 == 0 then s1.writeReg offset (data % 2 ^ 32)
      else if size == 8 && offset % 8 == 0 then
        (s1.writeReg offset (data % 2 ^ 32)).writeReg (offset + 4) (data / 2 ^ 32 % 2 ^ 32)
      else s1)

end Sys2Proof.Machine
end

