-- ==== Sys2Proof/Machine/Dispatch.lean ====
section
/-! DEFINITION. The effect of each command: one arm per constructor of Instr, one direct call of its meaning. -/
namespace Sys2Proof.Machine
open Sys2Proof

/-- The effect of a command on everything but the queue. -/
def exec (i : Instr) (s : State) : Host.Outcome State Fault Refusal :=
  match i with
  | .apertureWrite dt port offset data => Sys2Proof.Machine.execApertureWrite dt port offset data s
  | .apertureRead dt port offset size => Sys2Proof.Machine.execApertureRead dt port offset size s
  | .packetConsume dt ap => Sys2Proof.Machine.execPacketConsume dt ap s
  | .creditWordTimer dt ap => Sys2Proof.Machine.execCreditWordTimer dt ap s
  | .sysHello dt ap pos => Sys2Proof.Machine.execSysHello dt ap pos s
  | .sysHelloApertureReset dt ap pos => Sys2Proof.Machine.execSysHelloApertureReset dt ap pos s
  | .sysRingEnable dt ap pos => Sys2Proof.Machine.execSysRingEnable dt ap pos s
  | .sysRingDisable dt ap pos => Sys2Proof.Machine.execSysRingDisable dt ap pos s
  | .sysTime dt ap pos => Sys2Proof.Machine.execSysTime dt ap pos s
  | .imgLoad dt ap pos => Sys2Proof.Machine.execImgLoad dt ap pos s
  | .imageStaged dt slot => Sys2Proof.Machine.execImageStaged dt slot s
  | .imgCommit dt ap pos => Sys2Proof.Machine.execImgCommit dt ap pos s
  | .commitTakesEffect dt => Sys2Proof.Machine.execCommitTakesEffect dt s
  | .imgDropSlot dt ap pos => Sys2Proof.Machine.execImgDropSlot dt ap pos s
  | .imgDropGrammar dt ap pos => Sys2Proof.Machine.execImgDropGrammar dt ap pos s
  | .imgQuery dt ap pos => Sys2Proof.Machine.execImgQuery dt ap pos s
  | .strOpen dt ap pos => Sys2Proof.Machine.execStrOpen dt ap pos s
  | .strClose dt ap pkt => Sys2Proof.Machine.execStrClose dt ap pkt s
  | .strCancel dt ap pkt => Sys2Proof.Machine.execStrCancel dt ap pkt s
  | .streamRelease dt slot => Sys2Proof.Machine.execStreamRelease dt slot s
  | .quarantineEnd dt slot => Sys2Proof.Machine.execQuarantineEnd dt slot s
  | .strPause dt ap pkt => Sys2Proof.Machine.execStrPause dt ap pkt s
  | .pauseTakesEffect dt slot => Sys2Proof.Machine.execPauseTakesEffect dt slot s
  | .pauseExpired dt slot => Sys2Proof.Machine.execPauseExpired dt slot s
  | .strResume dt ap pos => Sys2Proof.Machine.execStrResume dt ap pos s
  | .strPin dt ap pkt => Sys2Proof.Machine.execStrPin dt ap pkt s
  | .strMigrate dt ap pkt => Sys2Proof.Machine.execStrMigrate dt ap pkt s
  | .migrationSend dt slot => Sys2Proof.Machine.execMigrationSend dt slot s
  | .migrationAnswer dt slot answer => Sys2Proof.Machine.execMigrationAnswer dt slot answer s
  | .encText dt ap pos => Sys2Proof.Machine.execEncText dt ap pos s
  | .encRaw dt ap pos => Sys2Proof.Machine.execEncRaw dt ap pos s
  | .segmentDone dt ap seg => Sys2Proof.Machine.execSegmentDone dt ap seg s
  | .transomPieceDone dt ap pos => Sys2Proof.Machine.execTransomPieceDone dt ap pos s
  | .decTok dt ap pos => Sys2Proof.Machine.execDecTok dt ap pos s
  | .tokChoose dt ap pos => Sys2Proof.Machine.execTokChoose dt ap pos s
  | .choiceGrant dt slot => Sys2Proof.Machine.execChoiceGrant dt slot s
  | .commitDecodeDone dt slot => Sys2Proof.Machine.execCommitDecodeDone dt slot s
  | .specTree dt ap pos => Sys2Proof.Machine.execSpecTree dt ap pos s
  | .specTreeReply dt ap pos => Sys2Proof.Machine.execSpecTreeReply dt ap pos s
  | .treeResolveAck dt slot => Sys2Proof.Machine.execTreeResolveAck dt slot s
  | .pfxBind dt ap pos => Sys2Proof.Machine.execPfxBind dt ap pos s
  | .pfxFind dt ap pos => Sys2Proof.Machine.execPfxFind dt ap pos s
  | .pfxDrop dt ap pos => Sys2Proof.Machine.execPfxDrop dt ap pos s
  | .budSet dt ap pos => Sys2Proof.Machine.execBudSet dt ap pos s
  | .lintelRaise dt ap pos => Sys2Proof.Machine.execLintelRaise dt ap pos s
  | .lintelLower dt ap pos => Sys2Proof.Machine.execLintelLower dt ap pos s
  | .grpQuery dt ap pos => Sys2Proof.Machine.execGrpQuery dt ap pos s
  | .grpLocate dt ap pos => Sys2Proof.Machine.execGrpLocate dt ap pos s
  | .grpLeave dt ap pos => Sys2Proof.Machine.execGrpLeave dt ap pos s
  | .grpHandover dt ap pos => Sys2Proof.Machine.execGrpHandover dt ap pos s
  | .grpJoin dt ap pos => Sys2Proof.Machine.execGrpJoin dt ap pos s
  | .testMarchPreserving dt ap pos => Sys2Proof.Machine.execTestMarchPreserving dt ap pos s
  | .testMarchDestructive dt ap pos => Sys2Proof.Machine.execTestMarchDestructive dt ap pos s
  | .testMarchAbort dt ap pos => Sys2Proof.Machine.execTestMarchAbort dt ap pos s
  | .destructiveMarchStart dt array => Sys2Proof.Machine.execDestructiveMarchStart dt array s
  | .destructiveMarchTimeout dt array => Sys2Proof.Machine.execDestructiveMarchTimeout dt array s
  | .marchBorrow dt array found => Sys2Proof.Machine.execMarchBorrow dt array found s
  | .marchEnd dt fails => Sys2Proof.Machine.execMarchEnd dt fails s
  | .testLane dt ap pos => Sys2Proof.Machine.execTestLane dt ap pos s
  | .ringHeadPoll dt ring value => Sys2Proof.Machine.execRingHeadPoll dt ring value s
  | .ringStall dt ring => Sys2Proof.Machine.execRingStall dt ring s
  | .recordsLost dt ring => Sys2Proof.Machine.execRecordsLost dt ring s
  | .modTimeExpiry dt ring => Sys2Proof.Machine.execModTimeExpiry dt ring s
  | .ringFault dt target => Sys2Proof.Machine.execRingFault dt target s
  | .stepIssue dt entries tokens => Sys2Proof.Machine.execStepIssue dt entries tokens s
  | .idleBoundary dt => Sys2Proof.Machine.execIdleBoundary dt s
  | .logitBurst dt facet burst => Sys2Proof.Machine.execLogitBurst dt facet burst s
  | .rowShaped dt step slot node => Sys2Proof.Machine.execRowShaped dt step slot node s
  | .verdictPass dt step => Sys2Proof.Machine.execVerdictPass dt step s
  | .verdictFail dt step => Sys2Proof.Machine.execVerdictFail dt step s
  | .verdictTimeout dt step => Sys2Proof.Machine.execVerdictTimeout dt step s
  | .chunkKvWritten dt step what => Sys2Proof.Machine.execChunkKvWritten dt step what s
  | .pageRetire dt page => Sys2Proof.Machine.execPageRetire dt page s
  | .pageSummary dt slot handle size loc => Sys2Proof.Machine.execPageSummary dt slot handle size loc s
  | .pageMoved dt slot => Sys2Proof.Machine.execPageMoved dt slot s
  | .pageRestored dt slot => Sys2Proof.Machine.execPageRestored dt slot s
  | .backgroundBuild dt slot => Sys2Proof.Machine.execBackgroundBuild dt slot s
  | .shutterBuildDone dt slot part => Sys2Proof.Machine.execShutterBuildDone dt slot part s
  | .stackRefillDone dt slot => Sys2Proof.Machine.execStackRefillDone dt slot s
  | .deadlinePolicy dt slot => Sys2Proof.Machine.execDeadlinePolicy dt slot s
  | .sealNotice dt hdr sealId kind => Sys2Proof.Machine.execSealNotice dt hdr sealId kind s
  | .package dt hdr body => Sys2Proof.Machine.execPackage dt hdr body s
  | .join dt hdr frameCrc time => Sys2Proof.Machine.execJoin dt hdr frameCrc time s
  | .joinTimer dt => Sys2Proof.Machine.execJoinTimer dt s
  | .formTimeout dt => Sys2Proof.Machine.execFormTimeout dt s
  | .welcome dt hdr newEpoch live asleep master deputy time tenants => Sys2Proof.Machine.execWelcome dt hdr newEpoch live asleep master deputy time tenants s
  | .beatTimer dt => Sys2Proof.Machine.execBeatTimer dt s
  | .beat dt hdr time live deputy delay figures => Sys2Proof.Machine.execBeat dt hdr time live deputy delay figures s
  | .beatAck dt hdr echo received turnaround figures => Sys2Proof.Machine.execBeatAck dt hdr echo received turnaround figures s
  | .memberDepartTimeout dt member => Sys2Proof.Machine.execMemberDepartTimeout dt member s
  | .quorumLossTimeout dt => Sys2Proof.Machine.execQuorumLossTimeout dt s
  | .deputyPollTimeout dt => Sys2Proof.Machine.execDeputyPollTimeout dt s
  | .poll dt hdr => Sys2Proof.Machine.execPoll dt hdr s
  | .pollAns dt hdr recent => Sys2Proof.Machine.execPollAns dt hdr recent s
  | .takeover dt hdr newEpoch newDeputy => Sys2Proof.Machine.execTakeover dt hdr newEpoch newDeputy s
  | .orphanTimeout dt => Sys2Proof.Machine.execOrphanTimeout dt s
  | .timeSlewTick dt => Sys2Proof.Machine.execTimeSlewTick dt s
  | .grantReq dt hdr tenant units => Sys2Proof.Machine.execGrantReq dt hdr tenant units s
  | .grant dt hdr tenant units => Sys2Proof.Machine.execGrant dt hdr tenant units s
  | .ledger dt hdr change => Sys2Proof.Machine.execLedger dt hdr change s
  | .budFwd dt hdr set tag => Sys2Proof.Machine.execBudFwd dt hdr set tag s
  | .budDone dt hdr tag status level => Sys2Proof.Machine.execBudDone dt hdr tag status level s
  | .chainFind dt hdr handle tenant request => Sys2Proof.Machine.execChainFind dt hdr handle tenant request s
  | .chainAns dt hdr request hit => Sys2Proof.Machine.execChainAns dt hdr request hit s
  | .chainFindTimeout dt request => Sys2Proof.Machine.execChainFindTimeout dt request s
  | .pfxCopy dt hdr handle tenant pages => Sys2Proof.Machine.execPfxCopy dt hdr handle tenant pages s
  | .pfxCopyDone dt handle tenant => Sys2Proof.Machine.execPfxCopyDone dt handle tenant s
  | .leave dt hdr sleep units => Sys2Proof.Machine.execLeave dt hdr sleep units s
  | .down dt hdr lost => Sys2Proof.Machine.execDown dt hdr lost s
  | .rescue dt hdr lost streams => Sys2Proof.Machine.execRescue dt hdr lost streams s
  | .linkUnreachable dt member => Sys2Proof.Machine.execLinkUnreachable dt member s
  | .berylSearch dt search => Sys2Proof.Machine.execBerylSearch dt search s
  | .slotStealingUpdate dt channel bank update => Sys2Proof.Machine.execSlotStealingUpdate dt channel bank update s
  | .threeStepUpdate dt channel bank steps => Sys2Proof.Machine.execThreeStepUpdate dt channel bank steps s
  | .berylMoveDone dt bank => Sys2Proof.Machine.execBerylMoveDone dt bank s
  | .compactor dt bank => Sys2Proof.Machine.execCompactor dt bank s
  | .camScrub dt scrub => Sys2Proof.Machine.execCamScrub dt scrub s
  | .bankReload dt bank => Sys2Proof.Machine.execBankReload dt bank s
  | .bankReloadDone dt bank => Sys2Proof.Machine.execBankReloadDone dt bank s
  | .patrolScrub dt array scrub => Sys2Proof.Machine.execPatrolScrub dt array scrub s
  | .unitFault dt kind inst work => Sys2Proof.Machine.execUnitFault dt kind inst work s
  | .lockstepMismatch dt => Sys2Proof.Machine.execLockstepMismatch dt s
  | .sillResume dt passed => Sys2Proof.Machine.execSillResume dt passed s
  | .infieldTestDue dt kind inst => Sys2Proof.Machine.execInfieldTestDue dt kind inst s
  | .infieldTestDone dt kind inst passed agreed => Sys2Proof.Machine.execInfieldTestDone dt kind inst passed agreed s
  | .suspectAgeExpiry dt kind inst => Sys2Proof.Machine.execSuspectAgeExpiry dt kind inst s
  | .historyWriteback dt => Sys2Proof.Machine.execHistoryWriteback dt s
  | .mcDelivery dt delivery => Sys2Proof.Machine.execMcDelivery dt delivery s
  | .coldStart dt fails => Sys2Proof.Machine.execColdStart dt fails s
  | .warmStart dt fails => Sys2Proof.Machine.execWarmStart dt fails s
  | .railLoss dt aonKept => Sys2Proof.Machine.execRailLoss dt aonKept s
  | .sleepEntry dt => Sys2Proof.Machine.execSleepEntry dt s
  | .wakeTimerExpiry dt => Sys2Proof.Machine.execWakeTimerExpiry dt s
  | .fullWake dt => Sys2Proof.Machine.execFullWake dt s
  | .domainWake dt domain => Sys2Proof.Machine.execDomainWake dt domain s
  | .domainPark dt domain => Sys2Proof.Machine.execDomainPark dt domain s
  | .domainOff dt domain => Sys2Proof.Machine.execDomainOff dt domain s
  | .droopTrip dt sensor deep => Sys2Proof.Machine.execDroopTrip dt sensor deep s
  | .droopRelease dt sensor => Sys2Proof.Machine.execDroopRelease dt sensor s
  | .sleepRequest dt vset autoGate => Sys2Proof.Machine.execSleepRequest dt vset autoGate s
  | .sleepClear dt vset autoGate => Sys2Proof.Machine.execSleepClear dt vset autoGate s
  | .warmReset dt vset autoGate sleep => Sys2Proof.Machine.execWarmReset dt vset autoGate sleep s
  | .vsetWrite dt vset autoGate sleep => Sys2Proof.Machine.execVsetWrite dt vset autoGate sleep s
  | .causeClear dt word hardware => Sys2Proof.Machine.execCauseClear dt word hardware s
  | .causeMaskWrite dt word => Sys2Proof.Machine.execCauseMaskWrite dt word s
  | .apertureCtlReset dt ap => Sys2Proof.Machine.execApertureCtlReset dt ap s
  | .apertureViolClear dt ap credit port hardware => Sys2Proof.Machine.execApertureViolClear dt ap credit port hardware s
  | .marchCtlPreserving dt target first last => Sys2Proof.Machine.execMarchCtlPreserving dt target first last s
  | .marchCtlDestructive dt target first last => Sys2Proof.Machine.execMarchCtlDestructive dt target first last s
  | .marchCtlAbort dt target first last => Sys2Proof.Machine.execMarchCtlAbort dt target first last s
  | .repairMapReadLo dt port => Sys2Proof.Machine.execRepairMapReadLo dt port s
  | .repairMapReadHi dt port => Sys2Proof.Machine.execRepairMapReadHi dt port s
  | .loReadLatch dt port offset => Sys2Proof.Machine.execLoReadLatch dt port offset s
  | .rcRead dt port offset size => Sys2Proof.Machine.execRcRead dt port offset size s
  | .camDbgSearch dt => Sys2Proof.Machine.execCamDbgSearch dt s
  | .camDbgReadRow dt => Sys2Proof.Machine.execCamDbgReadRow dt s
  | .camCorrClear dt hardware => Sys2Proof.Machine.execCamCorrClear dt hardware s
  | .registerWrite dt port offset size data => Sys2Proof.Machine.execRegisterWrite dt port offset size data s
  | .ledgerAcknowledgement dt hdr => Sys2Proof.Machine.execLedgerAcknowledgement dt hdr s
  | .kvTierPauseComplete dt slot => Sys2Proof.Machine.execKvTierPauseComplete dt slot s
  | .waitingGrantRequest dt tenant => Sys2Proof.Machine.execWaitingGrantRequest dt tenant s
  | .grpLocateAnswer dt hdr tag answer => Sys2Proof.Machine.execGrpLocateAnswer dt hdr tag answer s

end Sys2Proof.Machine
end

