-- ==== Sys2Proof/Machine/Step.lean ====
section
/-! DEFINITION. The step: the command at the front of the queue runs on the state with the queue's rest; on an empty
queue the block idles (log 5). -/
namespace Sys2Proof.Machine
open Sys2Proof

/-- The state with its queue replaced. -/
def State.setPending (s : State) (q : List Instr) : State := { s with pending := q }

/-- One step of the block (log 5). -/
def step (s : State) : Host.Outcome State Fault Refusal :=
  match s.pending with
  | [] => .next s
  | c :: rest => exec c (s.setPending rest)

/-- The state with the command that a word spells put at the front of the queue; no word spells a command, because the
operation table gives its rows no bits. -/
def State.withFetchWord (s : State) (nbits w : Nat) : State :=
  match decodeTableWord nbits w with
  | some c => s.setPending (c :: s.pending)
  | none => s

end Sys2Proof.Machine
end

