-- ==== Sys2Proof/WellFormed.lean ====
section
/-! DEFINITION. What a command of the right shape holds: apertures, rings, slots, banks, units, group numbers and offsets that exist; and
the time a command carries. -/
namespace Sys2Proof

/-- The time base that passed before a command, in ns (log 1). -/
def Instr.dt : Instr → Nat
  | .apertureWrite dt _ _ _ => dt
  | .apertureRead dt _ _ _ => dt
  | .packetConsume dt _ => dt
  | .creditWordTimer dt _ => dt
  | .sysHello dt _ _ => dt
  | .sysHelloApertureReset dt _ _ => dt
  | .sysRingEnable dt _ _ => dt
  | .sysRingDisable dt _ _ => dt
  | .sysTime dt _ _ => dt
  | .imgLoad dt _ _ => dt
  | .imageStaged dt _ => dt
  | .imgCommit dt _ _ => dt
  | .commitTakesEffect dt => dt
  | .imgDropSlot dt _ _ => dt
  | .imgDropGrammar dt _ _ => dt
  | .imgQuery dt _ _ => dt
  | .strOpen dt _ _ => dt
  | .strClose dt _ _ => dt
  | .strCancel dt _ _ => dt
  | .streamRelease dt _ => dt
  | .quarantineEnd dt _ => dt
  | .strPause dt _ _ => dt
  | .pauseTakesEffect dt _ => dt
  | .pauseExpired dt _ => dt
  | .strResume dt _ _ => dt
  | .strPin dt _ _ => dt
  | .strMigrate dt _ _ => dt
  | .migrationSend dt _ => dt
  | .migrationAnswer dt _ _ => dt
  | .encText dt _ _ => dt
  | .encRaw dt _ _ => dt
  | .segmentDone dt _ _ => dt
  | .transomPieceDone dt _ _ => dt
  | .decTok dt _ _ => dt
  | .tokChoose dt _ _ => dt
  | .choiceGrant dt _ => dt
  | .commitDecodeDone dt _ => dt
  | .specTree dt _ _ => dt
  | .specTreeReply dt _ _ => dt
  | .treeResolveAck dt _ => dt
  | .pfxBind dt _ _ => dt
  | .pfxFind dt _ _ => dt
  | .pfxDrop dt _ _ => dt
  | .budSet dt _ _ => dt
  | .lintelRaise dt _ _ => dt
  | .lintelLower dt _ _ => dt
  | .grpQuery dt _ _ => dt
  | .grpLocate dt _ _ => dt
  | .grpLeave dt _ _ => dt
  | .grpHandover dt _ _ => dt
  | .grpJoin dt _ _ => dt
  | .testMarchPreserving dt _ _ => dt
  | .testMarchDestructive dt _ _ => dt
  | .testMarchAbort dt _ _ => dt
  | .destructiveMarchStart dt _ => dt
  | .destructiveMarchTimeout dt _ => dt
  | .marchBorrow dt _ _ => dt
  | .marchEnd dt _ => dt
  | .testLane dt _ _ => dt
  | .ringHeadPoll dt _ _ => dt
  | .ringStall dt _ => dt
  | .recordsLost dt _ => dt
  | .modTimeExpiry dt _ => dt
  | .ringFault dt _ => dt
  | .stepIssue dt _ _ => dt
  | .idleBoundary dt => dt
  | .logitBurst dt _ _ => dt
  | .rowShaped dt _ _ _ => dt
  | .verdictPass dt _ => dt
  | .verdictFail dt _ => dt
  | .verdictTimeout dt _ => dt
  | .chunkKvWritten dt _ _ => dt
  | .pageRetire dt _ => dt
  | .pageSummary dt _ _ _ _ => dt
  | .pageMoved dt _ => dt
  | .pageRestored dt _ => dt
  | .backgroundBuild dt _ => dt
  | .shutterBuildDone dt _ _ => dt
  | .stackRefillDone dt _ => dt
  | .deadlinePolicy dt _ => dt
  | .sealNotice dt _ _ _ => dt
  | .package dt _ _ => dt
  | .join dt _ _ _ => dt
  | .joinTimer dt => dt
  | .formTimeout dt => dt
  | .welcome dt _ _ _ _ _ _ _ _ => dt
  | .beatTimer dt => dt
  | .beat dt _ _ _ _ _ _ => dt
  | .beatAck dt _ _ _ _ _ => dt
  | .memberDepartTimeout dt _ => dt
  | .quorumLossTimeout dt => dt
  | .deputyPollTimeout dt => dt
  | .poll dt _ => dt
  | .pollAns dt _ _ => dt
  | .takeover dt _ _ _ => dt
  | .orphanTimeout dt => dt
  | .timeSlewTick dt => dt
  | .grantReq dt _ _ _ => dt
  | .grant dt _ _ _ => dt
  | .ledger dt _ _ => dt
  | .budFwd dt _ _ _ => dt
  | .budDone dt _ _ _ _ => dt
  | .chainFind dt _ _ _ _ => dt
  | .chainAns dt _ _ _ => dt
  | .chainFindTimeout dt _ => dt
  | .pfxCopy dt _ _ _ _ => dt
  | .pfxCopyDone dt _ _ => dt
  | .leave dt _ _ _ => dt
  | .down dt _ _ => dt
  | .rescue dt _ _ _ => dt
  | .linkUnreachable dt _ => dt
  | .berylSearch dt _ => dt
  | .slotStealingUpdate dt _ _ _ => dt
  | .threeStepUpdate dt _ _ _ => dt
  | .berylMoveDone dt _ => dt
  | .compactor dt _ => dt
  | .camScrub dt _ => dt
  | .bankReload dt _ => dt
  | .bankReloadDone dt _ => dt
  | .patrolScrub dt _ _ => dt
  | .unitFault dt _ _ _ => dt
  | .lockstepMismatch dt => dt
  | .sillResume dt _ => dt
  | .infieldTestDue dt _ _ => dt
  | .infieldTestDone dt _ _ _ _ => dt
  | .suspectAgeExpiry dt _ _ => dt
  | .historyWriteback dt => dt
  | .mcDelivery dt _ => dt
  | .coldStart dt _ => dt
  | .warmStart dt _ => dt
  | .railLoss dt _ => dt
  | .sleepEntry dt => dt
  | .wakeTimerExpiry dt => dt
  | .fullWake dt => dt
  | .domainWake dt _ => dt
  | .domainPark dt _ => dt
  | .domainOff dt _ => dt
  | .droopTrip dt _ _ => dt
  | .droopRelease dt _ => dt
  | .sleepRequest dt _ _ => dt
  | .sleepClear dt _ _ => dt
  | .warmReset dt _ _ _ => dt
  | .vsetWrite dt _ _ _ => dt
  | .causeClear dt _ _ => dt
  | .causeMaskWrite dt _ => dt
  | .apertureCtlReset dt _ => dt
  | .apertureViolClear dt _ _ _ _ => dt
  | .marchCtlPreserving dt _ _ _ => dt
  | .marchCtlDestructive dt _ _ _ => dt
  | .marchCtlAbort dt _ _ _ => dt
  | .repairMapReadLo dt _ => dt
  | .repairMapReadHi dt _ => dt
  | .loReadLatch dt _ _ => dt
  | .rcRead dt _ _ _ => dt
  | .camDbgSearch dt => dt
  | .camDbgReadRow dt => dt
  | .camCorrClear dt _ => dt
  | .registerWrite dt _ _ _ _ => dt
  | .ledgerAcknowledgement dt _ => dt
  | .kvTierPauseComplete dt _ => dt
  | .waitingGrantRequest dt _ => dt
  | .grpLocateAnswer dt _ _ _ => dt

/-- The same command after another time. -/
def Instr.withDt (d : Nat) : Instr → Instr
  | .apertureWrite _ port offset data => .apertureWrite d port offset data
  | .apertureRead _ port offset size => .apertureRead d port offset size
  | .packetConsume _ ap => .packetConsume d ap
  | .creditWordTimer _ ap => .creditWordTimer d ap
  | .sysHello _ ap pos => .sysHello d ap pos
  | .sysHelloApertureReset _ ap pos => .sysHelloApertureReset d ap pos
  | .sysRingEnable _ ap pos => .sysRingEnable d ap pos
  | .sysRingDisable _ ap pos => .sysRingDisable d ap pos
  | .sysTime _ ap pos => .sysTime d ap pos
  | .imgLoad _ ap pos => .imgLoad d ap pos
  | .imageStaged _ slot => .imageStaged d slot
  | .imgCommit _ ap pos => .imgCommit d ap pos
  | .commitTakesEffect _ => .commitTakesEffect d
  | .imgDropSlot _ ap pos => .imgDropSlot d ap pos
  | .imgDropGrammar _ ap pos => .imgDropGrammar d ap pos
  | .imgQuery _ ap pos => .imgQuery d ap pos
  | .strOpen _ ap pos => .strOpen d ap pos
  | .strClose _ ap pkt => .strClose d ap pkt
  | .strCancel _ ap pkt => .strCancel d ap pkt
  | .streamRelease _ slot => .streamRelease d slot
  | .quarantineEnd _ slot => .quarantineEnd d slot
  | .strPause _ ap pkt => .strPause d ap pkt
  | .pauseTakesEffect _ slot => .pauseTakesEffect d slot
  | .pauseExpired _ slot => .pauseExpired d slot
  | .strResume _ ap pos => .strResume d ap pos
  | .strPin _ ap pkt => .strPin d ap pkt
  | .strMigrate _ ap pkt => .strMigrate d ap pkt
  | .migrationSend _ slot => .migrationSend d slot
  | .migrationAnswer _ slot answer => .migrationAnswer d slot answer
  | .encText _ ap pos => .encText d ap pos
  | .encRaw _ ap pos => .encRaw d ap pos
  | .segmentDone _ ap seg => .segmentDone d ap seg
  | .transomPieceDone _ ap pos => .transomPieceDone d ap pos
  | .decTok _ ap pos => .decTok d ap pos
  | .tokChoose _ ap pos => .tokChoose d ap pos
  | .choiceGrant _ slot => .choiceGrant d slot
  | .commitDecodeDone _ slot => .commitDecodeDone d slot
  | .specTree _ ap pos => .specTree d ap pos
  | .specTreeReply _ ap pos => .specTreeReply d ap pos
  | .treeResolveAck _ slot => .treeResolveAck d slot
  | .pfxBind _ ap pos => .pfxBind d ap pos
  | .pfxFind _ ap pos => .pfxFind d ap pos
  | .pfxDrop _ ap pos => .pfxDrop d ap pos
  | .budSet _ ap pos => .budSet d ap pos
  | .lintelRaise _ ap pos => .lintelRaise d ap pos
  | .lintelLower _ ap pos => .lintelLower d ap pos
  | .grpQuery _ ap pos => .grpQuery d ap pos
  | .grpLocate _ ap pos => .grpLocate d ap pos
  | .grpLeave _ ap pos => .grpLeave d ap pos
  | .grpHandover _ ap pos => .grpHandover d ap pos
  | .grpJoin _ ap pos => .grpJoin d ap pos
  | .testMarchPreserving _ ap pos => .testMarchPreserving d ap pos
  | .testMarchDestructive _ ap pos => .testMarchDestructive d ap pos
  | .testMarchAbort _ ap pos => .testMarchAbort d ap pos
  | .destructiveMarchStart _ array => .destructiveMarchStart d array
  | .destructiveMarchTimeout _ array => .destructiveMarchTimeout d array
  | .marchBorrow _ array found => .marchBorrow d array found
  | .marchEnd _ fails => .marchEnd d fails
  | .testLane _ ap pos => .testLane d ap pos
  | .ringHeadPoll _ ring value => .ringHeadPoll d ring value
  | .ringStall _ ring => .ringStall d ring
  | .recordsLost _ ring => .recordsLost d ring
  | .modTimeExpiry _ ring => .modTimeExpiry d ring
  | .ringFault _ target => .ringFault d target
  | .stepIssue _ entries tokens => .stepIssue d entries tokens
  | .idleBoundary _ => .idleBoundary d
  | .logitBurst _ facet burst => .logitBurst d facet burst
  | .rowShaped _ step slot node => .rowShaped d step slot node
  | .verdictPass _ step => .verdictPass d step
  | .verdictFail _ step => .verdictFail d step
  | .verdictTimeout _ step => .verdictTimeout d step
  | .chunkKvWritten _ step what => .chunkKvWritten d step what
  | .pageRetire _ page => .pageRetire d page
  | .pageSummary _ slot handle size loc => .pageSummary d slot handle size loc
  | .pageMoved _ slot => .pageMoved d slot
  | .pageRestored _ slot => .pageRestored d slot
  | .backgroundBuild _ slot => .backgroundBuild d slot
  | .shutterBuildDone _ slot part => .shutterBuildDone d slot part
  | .stackRefillDone _ slot => .stackRefillDone d slot
  | .deadlinePolicy _ slot => .deadlinePolicy d slot
  | .sealNotice _ hdr sealId kind => .sealNotice d hdr sealId kind
  | .package _ hdr body => .package d hdr body
  | .join _ hdr frameCrc time => .join d hdr frameCrc time
  | .joinTimer _ => .joinTimer d
  | .formTimeout _ => .formTimeout d
  | .welcome _ hdr newEpoch live asleep master deputy time tenants => .welcome d hdr newEpoch live asleep master deputy time tenants
  | .beatTimer _ => .beatTimer d
  | .beat _ hdr time live deputy delay figures => .beat d hdr time live deputy delay figures
  | .beatAck _ hdr echo received turnaround figures => .beatAck d hdr echo received turnaround figures
  | .memberDepartTimeout _ member => .memberDepartTimeout d member
  | .quorumLossTimeout _ => .quorumLossTimeout d
  | .deputyPollTimeout _ => .deputyPollTimeout d
  | .poll _ hdr => .poll d hdr
  | .pollAns _ hdr recent => .pollAns d hdr recent
  | .takeover _ hdr newEpoch newDeputy => .takeover d hdr newEpoch newDeputy
  | .orphanTimeout _ => .orphanTimeout d
  | .timeSlewTick _ => .timeSlewTick d
  | .grantReq _ hdr tenant units => .grantReq d hdr tenant units
  | .grant _ hdr tenant units => .grant d hdr tenant units
  | .ledger _ hdr change => .ledger d hdr change
  | .budFwd _ hdr set tag => .budFwd d hdr set tag
  | .budDone _ hdr tag status level => .budDone d hdr tag status level
  | .chainFind _ hdr handle tenant request => .chainFind d hdr handle tenant request
  | .chainAns _ hdr request hit => .chainAns d hdr request hit
  | .chainFindTimeout _ request => .chainFindTimeout d request
  | .pfxCopy _ hdr handle tenant pages => .pfxCopy d hdr handle tenant pages
  | .pfxCopyDone _ handle tenant => .pfxCopyDone d handle tenant
  | .leave _ hdr sleep units => .leave d hdr sleep units
  | .down _ hdr lost => .down d hdr lost
  | .rescue _ hdr lost streams => .rescue d hdr lost streams
  | .linkUnreachable _ member => .linkUnreachable d member
  | .berylSearch _ search => .berylSearch d search
  | .slotStealingUpdate _ channel bank update => .slotStealingUpdate d channel bank update
  | .threeStepUpdate _ channel bank steps => .threeStepUpdate d channel bank steps
  | .berylMoveDone _ bank => .berylMoveDone d bank
  | .compactor _ bank => .compactor d bank
  | .camScrub _ scrub => .camScrub d scrub
  | .bankReload _ bank => .bankReload d bank
  | .bankReloadDone _ bank => .bankReloadDone d bank
  | .patrolScrub _ array scrub => .patrolScrub d array scrub
  | .unitFault _ kind inst work => .unitFault d kind inst work
  | .lockstepMismatch _ => .lockstepMismatch d
  | .sillResume _ passed => .sillResume d passed
  | .infieldTestDue _ kind inst => .infieldTestDue d kind inst
  | .infieldTestDone _ kind inst passed agreed => .infieldTestDone d kind inst passed agreed
  | .suspectAgeExpiry _ kind inst => .suspectAgeExpiry d kind inst
  | .historyWriteback _ => .historyWriteback d
  | .mcDelivery _ delivery => .mcDelivery d delivery
  | .coldStart _ fails => .coldStart d fails
  | .warmStart _ fails => .warmStart d fails
  | .railLoss _ aonKept => .railLoss d aonKept
  | .sleepEntry _ => .sleepEntry d
  | .wakeTimerExpiry _ => .wakeTimerExpiry d
  | .fullWake _ => .fullWake d
  | .domainWake _ domain => .domainWake d domain
  | .domainPark _ domain => .domainPark d domain
  | .domainOff _ domain => .domainOff d domain
  | .droopTrip _ sensor deep => .droopTrip d sensor deep
  | .droopRelease _ sensor => .droopRelease d sensor
  | .sleepRequest _ vset autoGate => .sleepRequest d vset autoGate
  | .sleepClear _ vset autoGate => .sleepClear d vset autoGate
  | .warmReset _ vset autoGate sleep => .warmReset d vset autoGate sleep
  | .vsetWrite _ vset autoGate sleep => .vsetWrite d vset autoGate sleep
  | .causeClear _ word hardware => .causeClear d word hardware
  | .causeMaskWrite _ word => .causeMaskWrite d word
  | .apertureCtlReset _ ap => .apertureCtlReset d ap
  | .apertureViolClear _ ap credit port hardware => .apertureViolClear d ap credit port hardware
  | .marchCtlPreserving _ target first last => .marchCtlPreserving d target first last
  | .marchCtlDestructive _ target first last => .marchCtlDestructive d target first last
  | .marchCtlAbort _ target first last => .marchCtlAbort d target first last
  | .repairMapReadLo _ port => .repairMapReadLo d port
  | .repairMapReadHi _ port => .repairMapReadHi d port
  | .loReadLatch _ port offset => .loReadLatch d port offset
  | .rcRead _ port offset size => .rcRead d port offset size
  | .camDbgSearch _ => .camDbgSearch d
  | .camDbgReadRow _ => .camDbgReadRow d
  | .camCorrClear _ hardware => .camCorrClear d hardware
  | .registerWrite _ port offset size data => .registerWrite d port offset size data
  | .ledgerAcknowledgement _ hdr => .ledgerAcknowledgement d hdr
  | .kvTierPauseComplete _ slot => .kvTierPauseComplete d slot
  | .waitingGrantRequest _ tenant => .waitingGrantRequest d tenant
  | .grpLocateAnswer _ hdr tag answer => .grpLocateAnswer d hdr tag answer

/-- Instances of a unit kind (R11, R464): lanes, slices, casement units, facets, Beryl banks, transom, Sill core. -/
def unitCount (kind : Nat) : Nat := [16, 16, 64, 16, 34, 1, 1].getD kind 0

/-- A unit that exists. -/
def unitOk (kind inst : Nat) : Bool := decide (inst < unitCount kind)

/-- The header of a group message (R429): a group number and a 32-bit epoch. -/
def MsgHdr.ok (h : MsgHdr) : Bool := decide (h.source < 64) && decide (h.epoch < 2 ^ 32)

/-- The slots of the stream table (R303). -/
def slotOk (slot : Nat) : Bool := decide (slot < 262144)

/-- A read of the window of 64 KiB: 1, 2, 4 or 8 naturally aligned bytes (R472). -/
def windowRead (offset size : Nat) : Bool := [1, 2, 4, 8].contains size && offset % size == 0 && decide (offset + size ≤ 65536)

/-- A fault of a ring, or of an aperture's credit word, that exists (R67). -/
def PortFault.ok : PortFault → Bool
  | .ring n => decide (n < 64)
  | .credit n => decide (n < 64)

/-- A burst holds 1,024 logits of one pane of a vocabulary of at most 2^20 (R250). -/
def Burst.ok (b : Burst) : Bool := b.logits.length == 1024 && decide (b.format < 4) && decide (b.pane < 1024) && slotOk b.slot && decide (b.node < 64)

/-- A cell of a match array: one of 34 banks of 8,192 rows of 120 bits (R274, R275). -/
def Upset.ok (u : Upset) : Bool := decide (u.bank < 34) && decide (u.row < 8192) && decide (u.bit < 120)

/-- A write that firmware loses to port A's names one of the 32 words of a stream table entry (R306, R307). -/
def clashOk (clash : Option Nat) : Bool := clash.all (fun w => decide (w < 32))

/-- What each command's operands must be. -/
def Instr.wellFormed : Instr → Bool
  | .apertureWrite _ _ offset data => offset % 4 == 0 && 1 ≤ data.length && data.length ≤ 1024 && offset + 4 * data.length ≤ 0x4000000
  | .apertureRead _ _ offset size => decide (offset + size ≤ 0x4000000)
  | .packetConsume _ ap => decide (ap < 64)
  | .creditWordTimer _ ap => decide (ap < 64)
  | .sysHello _ ap _ => decide (ap < 64)
  | .sysHelloApertureReset _ ap _ => decide (ap < 64)
  | .sysRingEnable _ ap _ => decide (ap < 64)
  | .sysRingDisable _ ap _ => decide (ap < 64)
  | .sysTime _ ap _ => decide (ap < 64)
  | .imgLoad _ ap _ => decide (ap < 64)
  | .imageStaged _ slot => decide (slot < 16)
  | .imgCommit _ ap _ => decide (ap < 64)
  | .commitTakesEffect _ => true
  | .imgDropSlot _ ap _ => decide (ap < 64)
  | .imgDropGrammar _ ap _ => decide (ap < 64)
  | .imgQuery _ ap _ => decide (ap < 64)
  | .strOpen _ ap _ => decide (ap < 64)
  | .strClose _ ap ⟨_, clash⟩ => decide (ap < 64) && clashOk clash
  | .strCancel _ ap ⟨_, clash⟩ => decide (ap < 64) && clashOk clash
  | .streamRelease _ slot => slotOk slot
  | .quarantineEnd _ slot => slotOk slot
  | .strPause _ ap ⟨_, _, clash⟩ => decide (ap < 64) && clashOk clash
  | .pauseTakesEffect _ slot => slotOk slot
  | .pauseExpired _ slot => slotOk slot
  | .strResume _ ap _ => decide (ap < 64)
  | .strPin _ ap ⟨_, clash⟩ => decide (ap < 64) && clashOk clash
  | .strMigrate _ ap ⟨_, clash⟩ => decide (ap < 64) && clashOk clash
  | .migrationSend _ slot => slotOk slot
  | .migrationAnswer _ slot _ => slotOk slot
  | .encText _ ap _ => decide (ap < 64)
  | .encRaw _ ap _ => decide (ap < 64)
  | .segmentDone _ ap ⟨_, upTo⟩ => decide (ap < 64) && upTo.all (fun n => decide (n ≤ 65536))
  | .transomPieceDone _ ap _ => decide (ap < 64)
  | .decTok _ ap _ => decide (ap < 64)
  | .tokChoose _ ap _ => decide (ap < 64)
  | .choiceGrant _ slot => slotOk slot
  | .commitDecodeDone _ slot => slotOk slot
  | .specTree _ ap _ => decide (ap < 64)
  | .specTreeReply _ ap _ => decide (ap < 64)
  | .treeResolveAck _ slot => slotOk slot
  | .pfxBind _ ap _ => decide (ap < 64)
  | .pfxFind _ ap _ => decide (ap < 64)
  | .pfxDrop _ ap _ => decide (ap < 64)
  | .budSet _ ap _ => decide (ap < 64)
  | .lintelRaise _ ap _ => decide (ap < 64)
  | .lintelLower _ ap _ => decide (ap < 64)
  | .grpQuery _ ap _ => decide (ap < 64)
  | .grpLocate _ ap _ => decide (ap < 64)
  | .grpLeave _ ap _ => decide (ap < 64)
  | .grpHandover _ ap _ => decide (ap < 64)
  | .grpJoin _ ap _ => decide (ap < 64)
  | .testMarchPreserving _ ap _ => decide (ap < 64)
  | .testMarchDestructive _ ap _ => decide (ap < 64)
  | .testMarchAbort _ ap _ => decide (ap < 64)
  | .destructiveMarchStart _ array => decide (array < 88)
  | .destructiveMarchTimeout _ array => decide (array < 88)
  | .marchBorrow _ array _ => decide (array < 88)
  | .marchEnd _ fails => fails.all (fun x => decide (x.1 < 122))
  | .testLane _ ap _ => decide (ap < 64)
  | .ringHeadPoll _ ring _ => decide (ring < 64)
  | .ringStall _ ring => decide (ring < 64)
  | .recordsLost _ ring => decide (ring < 64)
  | .modTimeExpiry _ ring => decide (ring < 64)
  | .ringFault _ target => target.ok
  | .stepIssue _ entries tokens => decide (entries ≤ 16384) && decide (tokens ≤ 65536)
  | .idleBoundary _ => true
  | .logitBurst _ facet burst => decide (facet < 16) && burst.ok
  | .rowShaped _ _ slot node => slotOk slot && decide (node < 64)
  | .verdictPass _ _ => true
  | .verdictFail _ _ => true
  | .verdictTimeout _ _ => true
  | .chunkKvWritten _ _ ⟨slot, _⟩ => slotOk slot
  | .pageRetire _ page => decide (page < 2097152)
  | .pageSummary _ slot _ _ _ => slotOk slot
  | .pageMoved _ slot => slotOk slot
  | .pageRestored _ slot => slotOk slot
  | .backgroundBuild _ slot => slotOk slot
  | .shutterBuildDone _ slot ⟨node, unit⟩ => slotOk slot && decide (node < 64) && unit.all (fun u => decide (u < 64))
  | .stackRefillDone _ slot => slotOk slot
  | .deadlinePolicy _ slot => slotOk slot
  | .sealNotice _ hdr _ _ => hdr.ok
  | .package _ hdr _ => hdr.ok
  | .join _ hdr _ _ => hdr.ok
  | .joinTimer _ => true
  | .formTimeout _ => true
  | .welcome _ hdr _ _ _ _ _ _ _ => hdr.ok
  | .beatTimer _ => true
  | .beat _ hdr _ _ _ _ _ => hdr.ok
  | .beatAck _ hdr _ _ _ _ => hdr.ok
  | .memberDepartTimeout _ member => decide (member < 64)
  | .quorumLossTimeout _ => true
  | .deputyPollTimeout _ => true
  | .poll _ hdr => hdr.ok
  | .pollAns _ hdr _ => hdr.ok
  | .takeover _ hdr _ _ => hdr.ok
  | .orphanTimeout _ => true
  | .timeSlewTick _ => true
  | .grantReq _ hdr _ _ => hdr.ok
  | .grant _ hdr _ _ => hdr.ok
  | .ledger _ hdr _ => hdr.ok
  | .budFwd _ hdr _ _ => hdr.ok
  | .budDone _ hdr _ _ _ => hdr.ok
  | .chainFind _ hdr _ _ _ => hdr.ok
  | .chainAns _ hdr _ _ => hdr.ok
  | .chainFindTimeout _ _ => true
  | .pfxCopy _ hdr _ _ _ => hdr.ok
  | .pfxCopyDone _ _ _ => true
  | .leave _ hdr _ _ => hdr.ok
  | .down _ hdr _ => hdr.ok
  | .rescue _ hdr _ _ => hdr.ok
  | .linkUnreachable _ member => decide (member < 64)
  | .berylSearch _ ⟨req, found⟩ => decide (req.kw < 8) && decide (req.channel < 34) && found.upsets.all Upset.ok
  | .slotStealingUpdate _ channel bank _ => decide (bank < 32) && decide (channel < 34)
  | .threeStepUpdate _ channel bank _ => decide (bank < 32) && decide (channel < 34)
  | .berylMoveDone _ bank => decide (bank < 32)
  | .compactor _ bank => decide (bank < 32)
  | .camScrub _ ⟨bank, upsets, _⟩ => decide (bank < 34) && upsets.all Upset.ok
  | .bankReload _ bank => decide (bank < 34)
  | .bankReloadDone _ bank => decide (bank < 32)
  | .patrolScrub _ array _ => decide (array < 88)
  | .unitFault _ kind inst _ => unitOk kind inst
  | .lockstepMismatch _ => true
  | .sillResume _ _ => true
  | .infieldTestDue _ kind inst => unitOk kind inst
  | .infieldTestDone _ kind inst _ _ => unitOk kind inst
  | .suspectAgeExpiry _ kind inst => unitOk kind inst
  | .historyWriteback _ => true
  | .mcDelivery _ _ => true
  | .coldStart _ _ => true
  | .warmStart _ _ => true
  | .railLoss _ _ => true
  | .sleepEntry _ => true
  | .wakeTimerExpiry _ => true
  | .fullWake _ => true
  | .domainWake _ domain => decide (domain < 7)
  | .domainPark _ domain => decide (domain < 7)
  | .domainOff _ domain => decide (domain < 7)
  | .droopTrip _ sensor _ => decide (sensor < 24)
  | .droopRelease _ sensor => decide (sensor < 24)
  | .sleepRequest _ vset _ => decide (vset < 32)
  | .sleepClear _ vset _ => decide (vset < 32)
  | .warmReset _ vset _ _ => decide (vset < 32)
  | .vsetWrite _ vset _ _ => decide (vset < 32)
  | .causeClear _ _ _ => true
  | .causeMaskWrite _ _ => true
  | .apertureCtlReset _ ap => decide (ap < 64)
  | .apertureViolClear _ ap _ _ _ => decide (ap < 64)
  | .marchCtlPreserving _ _ first last => decide (first < 128) && decide (last < 128)
  | .marchCtlDestructive _ _ first last => decide (first < 128) && decide (last < 128)
  | .marchCtlAbort _ _ first last => decide (first < 128) && decide (last < 128)
  | .repairMapReadLo _ _ => true
  | .repairMapReadHi _ _ => true
  | .loReadLatch _ _ offset => windowRead offset 4
  | .rcRead _ _ offset size => windowRead offset size
  | .camDbgSearch _ => true
  | .camDbgReadRow _ => true
  | .camCorrClear _ _ => true
  | .registerWrite _ _ offset size _ => decide (1 ≤ size) && decide (offset + size ≤ 65536)
  | .ledgerAcknowledgement _ hdr => hdr.ok
  | .kvTierPauseComplete _ slot => slotOk slot
  | .waitingGrantRequest _ _ => true
  | .grpLocateAnswer _ hdr _ _ => hdr.ok

end Sys2Proof
end

