-- ==== Sys2Proof/Safety.lean ====
section
/-! DEFINITION. The words in which statements about the block are made: which parts of the state a command leaves alone, when a staged
packet is taken up, when a group message is acted on, and the invariant that every step keeps. -/
namespace Sys2Proof.Machine
open Sys2Proof

/-- The parts of the state. -/
inductive Field where
  | pending | out | freeCtr | aon | start | ing | egr | img | str | sch | sto | ber | mem | cas
  deriving DecidableEq, Repr

/-- Two states agree in a part. -/
def Field.same (s t : State) : Field → Prop
  | .pending => t.pending = s.pending
  | .out => t.out = s.out
  | .freeCtr => t.freeCtr = s.freeCtr
  | .aon => t.aon = s.aon
  | .start => t.start = s.start
  | .ing => t.ing = s.ing
  | .egr => t.egr = s.egr
  | .img => t.img = s.img
  | .str => t.str = s.str
  | .sch => t.sch = s.sch
  | .sto => t.sto = s.sto
  | .ber => t.ber = s.ber
  | .mem => t.mem = s.mem
  | .cas => t.cas = s.cas

/-- From s to t every part outside a list is unchanged. -/
def State.keepsBut (s : State) (changed : List Field) (t : State) : Prop := ∀ p, p ∉ changed → p.same s t

/-- The parts of the state that a command may change; every other part is unchanged whenever it answers a next state. -/
def touches : Instr → List Field
  | .domainWake .. | .domainPark .. | .domainOff .. | .droopTrip .. | .droopRelease .. => [.aon]
  | .quarantineEnd .. | .treeResolveAck .. | .backgroundBuild .. | .stackRefillDone .. => [.aon, .str]
  | .transomPieceDone .. => [.aon, .ing]
  | .destructiveMarchStart .. | .marchBorrow .. | .suspectAgeExpiry .. => [.aon, .mem]
  | .timeSlewTick .. => [.aon, .cas]
  | .causeClear .. | .causeMaskWrite .. => [.out, .aon]
  | .apertureRead .. | .creditWordTimer .. => [.out, .aon, .ing]
  | .joinTimer .. | .beatTimer .. | .deputyPollTimeout .. => [.out, .aon, .cas]
  | .historyWriteback .. => [.out, .aon, .mem]
  | .coldStart .. | .warmStart .. | .sleepEntry .. => [.out, .aon, .start]
  | .migrationSend .. => [.out, .aon, .str, .sto]
  | .shutterBuildDone .. => [.aon, .str, .sch, .mem]
  | .waitingGrantRequest .. => [.out, .aon, .egr, .str, .sto, .mem, .cas]
  | .pauseTakesEffect .. | .chunkKvWritten .. => [.out, .aon, .str, .sch, .sto]
  | .ringHeadPoll .. | .ringStall .. | .recordsLost .. | .modTimeExpiry .. => [.out, .aon, .egr, .str, .mem]
  | .choiceGrant .. => [.out, .aon, .img, .str, .sto, .cas]
  | .ringFault .. => [.out, .aon, .ing, .egr, .str, .mem]
  | .rowShaped .. | .infieldTestDue .. => [.out, .aon, .egr, .str, .sch, .mem]
  | .pageRetire .. => [.aon, .str, .sch, .sto, .ber, .mem]
  | .beatAck .. | .poll .. | .chainFind .. | .down .. | .wakeTimerExpiry .. | .fullWake .. | .sleepRequest .. | .sleepClear .. | .vsetWrite ..
  | .camDbgReadRow .. | .camCorrClear .. => [.out, .aon, .start, .ber, .mem, .cas]
  | .packetConsume .. | .sysHello .. | .sysHelloApertureReset .. | .sysRingEnable .. | .sysRingDisable .. | .sysTime .. | .imgQuery .. | .strPause ..
  | .strPin .. | .strMigrate .. | .encText .. | .encRaw .. | .decTok .. | .specTree .. | .grpQuery .. | .testMarchAbort ..
  | .destructiveMarchTimeout .. => [.out, .freeCtr, .aon, .ing, .egr, .str, .mem]
  | .grantReq .. | .pfxCopy .. => [.out, .aon, .start, .sto, .ber, .mem, .cas]
  | .apertureCtlReset .. | .apertureViolClear .. | .repairMapReadLo .. | .repairMapReadHi .. | .loReadLatch ..
    => [.out, .aon, .start, .ing, .ber, .mem, .cas]
  | .marchCtlPreserving .. | .marchCtlDestructive .. | .marchCtlAbort .. => [.out, .aon, .start, .img, .ber, .mem, .cas]
  | .imgLoad .. | .imgCommit .. | .imgDropGrammar .. | .tokChoose .. => [.out, .freeCtr, .aon, .ing, .egr, .img, .str, .mem]
  | .lintelRaise .. | .testLane .. => [.out, .freeCtr, .aon, .ing, .egr, .str, .sch, .mem]
  | .grpLocate .. | .grpHandover .. | .grpJoin .. | .quorumLossTimeout .. | .orphanTimeout .. => [.out, .freeCtr, .aon, .ing, .egr, .str, .mem, .cas]
  | .marchEnd .. => [.out, .freeCtr, .aon, .ing, .egr, .str, .ber, .mem]
  | .rcRead .. => [.out, .freeCtr, .aon, .start, .ing, .ber, .mem, .cas]
  | .kvTierPauseComplete .. => [.out, .freeCtr, .aon, .ing, .egr, .str, .sto, .mem]
  | .apertureWrite .. => [.out, .aon, .start, .ing, .egr, .str, .ber, .mem, .cas]
  | .commitTakesEffect .. | .imgDropSlot .. | .segmentDone .. | .testMarchPreserving .. | .testMarchDestructive ..
    => [.out, .freeCtr, .aon, .ing, .egr, .img, .str, .ber, .mem]
  | .streamRelease .. | .berylSearch .. | .slotStealingUpdate .. | .threeStepUpdate .. | .berylMoveDone .. | .compactor .. | .camScrub ..
  | .bankReload .. | .bankReloadDone .. => [.out, .aon, .egr, .img, .str, .sch, .sto, .ber, .mem]
  | .grpLeave .. => [.out, .freeCtr, .aon, .ing, .egr, .str, .sto, .mem, .cas]
  | .logitBurst .. | .verdictFail .. | .verdictTimeout .. => [.out, .freeCtr, .aon, .ing, .egr, .str, .sch, .sto, .mem]
  | .grant .. | .budFwd .. => [.out, .aon, .start, .egr, .str, .sto, .ber, .mem, .cas]
  | .lockstepMismatch .. | .sillResume .. | .infieldTestDone .. => [.out, .freeCtr, .aon, .start, .ing, .egr, .str, .sch, .mem]
  | .strResume .. | .commitDecodeDone .. | .lintelLower .. | .pageSummary .. | .pageRestored ..
    => [.out, .freeCtr, .aon, .ing, .egr, .str, .sch, .sto, .ber, .mem]
  | .specTreeReply .. => [.out, .freeCtr, .aon, .ing, .egr, .img, .str, .sto, .mem, .cas]
  | .formTimeout .. => [.out, .freeCtr, .aon, .ing, .egr, .str, .sto, .ber, .mem, .cas]
  | .budDone .. | .grpLocateAnswer .. => [.out, .freeCtr, .aon, .start, .ing, .egr, .str, .ber, .mem, .cas]
  | .mcDelivery .. => [.out, .aon, .start, .egr, .img, .str, .sto, .ber, .mem, .cas]
  | .imageStaged .. | .pfxBind .. | .pfxDrop .. => [.out, .freeCtr, .aon, .ing, .egr, .img, .str, .sch, .sto, .ber, .mem]
  | .strClose .. | .strCancel .. | .pauseExpired .. | .pageMoved .. | .deadlinePolicy .. | .pfxCopyDone ..
    => [.out, .freeCtr, .aon, .ing, .egr, .str, .sch, .sto, .ber, .mem, .cas]
  | .join .. | .welcome .. | .takeover .. | .ledgerAcknowledgement .. => [.out, .freeCtr, .aon, .start, .ing, .egr, .str, .sto, .ber, .mem, .cas]
  | .camDbgSearch .. => [.out, .aon, .start, .egr, .img, .str, .sch, .sto, .ber, .mem, .cas]
  | .strOpen .. | .migrationAnswer .. | .pfxFind .. | .budSet .. | .stepIssue .. | .idleBoundary .. | .verdictPass .. | .memberDepartTimeout ..
  | .chainFindTimeout .. | .linkUnreachable .. => [.out, .freeCtr, .aon, .ing, .egr, .img, .str, .sch, .sto, .ber, .mem, .cas]
  | .unitFault .. => [.out, .freeCtr, .aon, .start, .ing, .egr, .img, .str, .sch, .sto, .ber, .mem]
  | .sealNotice .. | .package .. | .beat .. | .pollAns .. | .ledger .. | .chainAns .. | .leave .. | .rescue .. | .patrolScrub .. | .railLoss ..
  | .warmReset .. | .registerWrite .. => [.out, .freeCtr, .aon, .start, .ing, .egr, .img, .str, .sch, .sto, .ber, .mem, .cas]

/-- A staged packet of a form is taken up now: it is in its turn (R55, R57), the block serves packets, its stream is not one that a
memory error has cancelled, and checks 5 and 6 of R48 pass. -/
structure State.takesUp (s : State) (form : Pkt → Bool) (ap pos : Nat) (p : Pkt) : Prop where
  staged : s.stagedAt ap pos = some p
  isForm : form p = true
  turn : s.mayStart p = true
  serves : s.serving = true
  core : (p.firmware && s.mem.sillHalted) = false
  up : s.start.down = false
  alive : (p.onStream && s.str.memCancel.contains p.stream) = false
  checks : (s.start_ p).check56 p = .pass

/-- The packet that a packet command takes up: its aperture, its position, and the form the packet must have (R45). -/
def packetOf : Instr → Option (Nat × Nat × (Pkt → Bool))
  | .sysHello _ ap pos => some (ap, pos, fun p => isOp 0x0101 p && !bit p.arg 8)
  | .sysHelloApertureReset _ ap pos => some (ap, pos, fun p => isOp 0x0101 p && bit p.arg 8)
  | .sysRingEnable _ ap pos => some (ap, pos, fun p => isOp 0x0102 p && p.ringEnable)
  | .sysRingDisable _ ap pos => some (ap, pos, fun p => isOp 0x0102 p && !p.ringEnable)
  | .sysTime _ ap pos => some (ap, pos, isOp 0x0103)
  | .imgLoad _ ap pos => some (ap, pos, isOp 0x0201)
  | .imgCommit _ ap pos => some (ap, pos, isOp 0x0202)
  | .imgDropSlot _ ap pos => some (ap, pos, fun p => isOp 0x0203 p && bits p.arg 1 0 == 0)
  | .imgDropGrammar _ ap pos => some (ap, pos, fun p => isOp 0x0203 p && bits p.arg 1 0 == 1)
  | .imgQuery _ ap pos => some (ap, pos, isOp 0x0204)
  | .strOpen _ ap pos => some (ap, pos, isOp 0x0301)
  | .strClose _ ap ⟨pos, _⟩ => some (ap, pos, isOp 0x0302)
  | .strCancel _ ap ⟨pos, _⟩ => some (ap, pos, isOp 0x0303)
  | .strPause _ ap ⟨pos, _, _⟩ => some (ap, pos, isOp 0x0304)
  | .strResume _ ap pos => some (ap, pos, isOp 0x0305)
  | .strPin _ ap ⟨pos, _⟩ => some (ap, pos, isOp 0x0306)
  | .strMigrate _ ap ⟨pos, _⟩ => some (ap, pos, isOp 0x0307)
  | .encText _ ap pos => some (ap, pos, isOp 0x0401)
  | .encRaw _ ap pos => some (ap, pos, isOp 0x0402)
  | .decTok _ ap pos => some (ap, pos, isOp 0x0501)
  | .tokChoose _ ap pos => some (ap, pos, isOp 0x0601)
  | .specTree _ ap pos => some (ap, pos, fun p => isOp 0x0701 p && !bit p.opflags 0)
  | .specTreeReply _ ap pos => some (ap, pos, fun p => isOp 0x0701 p && bit p.opflags 0)
  | .pfxBind _ ap pos => some (ap, pos, isOp 0x0801)
  | .pfxFind _ ap pos => some (ap, pos, isOp 0x0802)
  | .pfxDrop _ ap pos => some (ap, pos, isOp 0x0803)
  | .budSet _ ap pos => some (ap, pos, isOp 0x0901)
  | .lintelRaise _ ap pos => some (ap, pos, isOp 0x0A01)
  | .lintelLower _ ap pos => some (ap, pos, isOp 0x0A02)
  | .grpQuery _ ap pos => some (ap, pos, isOp 0x0B01)
  | .grpLocate _ ap pos => some (ap, pos, isOp 0x0B02)
  | .grpLeave _ ap pos => some (ap, pos, isOp 0x0B03)
  | .grpHandover _ ap pos => some (ap, pos, isOp 0x0B04)
  | .grpJoin _ ap pos => some (ap, pos, isOp 0x0B05)
  | .testMarchPreserving _ ap pos => some (ap, pos, fun p => isOp 0x0C01 p && bits p.arg 1 0 == 0)
  | .testMarchDestructive _ ap pos => some (ap, pos, fun p => isOp 0x0C01 p && bits p.arg 1 0 == 1)
  | .testMarchAbort _ ap pos => some (ap, pos, fun p => isOp 0x0C01 p && bits p.arg 1 0 == 2)
  | .testLane _ ap pos => some (ap, pos, isOp 0x0C02)
  | _ => none

/-- The Beryl uses whose banks a packet command reads or updates (R281). -/
def berylUses : Instr → Option (Pkt → List Nat)
  | .strOpen .. => some openUses
  | .pfxBind .. => some (fun _ => [1])
  | .pfxFind .. => some (fun _ => [1])
  | .pfxDrop .. => some (fun _ => [1])
  | .budSet .. => some (fun _ => [3])
  | _ => none

/-- The state that a packet command finds: time has moved on, and for a packet that uses Beryl what waits there has gone on as far as it can
(log 114). -/
def State.found (s : State) (i : Instr) : State :=
  match berylUses i with
  | some _ => (s.elapse i.dt).settleBeryl
  | none => s.elapse i.dt

/-- The form that a staged packet must have, the quiet of the banks that it uses included (log 114). -/
def State.formFor (s : State) (i : Instr) (form : Pkt → Bool) : Pkt → Bool :=
  match berylUses i with
  | some uses => fun p => form p && (s.found i).quiet (uses p)
  | none => form

/-- A packet command finds its packet p staged and takes it up at once. -/
def State.due (s : State) (i : Instr) (p : Pkt) : Prop :=
  match packetOf i with
  | some (ap, pos, form) => (s.found i).takesUp (s.formFor i form) ap pos p
  | none => False

/-- The state in which a packet command's work begins: time has moved on and the packet is at work. -/
def State.atWork (s : State) (i : Instr) (p : Pkt) : State := (s.found i).start_ p

/-- A stream up to where its blocks and stack chunks lie: what stays when only those move. -/
def Stream.core (t : Stream) : Stream :=
  { t with blocks := {}, parse := { t.parse with spilled := 0, chunks := [], refill := false } }

/-- A group message is acted on: the block is in RUN and not lost, the CRC holds, and the epoch is its own where the kind is checked
(R429, R430). -/
structure State.hears (s : State) (hdr : MsgHdr) (checked : Bool) : Prop where
  run : s.start.phase = .run
  up : s.start.down = false
  crc : hdr.crcOk = true
  epoch : checked = true → hdr.epoch = s.cas.epoch

/-- The block runs, has reached READY and is not lost (R426, R458). -/
structure State.runs (s : State) : Prop where
  run : s.start.phase = .run
  ready : s.start.ready = true
  up : s.start.down = false

/-- What holds of the always-on domain (R404, R409, R420 to R424, R479 to R482): its lists have their places, fields lie within their
bits, and the reserved bits of BX_CAUSE are zero. -/
structure Aon.ok (a : Aon) : Prop where
  sensors : a.sensors.length = 24
  domains : a.domains.length = 7
  counters : ∀ x ∈ a.sensors, x.half < 2 ^ 16 ∧ x.quarter < 2 ^ 16
  vset : a.vset < 31
  thresh : a.thresh ≤ 10
  causes : a.cause.toNat < 2 ^ 19

/-- What holds of the apertures (R29, R37, R487). -/
structure Ingress.ok (g : Ingress) : Prop where
  count : g.aps.length = 64
  counters : ∀ a ∈ g.aps, a.discarded < 2 ^ 16 ∧ a.reads < 2 ^ 16

/-- What holds of egress (R58 to R61): 64 rings, nothing waits for a ring that is not enabled, at most one ring has EVENTS, and at most
4,096 evt records are staged. -/
structure Egress.ok (e : Egress) : Prop where
  count : e.rings.length = 64
  idle : ∀ g ∈ e.rings, g.enabled = false → g.waiting = []
  events : (e.rings.filter (·.events)).length ≤ 1
  staged : e.evStaged.length ≤ 4096

/-- What holds of the memory side (R464, R490, R491): 148 units, 88 arrays, six block counters of 32 bits. -/
structure Mem.ok (m : Mem) : Prop where
  units : m.units.length = 148
  arrays : m.cnt.length = 88
  patrol : m.patrolPos.length = 88
  counts : m.blockCnt.length = 6
  bound : ∀ c ∈ m.blockCnt, c < 2 ^ 32

/-- The invariant that every step keeps. -/
structure State.Inv (s : State) : Prop where
  aon : s.aon.ok
  ing : s.ing.ok
  egr : s.egr.ok
  mem : s.mem.ok

end Sys2Proof.Machine
end

