-- ==== Sys2Proof/Certificates/Slice0/Obligations.lean ====
section
/-! DEFINITION. The statements about the block, for the provers. -/
open Sys2Proof Sys2Proof.Machine


/-- For every command c and state s whose queue is c followed by rest, step of s is exec of c on s with rest as its queue; on an empty queue step answers
the state itself, which is this model's own choice (log 5). -/
def Obligations.StepRunsFront : Prop :=
  (∀ (c : Instr) (rest : List Instr) (s : State), s.pending = c :: rest → step s = exec c (s.setPending rest)) ∧
  ∀ s : State, s.pending = [] → step s = .next s

/-- The state after reset meets the invariant State.Inv: 24 droop sensors, 7 domains, 64 apertures, 64 rings of which none waits while disabled, 148
units, 88 arrays, six block counters; counters within their widths, VSET below 31, THRESH at most 10, reserved bits of BX_CAUSE zero. -/
def Obligations.ResetInvariant : Prop := State.reset.Inv

/-- From every state s with State.Inv s, whatever command stands in front of the queue, if step of s answers next t then t has State.Inv: every list keeps
its length, every saturating counter stays within its width (R30, R31, R409, R491), VSET and THRESH stay legal (R420, R424), the reserved bits of
BX_CAUSE stay zero (R479), a disabled ring holds no waiting record, at most one ring has EVENTS and at most 4,096 evt records are staged (R60, R61). -/
def Obligations.StepKeepsInvariant : Prop := ∀ s t : State, s.Inv → step s = .next t → t.Inv

/-- For every command i and state s, if exec of i on s answers next t, then every part of the state outside touches i is unchanged (always-on domain,
start, apertures and staging, rings, images, streams, scheduler, stores, Beryl, memory and units, cascade, and always the queue of waiting commands),
what left the block before still stands, in order, before anything that leaves it now, and no free value is drawn again. -/
def Obligations.CommandTouches : Prop :=
  ∀ (i : Instr) (s t : State), exec i s = .next t →
    s.keepsBut (touches i) t ∧ t.pending = s.pending ∧ (∃ l, t.out = s.out ++ l) ∧ s.freeCtr ≤ t.freeCtr

/-- Every command but TIME_SLEW_TICK, whose own effect is the passing of its dt, has the effect of the same command with dt zero on the state whose time
base has moved on by dt: how time passes between commands is this model's own choice (log 1). -/
def Obligations.TimeMovesFirst : Prop :=
  ∀ (i : Instr) (s : State), (∀ dt, i ≠ .timeSlewTick dt) → exec i s = exec (i.withDt 0) (s.elapse i.dt)

/-- For every command i and state s, exec of i on s answers a next state: there is no fault and no refusal. A host write of an aperture that the block
does not accept (outside the ingress region, not DWORD-aligned, empty or above 4,096 B, against R29 and R30) changes nothing but the time base, and so
does a register write outside the 64 KiB window: what the block does there is this model's own choice (log 128, log 130). -/
def Obligations.NothingStops : Prop :=
  (∀ (i : Instr) (s : State), ∃ t, exec i s = .next t) ∧
  (∀ (dt : Nat) (port : Bool) (off : Nat) (data : List Dword) (s : State),
    ¬(off % 4 = 0 ∧ 1 ≤ data.length ∧ data.length ≤ 1024 ∧ off + 4 * data.length ≤ 64 * 0x100000) →
    exec (.apertureWrite dt port off data) s = .next (s.elapse dt)) ∧
  ∀ (dt : Nat) (port : Bool) (off size data : Nat) (s : State), windowSize < off + size →
    exec (.registerWrite dt port off size data) s = .next (s.elapse dt)

/-- For every packet command i whose packet is not staged at its aperture and position, or is staged but of another form, or must wait (for an earlier
packet of its stream or aperture, R55 and R57, or for the updates that wait in the Beryl banks it uses), exec of i answers the state with the time
base moved on (and, for a packet that uses Beryl, what waits there carried out); that such a command is sent at all is this model's own convention
(log 6, log 114). -/
def Obligations.PacketNotStaged : Prop :=
  ∀ (i : Instr) (s : State) (ap pos : Nat) (form : Pkt → Bool), packetOf i = some (ap, pos, form) →
    ((s.found i).stagedAt ap pos = none → exec i s = .next (s.found i)) ∧
    ∀ p, (s.found i).stagedAt ap pos = some p → (s.formFor i form p = false ∨ (s.found i).mayStart p = false) →
      exec i s = .next (s.found i)

/-- For every packet command i with packet p staged in its turn on a block that serves packets: when checks 5 and 6 answer a failing status st, exec of i
answers the state in which p has left staging and is refused with st, and images, streams, scheduler, stores, Beryl and cascade are as before, but for
what a cmp record that waits for its ring writes on its own stream. -/
def Obligations.PacketRefusedAtChecks : Prop :=
  ∀ (i : Instr) (s : State) (ap pos : Nat) (form : Pkt → Bool) (p : Pkt) (st : Nat), packetOf i = some (ap, pos, form) →
    (s.found i).stagedAt ap pos = some p → s.formFor i form p = true → (s.found i).mayStart p = true →
    (s.found i).serving = true → (p.firmware && (s.found i).mem.sillHalted) = false → (s.found i).start.down = false →
    (p.onStream && (s.found i).str.memCancel.contains p.stream) = false → (s.atWork i p).check56 p = .fail st →
    exec i s = .next ((s.atWork i p).refuse p st) ∧
    (s.atWork i p).keepsBut [.out, .freeCtr, .ing, .egr, .str, .mem] ((s.atWork i p).refuse p st)

/-- A packet that names a stream slot whose old handle is forwarded is moved; else one whose slot does not carry its generation fails with STALE_HANDLE;
else CHK_GEN with an IMG_GEN that is not the committed generation fails with STATE_CONFLICT; else a personality that does not serve it fails with
STATE_CONFLICT; else, for a packet of a stream, another aperture than the stream's (but for str.cancel) or a state in which R315 does not allow it
fails with STATE_CONFLICT; else it passes. (A spec.tree reply has its epoch test between: the statement is for all other packets.) -/
def Obligations.CheckFiveSixOrder : Prop :=
  ∀ (s : State) (p : Pkt), ¬(p.opcode = 0x0701 ∧ bit p.opflags 0 = true) →
    let forward := s.str.forwards.find? (fun f => f.slot == slotOf p.stream && f.gen == genOf p.stream)
    let wrongGen := bit p.flags 1 && p.imgGen != s.img.gen
    (p.onStream = true → ∀ f, forward = some f → s.check56 p = .moved f.dest f.newHandle) ∧
    (p.onStream = true → forward = none → s.live? p.stream = none → s.check56 p = .fail stStaleHandle) ∧
    (p.onStream = true → forward = none → ∀ t, s.live? p.stream = some t →
      s.check56 p = if wrongGen || !s.serves p || (p.opcode != 0x0303 && p.ap != t.id.ap) || !legal p t
        then .fail stStateConflict else .pass) ∧
    (p.onStream = false → s.check56 p = if wrongGen || !s.serves p then .fail stStateConflict else .pass)

/-- For a DWORD-aligned write of 4 B to 4,096 B wholly inside aperture n, on a block that serves (after any wake), through a port to which the aperture is
bound or not yet bound, not halted, and ending at most at the consumed count plus 262,144: APERTURE_WRITE answers a next state in which the DWORD
written at each of its positions from the consumed count on reads as the data, poisoned when it or an earlier write of that position came with partial
byte enables, every other position reads as before (a late write below the consumed count is never read: log 126), the aperture is bound to the port,
its counts are unchanged, every other aperture and every other part of the state is unchanged. -/
def Obligations.HostWriteRecorded : Prop :=
  ∀ (dt : Nat) (port : Bool) (off : Nat) (data : List Dword) (s : State),
    let base := (s.elapse dt).wakeCause
    let n := off / 0x100000
    let a := base.ap n
    let pos := a.position (off % 0x100000)
    let at_ (x : Aperture) (q : Nat) : Option WDword := x.dwords.find? (fun w => w.pos == q)
    off % 4 = 0 → 1 ≤ data.length → data.length ≤ 1024 → off % 0x100000 + 4 * data.length ≤ 0x100000 → n < 64 →
    base.ing.aps.length = 64 → base.serving = true → a.boundTo ≠ some (!port) → a.halted = false →
    pos + 4 * data.length ≤ a.consumed + 262144 →
    ∃ t, exec (.apertureWrite dt port off data) s = .next t ∧
      (∀ k (h : k < data.length), a.consumed ≤ pos + 4 * k → at_ (t.ap n) (pos + 4 * k) =
        some { pos := pos + 4 * k, val := data[k].val,
               whole := data[k].whole && ((at_ a (pos + 4 * k)).map (·.whole)).getD true }) ∧
      (∀ q, (∀ k < data.length, q ≠ pos + 4 * k) ∨ q < a.consumed → at_ (t.ap n) q = at_ a q) ∧
      (t.ap n).boundTo = some port ∧ (t.ap n).consumed = a.consumed ∧ (t.ap n).discarded = a.discarded ∧
      (∀ m, m ≠ n → t.ap m = base.ap m) ∧ base.keepsBut [.ing] t

/-- For a write wholly inside aperture n: before READY it is discarded and counted; after it, through the port that the aperture is not bound to, it is
discarded and counted, PORT_VIOL is set and the aperture-port cause bit is set; through the right port but ending beyond the credit window, it is
discarded and counted, CREDIT_VIOL is set and the aperture-credit cause bit is set, and an aperture that is not yet halted is halted at its consumed
count, every DWORD in it discarded; inside the window of a halted aperture it is discarded and counted. No DWORD of any of them is recorded. -/
def Obligations.HostWriteDiscarded : Prop :=
  ∀ (dt : Nat) (port : Bool) (off : Nat) (data : List Dword) (s : State),
    let base := (s.elapse dt).wakeCause
    let n := off / 0x100000
    let a := base.ap n
    let outside := a.consumed + 262144 < a.position (off % 0x100000) + 4 * data.length
    off % 4 = 0 → 1 ≤ data.length → data.length ≤ 1024 → off % 0x100000 + 4 * data.length ≤ 0x100000 → n < 64 →
    base.ing.aps.length = 64 →
    (base.serving = false → exec (.apertureWrite dt port off data) s = .next (base.onAp n Aperture.discard)) ∧
    (base.serving = true → a.boundTo = some (!port) → ∃ t, exec (.apertureWrite dt port off data) s = .next t ∧
      t.ap n = { a with discarded := satInc 16 a.discarded, portViol := true } ∧ t.aon.cause.getLsbD cAptPort = true ∧
      base.keepsBut [.ing, .aon, .out] t) ∧
    (base.serving = true → a.boundTo ≠ some (!port) → a.halted = false → outside →
      ∃ t, exec (.apertureWrite dt port off data) s = .next t ∧
        t.ap n = { a with boundTo := some port, discarded := satInc 16 a.discarded, creditViol := true, halted := true,
                          haltPos := a.consumed, dwords := [] } ∧
        t.aon.cause.getLsbD cAptCredit = true ∧ base.keepsBut [.ing, .aon, .egr, .str, .mem, .out] t) ∧
    (base.serving = true → a.boundTo ≠ some (!port) → a.halted = true → outside →
      ∃ t, exec (.apertureWrite dt port off data) s = .next t ∧
        t.ap n = { a with boundTo := some port, discarded := satInc 16 a.discarded, creditViol := true } ∧
        t.aon.cause.getLsbD cAptCredit = true ∧ base.keepsBut [.ing, .aon, .out] t) ∧
    (base.serving = true → a.boundTo ≠ some (!port) → a.halted = true → ¬outside →
      ∃ t, exec (.apertureWrite dt port off data) s = .next t ∧
        t.ap n = { a with boundTo := some port, discarded := satInc 16 a.discarded } ∧ base.keepsBut [.ing] t)

/-- A host read of any number of bytes, at least one, within the region completes with all bytes zero, counts once in the read counter of every aperture
it touches (saturating at 16 bits), and changes nothing else: every other counter and field of every aperture, and every other part of the state, is
as before; a read of no bytes completes too. A host write of 4 B to 4,096 B at any DWORD-aligned address of the region is accepted. -/
def Obligations.HostReadZeros : Prop :=
  (∀ (dt : Nat) (port : Bool) (off size : Nat) (s : State), off + size ≤ 64 * 0x100000 → s.ing.aps.length = 64 →
    ∃ t, exec (.apertureRead dt port off size) s = .next t ∧ t.out = s.out ++ [.readData port off size 0] ∧
      (1 ≤ size → ∀ n < 64, t.ap n = if off / 0x100000 ≤ n ∧ n ≤ (off + size - 1) / 0x100000
        then { s.ap n with reads := satInc 16 (s.ap n).reads } else s.ap n) ∧
      (s.elapse dt).keepsBut [.ing, .out] t) ∧
  ∀ (dt : Nat) (port : Bool) (off : Nat) (data : List Dword) (s : State), off % 4 = 0 → 1 ≤ data.length → data.length ≤ 1024 →
    off + 4 * data.length ≤ 64 * 0x100000 →
    exec (.apertureWrite dt port off data) s = .next (((s.elapse dt).wakeCause).writeRegion port off data)

/-- When an aperture has a credit-word address, its write-back is on and its consumed count lies above the last credit word written, CREDIT_WORD_TIMER
writes the consumed count to that address and the word written never lies below an earlier one; otherwise nothing but time changes. -/
def Obligations.CreditWordWritten : Prop :=
  ∀ (dt n : Nat) (s : State), n < s.ing.aps.length →
    let a := s.ap n
    (a.creditAddr ≠ 0 → a.creditOn = true → a.creditWritten < a.consumed →
      ∃ t, exec (.creditWordTimer dt n) s = .next t ∧ t.out = s.out ++ [.credit n a.creditAddr a.consumed strictWrite] ∧
        t.ap n = { a with creditWritten := a.consumed } ∧ (∀ m, m ≠ n → t.ap m = s.ap m) ∧ (s.elapse dt).keepsBut [.ing, .out] t) ∧
    ((a.creditAddr = 0 ∨ a.creditOn = false ∨ a.consumed ≤ a.creditWritten) →
      exec (.creditWordTimer dt n) s = .next (s.elapse dt))

/-- On a block that serves packets, an aperture that is not halted and whose next header and packet are announced, with VERSION 1 and a payload of at most
65,536 B, is consumed when nothing stops it: the consumed count goes to the next multiple of 64 at or after the trailer and, on a block that is not
lost, the packet is refused with BAD_CRC when a DWORD of it was written in part or its CRC does not match, else BAD_PACKET when a reserved header bit
is set or RING is above 63, else UNKNOWN_OP for an opcode not in the table, else BAD_PACKET when check 4 fails, else staged at its position; a lost
block answers BLOCK_DOWN. Then the credit word is written if 16,384 or more are owed. -/
def Obligations.ConsumePacket : Prop :=
  ∀ (dt n : Nat) (s : State) (h b : Bytes) (hw bw : Bool),
    let a := s.ap n
    let len := rd h 4 4
    let p := Pkt.ofBytes n a.consumed b
    let next := ceilDiv (a.consumed + 36 + len) 64 * 64
    let moved := (s.elapse dt).onAp n (fun a => { a with consumed := next, dwords := a.dwords.filter (fun w => decide (next ≤ w.pos)) })
    let u := if p.opcode = 0x0401 then moved.wakeDomain 1 else moved
    a.halted = false → s.serving = true → a.gather a.consumed 8 = some (h, hw) → rd h 18 1 = 1 → len ≤ 65536 →
    a.gather a.consumed (ceilDiv (36 + len) 4) = some (b, bw) → s.stopped p = false →
    exec (.packetConsume dt n) s = .next (State.creditStep n
      (if s.start.down then u.refuse p stBlockDown
       else if bw = false ∨ crc32c (b.take (32 + p.payload.length)) ≠ rd b (32 + p.payload.length) 4 then u.refuse p stBadCrc
       else if check2 p b = false then u.refuse p stBadPacket
       else if check3 p.opcode = false then u.refuse p stUnknownOp
       else if check4 p = false then u.refuse p stBadPacket
       else u.onIng (fun g => { g with staged := g.staged ++ [p] })))

/-- A due sys.hello gives its aperture the payload's credit-word address with write-back on, completes with BX_ID, generation + personality + epoch, and
the consumed count, and writes the credit word if 16,384 or more are owed. With ARG[8], the aperture that ARG[5:0] names goes to the next multiple of
0x10_0000 above its consumed count, unbound, not halted, with no DWORD, its new count written to the payload's address unless that is zero (and before
that to the old address, where an advance of 16,384 or more is owed there: R38), and RESULT2 carries that count. A due sys.time completes with the
reported time, the epoch and the time master. Only the packet's own completion and these effects happen. -/
def Obligations.HelloAndTime : Prop :=
  ∀ (dt ap pos : Nat) (s : State) (p : Pkt),
    (s.due (.sysHello dt ap pos) p → ∃ u, u = (s.atWork (.sysHello dt ap pos) p).onAp p.ap (fun a => { a with creditAddr := le p.payload, creditOn := true }) ∧
      exec (.sysHello dt ap pos) s = .next (State.creditStep p.ap (u.done p 0 (some u.bxId) (some u.helloR1) (some (u.ap p.ap).consumed)))) ∧
    (s.due (.sysHelloApertureReset dt ap pos) p → ∀ n, n = bits p.arg 5 0 → n < s.ing.aps.length →
      let w := s.atWork (.sysHelloApertureReset dt ap pos) p
      ∃ u, (u.ap n).consumed = (w.ap n).consumed / 0x100000 * 0x100000 + 0x100000 ∧ (u.ap n).boundTo = none ∧ (u.ap n).halted = false ∧
        (u.ap n).dwords = [] ∧ (u.ap n).creditAddr = le p.payload ∧ (u.ap n).creditOn = true ∧ (∀ m, m ≠ n → u.ap m = w.ap m) ∧
        u.out = (if le p.payload = 0 then (w.resetAp n).out else (w.resetAp n).out ++ [.credit n (le p.payload) (u.ap n).consumed strictWrite]) ∧
        w.keepsBut [.ing, .out] u ∧
        exec (.sysHelloApertureReset dt ap pos) s = .next (u.done p 0 (some u.bxId) (some u.helloR1) (some (u.ap n).consumed))) ∧
    (s.due (.sysTime dt ap pos) p → exec (.sysTime dt ap pos) s = .next ((s.atWork (.sysTime dt ap pos) p).done p 0
      (some (s.elapse dt).now) (some (s.cas.epoch + s.cas.master * 2 ^ 32)) none))

/-- A due sys.ring with ENABLE and fields in range, for a ring that is not enabled, gives that ring its settings, both counts zero and nothing waiting or
kept back (records written before it was last disabled and not yet signalled count on: log 129); with EVENTS it clears EVENTS everywhere else and
hands the ring the staged evt records; then it completes. A due sys.ring without ENABLE, for a ring that no stream outside CLOSED names, disables it,
its waiting records and one kept back counted as lost, and completes; when the packet's own cmp record goes to that ring, the record is written first
and the ring is disabled once nothing waits. -/
def Obligations.RingsConfigured : Prop :=
  ∀ (dt ap pos : Nat) (s : State) (p : Pkt),
    (s.due (.sysRingEnable dt ap pos) p → ∀ r, ringReq p.payload = some r →
      ((s.atWork (.sysRingEnable dt ap pos) p).ring r.ring).enabled = false →
      let w := s.atWork (.sysRingEnable dt ap pos) p
      ∃ u, exec (.sysRingEnable dt ap pos) s = .next ((if r.events then u.flushEvents r.ring else u).done p 0 none none none) ∧
        w.keepsBut [.egr] u ∧
        (r.ring < w.egr.rings.length → u.ring r.ring =
          { enabled := true, events := r.events, coalesce := r.coalesce, vector := r.vector, sizeLog2 := r.sizeLog2, base := r.base,
            headAddr := r.headAddr, modCount := r.modCount, modTime := r.modTime, lost := (w.ring r.ring).lost,
            lastLost := (w.ring r.ring).lastLost, unsig := (w.ring r.ring).unsig, oldest := (w.ring r.ring).oldest }) ∧
        ∀ m, m ≠ r.ring → u.ring m = if r.events then { w.ring m with events := false } else w.ring m) ∧
    (s.due (.sysRingDisable dt ap pos) p →
      let w := s.atWork (.sysRingDisable dt ap pos) p
      let n := p.ringNum
      w.ringNamed n = false →
      (p.ring ≠ n → exec (.sysRingDisable dt ap pos) s = .next ((w.disableRing n).done p 0 none none none)) ∧
      (p.ring = n → ∀ d, d = (w.done p 0 none none none).flushCoal n → exec (.sysRingDisable dt ap pos) s =
        .next (if (d.ring n).waiting = [] then d.disableRing n else d.onRing n (fun g => { g with closing := true })))) ∧
    ∀ n, n < s.egr.rings.length →
      ((s.disableRing n).ring n).enabled = false ∧ ((s.disableRing n).ring n).waiting = [] ∧
      ((s.disableRing n).ring n).coal = none ∧ ((s.disableRing n).ring n).unsig = (s.ring n).unsig ∧
      ((s.disableRing n).ring n).lost = (s.ring n).lost + ((s.ring n).waiting.length + if (s.ring n).coal.isSome then 1 else 0)

/-- A record handed to ring n first lets out the cmp record kept back there, if any, and then is discarded and counted for the ring and in RECORDS_LOST
when the ring is not enabled; waits behind those that wait, or when it does not fit below the host's count plus the ring size; else it is written,
after a pad record where it would wrap past the end of the ring, at the running count and so at its host address BASE plus the count modulo the size,
as a strictly ordered and snooped write, with PHASE 1 in even passes: the running count then stands behind it, the record does not cross the ring's
end (records of at most the ring size), and it stays below the host's count plus the size. -/
def Obligations.RecordHandedOn : Prop :=
  ∀ (s : State) (n : Nat) (who : Option Nat) (r : Rec), n < s.egr.rings.length →
    let g := s.ring n
    let len := 64 * recSlots r
    let pad := if g.tail % g.size + len > g.size then g.size - g.tail % g.size else 0
    (g.enabled = false → s.place n who r = (s.onRing n (fun g => { g with lost := g.lost + 1 })).count bcRecordsLost 1) ∧
    (g.enabled = true → (g.waiting ≠ [] ∨ g.head + g.size < g.tail + pad + len) →
      ((s.place n who r).ring n).waiting = g.waiting ++ [(who, r)] ∧ (s.place n who r).out = s.out ∧
      ((s.place n who r).ring n).tail = g.tail) ∧
    (g.enabled = true → g.waiting = [] → g.tail + pad + len ≤ g.head + g.size →
      ((s.place n who r).ring n).tail = g.tail + pad + len ∧ ((s.place n who r).ring n).waiting = [] ∧
      (len ≤ g.size → (g.tail + pad) % g.size + len ≤ g.size) ∧
      ∃ l, (s.place n who r).out = s.out ++ ((if pad = 0 then [] else
          [Out.record n g.tail (g.base + g.tail % g.size) strictWrite (g.tail / g.size % 2 == 0) (.pad (pad / 64))]) ++
        [Out.record n (g.tail + pad) (g.base + (g.tail + pad) % g.size) strictWrite ((g.tail + pad) / g.size % 2 == 0) r]) ++ l ∧
        (l = [] ∨ l = [.msix g.vector])) ∧
    s.egressFor n who r =
      (match g.coal with
        | none => s
        | some c => (s.onRing n (fun g => { g with coal := none })).place n c.who (.cmp c.rec_)).place n who r

/-- Completing a packet whose work was done writes a cmp record whose INFO holds every informational condition gathered, and whose STATUS is OVER_BUDGET
when HELD is set, else REPLAYED when REPLAYED is set, else LATE when LATE is set, else OK; the record carries the packet's STREAM, TAG, OPCODE,
aperture and position, the committed generation, the time, COUNT 1, STATE the state of the live stream it names, else 0xFF (and 0xFF with
STALE_HANDLE), and the given results; results not given are free values. -/
def Obligations.CompletionRecord : Prop :=
  ∀ (s : State) (p : Pkt) (info : Nat) (r0 r1 r2 : Option Nat),
    let i := info ||| s.workInfo p
    let free (k : Nat) : BitVec 64 := Config.freeValue (s.freeCtr + k)
    let st := if i.testBit 0 then 0x24 else if i.testBit 1 then 0x32 else if i.testBit 2 then 0x33 else 0x00
    let v (r : Option Nat) (k : Nat) : BitVec 64 := match r with | some x => BitVec.ofNat 64 x | none => free k
    let u : State := { s with freeCtr := s.freeCtr + 3 }
    s.done p info r0 r1 r2 = u.cmpFull p p.stream p.named st i (v r0 0) (v r1 1) (v r2 2) ∧
    ∀ (shown : Nat) (named : Option Nat) (status info : Nat) (a b c : BitVec 64),
      s.cmpRec p shown named status info a b c =
        { stream := shown, tag := p.tag, opcode := p.opcode, status := status,
          state := if status = 0x21 then 0xFF else match named with
            | none => 0xFF
            | some h => match s.live? h with | some t => stateCode t.state | none => 0xFF,
          ap := p.ap, info := info, imgGen := s.img.gen, count := 1, pos := p.pos, time := s.now, r0 := a, r1 := b, r2 := c }

/-- Completing packet p while no other cmp record waits for its turn takes p out of work and then: with NO_CMP, status OK and INFO zero writes nothing;
when an earlier packet of its aperture and stream is not done the record waits for its turn; else the record goes to the ring that p names, or to ring
0 when that ring is disabled and ring 0 is enabled, and holds p's stream back while it waits. On an enabled ring with COALESCE and MOD_TIME above zero
an OK record without INFO and without result data may be kept back (whether it is, is free: log 4), and that of the next packet of its aperture joins
the one kept back: COUNT one more, its own fields, results zero, COALESCED; any other record goes on at once. -/
def Obligations.CmpRecordWritten : Prop :=
  ∀ (s : State) (p : Pkt) (shown : Nat) (named : Option Nat) (status info : Nat) (a b c : BitVec 64), s.ing.cmpWait = [] →
    let u := s.finish p
    let r := s.cmpRec p shown named status info a b c
    let n := if (s.ring p.ring).enabled then p.ring else if (s.ring 0).enabled then 0 else p.ring
    (p.noCmp = true → status = 0 → info = 0 → s.cmpFull p shown named status info a b c = u) ∧
    (¬(p.noCmp = true ∧ status = 0 ∧ info = 0) → u.cmpBlocked p = true →
      s.cmpFull p shown named status info a b c = u.onIng (fun g => { g with cmpWait := [(p, r)] })) ∧
    (¬(p.noCmp = true ∧ status = 0 ∧ info = 0) → u.cmpBlocked p = false →
      s.cmpFull p shown named status info a b c = u.egressCmp n named p r) ∧
    (∀ w ∈ u.ing.working, w.pkt.ap ≠ p.ap ∨ w.pkt.pos ≠ p.pos) ∧ s.keepsBut [.ing, .mem] u ∧
    ∀ (m : Nat) (who : Option Nat) (c : CmpRec) (v : State), m < v.egr.rings.length →
      let g := v.ring m
      let may := g.enabled = true ∧ g.coalesce = true ∧ 0 < g.modTime ∧ c.status = 0 ∧ c.info = 0 ∧
        c.opcode ∈ [0x0102, 0x0203, 0x0306, 0x0803, 0x0A01, 0x0A02, 0x0B03, 0x0B04, 0x0B05]
      (¬may → v.egressCmp m who p c = v.egressFor m who (.cmp c)) ∧
      (may → ∀ k, g.coal = some k →
        (k.rec_.ap = c.ap ∧ k.next = c.pos ∧ k.rec_.count < 65535 →
          ((v.egressCmp m who p c).ring m).coal =
            some { k with rec_ := { c with info := 8, count := k.rec_.count + 1, r0 := 0, r1 := 0, r2 := 0 }, who := who, next := p.after } ∧
          (v.egressCmp m who p c).out = v.out) ∧
        (¬(k.rec_.ap = c.ap ∧ k.next = c.pos ∧ k.rec_.count < 65535) → v.egressCmp m who p c = v.egressFor m who (.cmp c))) ∧
      (may → g.coal = none →
        (((v.egressCmp m who p c).ring m).coal = some { rec_ := c, who := who, next := p.after, since := v.aon.time } ∧
          (v.egressCmp m who p c).out = v.out) ∨
        v.egressCmp m who p c = v.drawn.egressFor m who (.cmp c))

/-- For a cmp record whose fields lie within their widths, the bytes written are exactly 64; KIND is 1, SLOTS 1, PHASE the ring's phase, and STREAM, TAG,
OPCODE, STATUS, STATE, APERTURE, INFO, IMG_GEN, COUNT, POSITION, TIME and the three results read back from their offsets; the reserved halfword at
0x16 is zero. (That one is written for each packet, and when none is, is the subject of CmpRecordWritten.) -/
def Obligations.CmpRecordLayout : Prop :=
  ∀ (ph : Bool) (c : CmpRec), c.stream < 2 ^ 32 → c.tag < 2 ^ 32 → c.opcode < 2 ^ 16 → c.status < 2 ^ 8 → c.state < 2 ^ 8 →
    c.ap < 2 ^ 8 → c.info < 2 ^ 8 → c.imgGen < 2 ^ 16 → c.count < 2 ^ 16 → c.pos < 2 ^ 64 → c.time < 2 ^ 64 →
    let b := recBytes ph (.cmp c)
    b.length = 64 ∧ rd b 0 1 = 1 ∧ rd b 1 1 = (if ph then 1 else 0) ∧ rd b 2 2 = 1 ∧ rd b 4 4 = c.stream ∧ rd b 8 4 = c.tag ∧
    rd b 0x0C 2 = c.opcode ∧ rd b 0x0E 1 = c.status ∧ rd b 0x0F 1 = c.state ∧ rd b 0x10 1 = c.ap ∧ rd b 0x11 1 = c.info ∧
    rd b 0x12 2 = c.imgGen ∧ rd b 0x14 2 = c.count ∧ rd b 0x16 2 = 0 ∧ rd b 0x18 8 = c.pos ∧ rd b 0x20 8 = c.time ∧
    rd b 0x28 8 = c.r0.toNat ∧ rd b 0x30 8 = c.r1.toNat ∧ rd b 0x38 8 = c.r2.toNat

/-- The host's consumed count of a ring is read when the ring is enabled and the block's own view of free space is below a quarter of the ring or a record
waits: the read goes to the ring's HEAD_ADDR, the count read is taken over, and the records that wait for the ring are written from the front: what
still waits is a suffix of what waited, and its first record does not fit. Otherwise nothing is read. -/
def Obligations.WaitingRecordsDrain : Prop :=
  ∀ (dt n value : Nat) (s : State), n < s.egr.rings.length →
    let g := s.ring n
    let due := g.enabled = true ∧ (4 * (g.head + g.size - g.tail) < g.size ∨ g.waiting ≠ [])
    (¬due → exec (.ringHeadPoll dt n value) s = .next (s.elapse dt)) ∧
    (due → ∃ t, exec (.ringHeadPoll dt n value) s = .next t ∧ (t.ring n).head = value ∧
      (∃ l, t.out = s.out ++ .headRead n g.headAddr :: l) ∧
      ∃ k, (t.ring n).waiting = g.waiting.drop k ∧
        ∀ w rest, (t.ring n).waiting = w :: rest → (t.ring n).fits w.2 = false)

/-- A ring whose waiting period has lasted 100 ms and was not yet reported gets one RING_STALL record with the number waiting, unless it is the event
ring; lost records are reported with their number, at most once in 1 ms, and the number starts again; a cmp record kept back for MOD_TIME is written,
and the oldest unsignalled record's MOD_TIME ends in a signal of the ring's vector; a ring fault disables the ring, raises the ring-fault cause and
records it unless the ring is the event ring; a credit-word fault stops that aperture's write-back, raises the same cause and is recorded. Nothing
else of these commands happens, and none of them acts before its time. -/
def Obligations.RingTimersAndFaults : Prop :=
  ∀ (dt n : Nat) (s : State),
    let b := s.elapse dt
    let g := s.ring n
    (∀ since, g.waitSince = some since → since + 100000000 ≤ b.aon.time → g.stallSent = false →
      ∀ u, u = b.onRing n (fun g => { g with stallSent := true }) → exec (.ringStall dt n) s =
        .next (if s.eventRing = some n then u else u.event evRingStall n g.waiting.length 0)) ∧
    ((g.waitSince = none ∨ g.stallSent = true ∨ ∃ since, g.waitSince = some since ∧ b.aon.time < since + 100000000) →
      exec (.ringStall dt n) s = .next b) ∧
    (g.lost ≠ 0 → (∀ t, g.lastLost = some t → t + 1000000 ≤ b.aon.time) → exec (.recordsLost dt n) s =
      .next ((b.onRing n (fun g => { g with lost := 0, lastLost := some b.aon.time })).event evRecordsLost n g.lost 0)) ∧
    ((g.lost = 0 ∨ ∃ t, g.lastLost = some t ∧ b.aon.time < t + 1000000) → exec (.recordsLost dt n) s = .next b) ∧
    (∀ c, c = (match g.coal with | some k => if k.since + g.modTime ≤ b.aon.time then b.flushCoal n else b | none => b) →
      (∀ t, g.oldest = some t → t + g.modTime ≤ b.aon.time → exec (.modTimeExpiry dt n) s =
        .next ((c.onRing n (fun g => { g with unsig := 0, oldest := none })).emit (.msix (c.ring n).vector))) ∧
      ((g.oldest = none ∨ ∃ t, g.oldest = some t ∧ b.aon.time < t + g.modTime) → exec (.modTimeExpiry dt n) s = .next c)) ∧
    (∀ u, u = (if g.enabled then b.disableRing n else b).raise cRingFault → exec (.ringFault dt (.ring n)) s =
      .next (if s.eventRing = some n then u else u.event evRingFault n 0 0)) ∧
    exec (.ringFault dt (.credit n)) s =
      .next (((b.onAp n (fun a => { a with creditOn := false })).raise cRingFault).event evRingFault (0x100 + n) 0 0)

/-- A due img.load: of an EMPTY slot, at offset 0 with a good header and room, reserves for the image and takes the chunk in, and is refused with the
header's or the reservation's status, or STATE_CONFLICT at another offset; of a slot in RECEIVING, at the offset that follows its bytes, through its
aperture, with no last chunk waiting, takes the chunk in, else is refused with STATE_CONFLICT; of any other slot is refused with STATE_CONFLICT. A
chunk taken in that brings a content failure (or an unsigned image that the frame does not allow) empties the slot and is refused with that status;
else, short of the image's length, the slot holds the bytes joined, every other slot is as before and the packet completes with the bytes received,
the grammar ID or 0xFFFF, and the grammars evicted; at the full length the slot holds the bytes and the packet waits. IMAGE_STAGED then, once Beryl's
literal banks are free for an image with literals, enters those literals, gives the slot state STAGED with its sections and completes that packet, or
empties the slot and refuses it, and does nothing of its own where no last chunk waits. -/
def Obligations.ImageChunks : Prop :=
  (∀ (dt ap pos : Nat) (s : State) (p : Pkt), s.due (.imgLoad dt ap pos) p →
    let w := s.atWork (.imgLoad dt ap pos) p
    let n := bits p.arg 35 32
    let l := w.slot n
    let off := bits p.arg 31 0
    let run (t : State) : Prop := exec (.imgLoad dt ap pos) s = .next t
    (l.state = .empty →
      (off ≠ 0 → run (w.refuse p stStateConflict)) ∧
      (off = 0 → (∀ st, imageHeader p.payload = .inl st → run (w.refuse p st)) ∧
        ∀ h, imageHeader p.payload = .inr h →
          (h.total < p.payload.length ∨ w.unsigned p.payload = true → run (w.refuse p stBadPacket)) ∧
          (p.payload.length ≤ h.total → w.unsigned p.payload = false →
            (∀ st, w.reserveImage n p.ap p.payload h = .inl st → run (w.refuse p st)) ∧
            ∀ k u, w.reserveImage n p.ap p.payload h = .inr (k, u) → run (u.chunkIn p n 0 k)))) ∧
    (l.state = .receiving →
      (off ≠ l.bytes.length ∨ p.ap ≠ l.ap ∨ l.waitPkt ≠ none → run (w.refuse p stStateConflict)) ∧
      (off = l.bytes.length → p.ap = l.ap → l.waitPkt = none →
        run ((w.setSlot n { l with bytes := l.bytes ++ p.payload }).chunkIn p n l.bytes.length 0))) ∧
    (l.state = .staged ∨ l.state = .committing → run (w.refuse p stStateConflict))) ∧
  (∀ (p : Pkt) (n old k : Nat) (u : State), n < u.img.slots.length →
    let l := u.slot n
    let bad := if u.unsigned l.bytes then some stBadPacket else u.contentFault l.bytes old
    (∀ st, bad = some st → u.chunkIn p n old k = (u.emptySlot n).refuse p st) ∧
    (bad = none →
      (l.bytes.length ≠ l.total → ∃ v, u.chunkIn p n old k =
          v.done p 0 (some l.bytes.length) (some (l.gid.getD 0xFFFF + if l.state = .staged then 2 ^ 16 else 0)) (some k) ∧ u.keepsBut [.ing] v) ∧
      (l.bytes.length = l.total → (u.chunkIn p n old k).slot n = { l with waitPkt := some p } ∧
        (∀ m, m ≠ n → (u.chunkIn p n old k).slot m = u.slot m) ∧ u.keepsBut [.img, .ing] (u.chunkIn p n old k)))) ∧
  ∀ (dt n : Nat) (s : State),
    let b := (s.elapse dt).settleBeryl
    let l := b.slot n
    (∀ p l', l.state = .receiving → l.waitPkt = some p → b.stage l = .inr l' →
      (l'.literals ≠ [] → b.quiet [4] = false → exec (.imageStaged dt n) s = .next b) ∧
      (l'.literals = [] ∨ b.quiet [4] = true →
        ((b.setSlot n l').enterSlot n = none → exec (.imageStaged dt n) s = .next ((b.emptySlot n).refuse p stNoSpace)) ∧
        ∀ u, (b.setSlot n l').enterSlot n = some u → exec (.imageStaged dt n) s =
          .next (u.done p 0 (some l.bytes.length) (some (l'.gid.getD 0xFFFF + 2 ^ 16)) (some (((b.workOf p.ap p.pos).map (·.r2)).getD 0))))) ∧
    (∀ p st, l.state = .receiving → l.waitPkt = some p → b.stage l = .inl st →
      exec (.imageStaged dt n) s = .next ((b.emptySlot n).refuse p st)) ∧
    (l.state ≠ .receiving ∨ l.waitPkt = none → exec (.imageStaged dt n) s = .next b)

/-- A due img.commit of a slot that no condition refuses puts the slot in COMMITTING with the next place in the order, and its cmp record waits; one that
a condition refuses is refused with that status. COMMIT_TAKES_EFFECT applies each COMMITTING slot in that order: each installs its image (a frame
replaces the frame, a full image's generation becomes the committed one, an additive one leaves the generation), writes an IMAGE record with its
generation, reason 1 and grammar ID, releases what no stream holds any more, and completes its img.commit with the committed generation and the
grammar ID or 0xFFFF; with no slot COMMITTING nothing but time changes. -/
def Obligations.ImageCommits : Prop :=
  (∀ (dt ap pos : Nat) (s : State) (p : Pkt), s.due (.imgCommit dt ap pos) p →
    let w := s.atWork (.imgCommit dt ap pos) p
    let n := bits p.arg 3 0
    (∀ st, w.commitRefusal (w.slot n) false = some st → exec (.imgCommit dt ap pos) s = .next (w.refuse p st)) ∧
    (w.commitRefusal (w.slot n) false = none → n < w.img.slots.length → ∃ t, exec (.imgCommit dt ap pos) s = .next t ∧
      t.slot n = { w.slot n with state := .committing, waitPkt := some p, order := w.img.commitSeq + 1, since := w.aon.time } ∧
      t.img.commitSeq = w.img.commitSeq + 1 ∧ (∀ m, m ≠ n → t.slot m = w.slot m) ∧ t.img.gen = w.img.gen ∧ t.out = w.out ∧
      w.keepsBut [.img] t)) ∧
  (∀ (dt : Nat) (s : State),
    let b := s.elapse dt
    let waiting := (s.img.slots.zipIdx).filter (fun x => x.1.state == .committing)
    exec (.commitTakesEffect dt) s =
      .next ((sortBy (fun a b => decide (a.1.order < b.1.order)) waiting).foldl (fun s x => s.applyCommit x.2 x.1) b) ∧
    (waiting = [] → exec (.commitTakesEffect dt) s = .next b)) ∧
  ∀ (s : State) (n : Nat) (l : LoadSlot) (p : Pkt), l.waitPkt = some p →
    let u := ((s.install n l).event evImage l.gen 1 (if l.additive then l.gid.getD 0 else 0)).sweepVersions.sweepGrams
    s.applyCommit n l = u.done p 0 (some u.img.gen) (some (if l.additive then l.gid.getD 0xFFFF else 0xFFFF)) none ∧
    (l.additive = false → (s.install n l).img.gen = l.gen)

/-- A due img.drop of a slot in RECEIVING or STAGED takes the literals that it has entered out of Beryl, empties it, writes an IMAGE record with reason 2,
refuses a last chunk that still waits, and completes; of an EMPTY or COMMITTING slot it is refused with STATE_CONFLICT. A due img.drop of an additive
grammar that no stream names removes it with its cached shutters, writes the IMAGE record and completes; one that a stream names is refused with
STATE_CONFLICT, one not resident with NOT_RESIDENT. A due img.query of a resident profile reports its vocabulary, generation, holders, canonical CRC
and versions still held, of a resident grammar its profile, flags, generation, streams and directory CRC, of a slot its state, bytes and time, of the
whole the generation, profiles, grammars, free space and slots; it changes nothing but its own completion. -/
def Obligations.ImageDropsAndQueries : Prop :=
  ∀ (dt ap pos : Nat) (s : State) (p : Pkt),
    (s.due (.imgDropSlot dt ap pos) p →
      let w := s.atWork (.imgDropSlot dt ap pos) p
      let n := bits p.arg 7 4
      let l := w.slot n
      (l.state = .empty ∨ l.state = .committing → exec (.imgDropSlot dt ap pos) s = .next (w.refuse p stStateConflict)) ∧
      (l.state = .receiving ∨ l.state = .staged → ∀ u, u = ((w.leaveSlot l).emptySlot n).event evImage l.gen 2 0 →
        exec (.imgDropSlot dt ap pos) s = .next (State.done p 0 none none none
          (match l.waitPkt with | some q => u.refuse q stStateConflict | none => u)))) ∧
    (s.due (.imgDropGrammar dt ap pos) p →
      let w := s.atWork (.imgDropGrammar dt ap pos) p
      let id := bits p.arg 27 16
      let found := w.gramOfId id
      (found = none ∨ (∃ g, found = some g ∧ g.additive = false) → exec (.imgDropGrammar dt ap pos) s = .next (w.refuse p stNotResident)) ∧
      (∀ g, found = some g → g.additive = true → w.gramNamed id = true → exec (.imgDropGrammar dt ap pos) s = .next (w.refuse p stStateConflict)) ∧
      (∀ g, found = some g → g.additive = true → w.gramNamed id = false →
        exec (.imgDropGrammar dt ap pos) s = .next (((w.dropGram g.uid).event evImage 0 2 id).done p 0 none none none) ∧
        (w.dropGram g.uid).img.grams = w.img.grams.filter (fun x => x.uid != g.uid))) ∧
    (s.due (.imgQuery dt ap pos) p →
      let w := s.atWork (.imgQuery dt ap pos) p
      let i := bits p.arg 27 16
      (bits p.arg 1 0 = 0 → exec (.imgQuery dt ap pos) s = .next (w.done p 0
        (some (w.img.gen + bitMap ((List.range 16).filter (fun n => (w.committed n).isSome)) * 2 ^ 16 +
          ((w.img.grams.map (·.id)).eraseDups).length * 2 ^ 32))
        (some (w.tableFree.1 / 1024 + w.tableFree.2 / 1024 * 2 ^ 32))
        (some ((w.img.slots.zipIdx).foldl (fun a x => a + slotCode x.1.state * 4 ^ x.2) 0)))) ∧
      (bits p.arg 1 0 = 1 → ∀ v, w.img.versions.find? (fun v => v.number == i && v.inSet && !v.faulted) = some v →
        exec (.imgQuery dt ap pos) s = .next (w.done p 0 (some (v.prof.vocab + v.gen * 2 ^ 32))
          (some (w.str.tab.filter (fun t => t.id.vuid == v.uid)).length)
          (some (v.prof.canonCrc + (w.img.versions.filter (fun x => x.number == i && !x.inSet)).length * 2 ^ 32)))) ∧
      (bits p.arg 1 0 = 1 → w.img.versions.find? (fun v => v.number == i && v.inSet && !v.faulted) = none →
        exec (.imgQuery dt ap pos) s = .next (w.refuse p stNotResident)) ∧
      (bits p.arg 1 0 = 2 → ∀ l, l = w.img.grams.filter (fun g => g.id == i && !g.faulted) →
        (l = [] → exec (.imgQuery dt ap pos) s = .next (w.refuse p stNotResident)) ∧
        ∀ g, (l.filter (·.inSet)).head?.or l.head? = some g → exec (.imgQuery dt ap pos) s = .next (w.done p 0
          (some (g.body.profile + (if g.additive then 2 ^ 32 else 0) + (if g.pinned then 2 ^ 33 else 0) + g.gen * 2 ^ 48))
          (some (w.str.tab.filter (fun t => t.parse.gstate != GState.none && t.parse.gid == i)).length) (some g.dirCrc))) ∧
      (bits p.arg 1 0 = 3 → exec (.imgQuery dt ap pos) s = .next (w.done p 0
        (some (slotCode (w.slot i).state)) (some (w.slot i).bytes.length) (some (w.slot i).since))))

/-- A due str.open: a payload out of form is refused with BAD_PACKET; a profile or grammar that is not resident with NOT_RESIDENT; a prefix that is not on
this block with NOT_RESIDENT, or it starts a chained lookup where other members hold prefixes; values, personality or prefix that do not fit with
their status; when a slot is free, no Beryl entry that it needs is lost, and bias blocks, text staging and stop strings fit, it opens, else it is
refused with NO_SPACE. It then adds one new entry behind the others in the stream table (which stay, up to where their stack chunks lie), in the slot
taken, with its generation, tenant, priority, policy, profile, latched version, aperture, ring, model generation, limits, targets and input as the
packet gives them, and completes with its handle once a local prefix record is attached. -/
def Obligations.StreamOpened : Prop :=
  (∀ (dt ap pos : Nat) (s : State) (p : Pkt), s.due (.strOpen dt ap pos) p →
    let w := s.atWork (.strOpen dt ap pos) p
    (openReq p.payload = none → exec (.strOpen dt ap pos) s = .next (w.refuse p stBadPacket)) ∧
    ∀ o, openReq p.payload = some o →
      let b := if o.hasPrefix then w.lookup 16 1 [o.pfx, o.tenant] else w
      ((b.committed o.profile = none ∨ b.openGram o = none) → exec (.strOpen dt ap pos) s = .next (b.refuse p stNotResident)) ∧
      ∀ v g, b.committed o.profile = some v → b.openGram o = some g →
        (o.hasPrefix = true → b.findPfx o.pfx o.tenant = none → exec (.strOpen dt ap pos) s =
          .next (if b.chains then b.startChain p o.pfx o.tenant true else b.refuse p stNotResident)) ∧
        ∀ r : Option PfxRec, (if o.hasPrefix then b.findPfx o.pfx o.tenant = r ∧ r ≠ none else r = none) →
          (∀ st, b.openRefusal o v (r.map PfxRec.view) = some st → exec (.strOpen dt ap pos) s = .next (b.refuse p st)) ∧
          (b.openRefusal o v (r.map PfxRec.view) = none → (b.buildEntry p o v g).isSome = false →
            exec (.strOpen dt ap pos) s = .next (b.refuse p stNoSpace)) ∧
          (b.openRefusal o v (r.map PfxRec.view) = none → (b.buildEntry p o v g).isSome = true → ∃ slot u, b.buildEntry p o v g = some (slot, u) ∧
            exec (.strOpen dt ap pos) s = .next ((match r with | some r => u.attachPrefix slot r.num | none => u).finishOpen p slot))) ∧
  ∀ (p : Pkt) (o : OpenReq) (v : Version) (g : Option Gram) (b : State),
    ((b.buildEntry p o v g).isSome = true ↔ ∃ slot c, b.takeSlot = some (slot, c) ∧ c.lostFor o v = false ∧ c.biasFits o.shape.bias = true ∧
      c.unitsFree (textUnits o.input.length (!(o.stopList v).isEmpty) false) = true ∧ (State.takeStops (o.stopList v) c).isSome = true) ∧
    ∀ slot u, b.buildEntry p o v g = some (slot, u) →
      ∃ t, u.str.tab.map Stream.core = b.str.tab.map Stream.core ++ [Stream.core t] ∧ t.id.slot = slot ∧ t.state = .opening ∧ t.id.gen = u.genAt slot ∧
        t.id.tenant = o.tenant ∧ t.id.priority = bits o.dset 5 4 ∧ t.id.policy = bits o.dset 7 6 ∧ t.id.profile = o.profile ∧ t.id.vuid = v.uid ∧
        t.id.ap = p.ap ∧ t.id.ring = p.ring ∧ t.id.modelGen = b.sch.modelGen ∧ t.id.pin = o.pin ∧ t.id.maxGen = o.maxGen ∧
        t.queue = v.prof.toCanon o.input ∧ t.lat.ttft = o.ttft ∧ t.lat.tbt = o.tbt ∧ t.kv = [] ∧ t.length = 0 ∧ t.generated = 0

/-- A due str.close, and a due str.cancel, of a stream that its slot holds complete: the stream is CLOSED (with its identity and every other stream's
identity and state as before) and the cmp record carries the latency record of R333: tokens generated and late count, largest step time and lintel
stall, tenant and ring stall; where port B's write met one of port A, the word is logged. STREAM_RELEASE of a CLOSED stream with no step in the fabric
releases it; of any other it does nothing. Returning a slot adds one to its generation modulo 2^14, removes the stream, and puts the slot at the tail
of the free queue, or, when the generation is 0 again, in quarantine for 1 s; QUARANTINE_END at that time puts it at the tail, and earlier does
nothing. -/
def Obligations.StreamEnds : Prop :=
  let ended (w : State) (p : Pkt) (clash : Option Nat) : State := (w.collide (slotOf p.stream) clash).closeStream (slotOf p.stream) (some p)
  let closing (u : State) (p : Pkt) (x : Stream) : State := u.done p 0
    (some (min x.generated (2 ^ 32 - 1) + min x.lat.lateCount (2 ^ 32 - 1) * 2 ^ 32))
    (some (min x.lat.tbtMax (2 ^ 32 - 1) + min (x.lat.stallLintel / 1000) (2 ^ 32 - 1) * 2 ^ 32))
    (some (min (x.lat.stallHold / 1000) (2 ^ 32 - 1) + min (x.lat.stallRing / 1000) (2 ^ 32 - 1) * 2 ^ 32))
  (∀ (dt ap pos : Nat) (clash : Option Nat) (s : State) (p : Pkt), s.due (.strClose dt ap ⟨pos, clash⟩) p →
    ((s.atWork (.strClose dt ap ⟨pos, clash⟩) p).stream? (slotOf p.stream)).isSome = true →
    ∃ x, (ended (s.atWork (.strClose dt ap ⟨pos, clash⟩) p) p clash).stream? (slotOf p.stream) = some x ∧ x.state = .closed ∧
      exec (.strClose dt ap ⟨pos, clash⟩) s = .next (closing (ended (s.atWork (.strClose dt ap ⟨pos, clash⟩) p) p clash) p x)) ∧
  (∀ (dt ap pos : Nat) (clash : Option Nat) (s : State) (p : Pkt), s.due (.strCancel dt ap ⟨pos, clash⟩) p →
    ((s.atWork (.strCancel dt ap ⟨pos, clash⟩) p).stream? (slotOf p.stream)).isSome = true →
    ∃ x, (ended (s.atWork (.strCancel dt ap ⟨pos, clash⟩) p) p clash).stream? (slotOf p.stream) = some x ∧ x.state = .closed ∧
      exec (.strCancel dt ap ⟨pos, clash⟩) s = .next (closing (ended (s.atWork (.strCancel dt ap ⟨pos, clash⟩) p) p clash) p x)) ∧
  (∀ (w : State) (p : Pkt) (clash : Option Nat) (t : Stream), w.stream? (slotOf p.stream) = some t →
    ∃ x, (ended w p clash).stream? (slotOf p.stream) = some x ∧ x.state = .closed ∧ x.id = t.id ∧
      (∀ m, m ≠ slotOf p.stream → ((ended w p clash).stream? m).map (fun y => (y.id, y.state)) = (w.stream? m).map (fun y => (y.id, y.state))) ∧
      (∀ k, clash = some k → w.collide (slotOf p.stream) clash =
        w.onMem (fun m => { m with stbValid := true, stbCount := satInc 7 m.stbCount, stbWord := slotOf p.stream * 32 + k % 32 }))) ∧
  (∀ (dt slot : Nat) (s : State) (t : Stream), s.stream? slot = some t → t.state = .closed → s.inFabric t.handle = false →
    exec (.streamRelease dt slot) s = .next ((s.elapse dt).releaseStream slot)) ∧
  (∀ (dt slot : Nat) (s : State), (∀ t, s.stream? slot = some t → t.state ≠ .closed ∨ s.inFabric t.handle = true) →
    exec (.streamRelease dt slot) s = .next (s.elapse dt)) ∧
  (∀ (dt slot : Nat) (s : State) (q : Nat × Nat), s.str.quarantine.find? (fun q => q.1 == slot) = some q → q.2 ≤ s.aon.time + dt →
    exec (.quarantineEnd dt slot) s = .next ((s.elapse dt).onStr (fun g => { g with
      quarantine := g.quarantine.filter (fun x => x.1 != slot), freeTail := g.freeTail ++ [slot] }))) ∧
  (∀ (dt slot : Nat) (s : State), (∀ q, s.str.quarantine.find? (fun q => q.1 == slot) = some q → s.aon.time + dt < q.2) →
    exec (.quarantineEnd dt slot) s = .next (s.elapse dt)) ∧
  ∀ (slot : Nat) (s : State),
    let g := (s.genAt slot + 1) % 2 ^ 14
    let t := s.freeSlot slot
    t.stream? slot = none ∧ (∀ m, m ≠ slot → t.stream? m = s.stream? m) ∧
    (g = 0 → t.str.quarantine = s.str.quarantine ++ [(slot, s.aon.time + 1000000000)] ∧ t.str.freeTail = s.str.freeTail) ∧
    (g ≠ 0 → s.str.withdrawn.contains slot = false → t.str.freeTail = s.str.freeTail ++ [slot] ∧ t.str.quarantine = s.str.quarantine)

/-- A due str.pause of a live stream: in summary mode with an address or length it is refused with BAD_PACKET, while another pause or migration is pending
with STATE_CONFLICT, in tier mode with a region smaller than its pages, or when its slot of the pause area cannot be written, with NO_SPACE; else the
pause is pending and nothing else changes (but for the log of a word where port B met port A). PAUSE_TAKES_EFFECT at the stream's boundary drops a
held tree and asks for a summary entry, or marks the pages TRANSIT and writes them to the tier address; before the boundary it does nothing.
KV_TIER_PAUSE_COMPLETE sets the stream PAUSED with its pause record (mode 1, return state, expiry, address, page count), frees its pages, and
completes with the bytes moved, the expiry and the length. A stream that is set PAUSED gives its window, heal text and input queue to the pause
record, keeps no bias blocks and spills its whole stack. PAUSE_EXPIRED at the expiry writes the event record and closes the stream; earlier, or after
a resume, it does nothing. -/
def Obligations.StreamPauses : Prop :=
  (∀ (dt ap pos : Nat) (areaOk : Bool) (clash : Option Nat) (s : State) (p : Pkt), s.due (.strPause dt ap ⟨pos, areaOk, clash⟩) p →
    let w := (s.atWork (.strPause dt ap ⟨pos, areaOk, clash⟩) p).collide (slotOf p.stream) clash
    let b := p.payload
    let bad := rd b 16 8 ≠ 0 ∨ rd b 24 8 ≠ 0
    ∀ t, w.live? p.stream = some t →
      let tier := rd b 0 1 = 2 ∨ (rd b 0 1 = 0 ∧ t.id.pmode = 1)
      (¬tier → bad → exec (.strPause dt ap ⟨pos, areaOk, clash⟩) s = .next (w.refuse p stBadPacket)) ∧
      (tier ∨ ¬bad → t.pausePending ≠ none → exec (.strPause dt ap ⟨pos, areaOk, clash⟩) s = .next (w.refuse p stStateConflict)) ∧
      (tier ∨ ¬bad → t.pausePending = none → (tier ∧ rd b 24 8 < t.kv.length * 262144 ∨ areaOk = false) →
        exec (.strPause dt ap ⟨pos, areaOk, clash⟩) s = .next (w.refuse p stNoSpace)) ∧
      (tier → t.pausePending = none → t.kv.length * 262144 ≤ rd b 24 8 → areaOk = true → exec (.strPause dt ap ⟨pos, areaOk, clash⟩) s =
        .next (w.onStream t.id.slot (fun t => { t with pausePending := some (some p, .tier (rd b 8 4) (rd b 16 8) (rd b 24 8)) }))) ∧
      (¬tier → ¬bad → t.pausePending = none → areaOk = true → exec (.strPause dt ap ⟨pos, areaOk, clash⟩) s =
        .next (w.onStream t.id.slot (fun t => { t with pausePending := some (some p, .summary (rd b 8 4)) })))) ∧
  (∀ (dt slot : Nat) (s : State) (t : Stream), s.stream? slot = some t →
    let b := s.elapse dt
    (b.pauseDue t = false → exec (.pauseTakesEffect dt slot) s = .next b) ∧
    (b.pauseDue t = true → ∀ q ttl, t.pausePending = some (q, .summary ttl) → exec (.pauseTakesEffect dt slot) s =
      .next (((b.dropTree slot true).onStream slot (fun t => { t with wait := .summaryStep, lintelSum := none })).onSch
        (fun g => { g with sumWanted := g.sumWanted ++ [slot] }))) ∧
    (b.pauseDue t = true → ∀ q ttl addr len, t.pausePending = some (q, .tier ttl addr len) → exec (.pauseTakesEffect dt slot) s =
      .next ((((b.dropTree slot true).transit slot).onStream slot (fun t => { t with wait := .tierWrites })).emit
        (.tierWrite slot addr t.kv))) ∧
    (∀ q ttl addr len, t.pausePending = some (q, .tier ttl addr len) → t.wait = .tierWrites →
      ∀ r : PauseRec, r = { pmode := 1, ret := t.state, sumSize := 0, sumHandle := 0, sumLoc := 0, expiry := b.aon.time + ttl * 1000000000, tierAddr := addr, tierPages := t.kv.length } →
      exec (.kvTierPauseComplete dt slot) s = .next ((((b.setPaused slot r).freePages t.kv).onStream slot
        (fun t => { t with kv := [] })).pauseDone q slot (t.kv.length * 262144) r.expiry)) ∧
    (t.wait ≠ .tierWrites → exec (.kvTierPauseComplete dt slot) s = .next b) ∧
    (∀ r, t.pause = some r → t.state = .paused → r.expiry ≠ 2 ^ 64 - 1 → r.expiry ≤ b.aon.time → exec (.pauseExpired dt slot) s =
      .next ((b.eventFull evPauseExpired t.handle 0xFFFF t.handle r.pmode 0).closeStream slot none)) ∧
    ((t.state ≠ .paused ∨ ∀ r, t.pause = some r → r.expiry = 2 ^ 64 - 1 ∨ b.aon.time < r.expiry) →
      exec (.pauseExpired dt slot) s = .next b)) ∧
  ∀ (slot : Nat) (s : State) (t : Stream) (r : PauseRec), s.stream? slot = some t →
    ∃ x q, (s.setPaused slot r).stream? slot = some x ∧ x.pause = some q ∧ x.state = .paused ∧ x.queue = [] ∧ x.dec.window = [] ∧
      x.enc.heal = none ∧ x.id.biasHeld = false ∧ x.parse.stack = t.parse.stack ∧ x.parse.spilled = t.parse.stack.length ∧
      x.parse.chunks = [] ∧ x.pausePending = none ∧ x.wait = .none ∧ x.shutter.kind = .pending ∧
      q.window = t.dec.window ∧ q.heal = t.enc.heal ∧ q.input = t.queue ∧ q.rt = t.id.rt ∧ q.topP = t.id.topP ∧ q.minP = t.id.minP ∧
      q.topK = t.id.topK ∧ q.pmode = r.pmode ∧ q.ret = r.ret ∧ q.expiry = r.expiry ∧ q.tierAddr = r.tierAddr ∧ q.tierPages = r.tierPages

/-- A due str.resume of a stream with no pause pending and nothing awaited: to a destination that is no other member it is refused with BAD_PACKET; with a
pinned model generation or canonical CRC that is not the current one, or here on a cache-only block, with STATE_CONFLICT; to a member it makes a
migration pending and stops the pause's clock; here, with bias blocks and text staging free, in KV-tier mode, it takes pages (those that came with the
stream, where they did), marks them TRANSIT, asks for their read from the tier address and waits; in summary mode the resume completes; when something
does not fit it is refused with NO_SPACE. PAGE_RESTORED then gives the pages to the stream and completes the resume. PAGE_SUMMARY for a stream that
waits for its summary records size, handle and location and completes the pause when its step is out of the fabric. A due str.pin sets or clears the
pin, takes the current model generation when it sets it, lets the lintel hold a READY stream that it unpins, and completes. -/
def Obligations.StreamResumes : Prop :=
  (∀ (dt ap pos : Nat) (s : State) (p : Pkt), s.due (.strResume dt ap pos) p →
    let w := s.atWork (.strResume dt ap pos) p
    ∀ t, w.live? p.stream = some t → w.stream? t.id.slot = some t →
      let away := p.arg.testBit 6
      let dest := bits p.arg 5 0
      (away = true → w.validDest dest = false → exec (.strResume dt ap pos) s = .next (w.refuse p stBadPacket)) ∧
      (away = false ∨ w.validDest dest = true → t.pausePending = none → t.wait = .none →
        ((t.id.pin = true ∧ t.id.modelGen ≠ w.sch.modelGen ∨ w.canonAgrees t = false ∨ away = false ∧ w.cacheOnly = true) →
          exec (.strResume dt ap pos) s = .next (w.refuse p stStateConflict)) ∧
        (t.id.pin = false ∨ t.id.modelGen = w.sch.modelGen → w.canonAgrees t = true →
          (away = true → exec (.strResume dt ap pos) s =
            .next (w.onStream t.id.slot (fun t => { t.stopClock with pausePending := some (some p, .migrate dest) }))) ∧
          (away = false → w.cacheOnly = false → ∀ r, t.pause = some r →
            let taken (pages : List Nat) (u : State) : State := ((State.stow t.id.slot (u.onStream t.id.slot (fun t => { t.stopClock.takeText with
              kv := pages, wait := .restored, waitPkt := some p, id := { t.id with biasHeld := true } }))).setChain .transit pages).emit
                (.tierRead t.id.slot r.tierAddr pages)
            (w.resumeFits t = false → exec (.strResume dt ap pos) s = .next (w.refuse p stNoSpace)) ∧
            (w.resumeFits t = true → r.pmode = 1 → t.kv.length ≠ r.tierPages → (w.takePages r.tierPages).isSome = false →
              exec (.strResume dt ap pos) s = .next (w.refuse p stNoSpace)) ∧
            (w.resumeFits t = true → r.pmode = 1 → t.kv.length ≠ r.tierPages → (w.takePages r.tierPages).isSome = true →
              ∃ pages u, w.takePages r.tierPages = some (pages, u) ∧ exec (.strResume dt ap pos) s = .next (taken pages u)) ∧
            (w.resumeFits t = true → r.pmode = 1 → t.kv.length = r.tierPages → exec (.strResume dt ap pos) s = .next (taken t.kv w)) ∧
            (w.resumeFits t = true → r.pmode ≠ 1 → exec (.strResume dt ap pos) s =
              .next ((w.onStream t.id.slot Stream.stopClock).finishResume t.id.slot (some p))))))) ∧
  (∀ (dt slot : Nat) (s : State) (t : Stream), s.stream? slot = some t →
    let b := s.elapse dt
    (t.wait = .restored → exec (.pageRestored dt slot) s = .next ((b.setChain .stream t.kv).finishResume slot t.waitPkt)) ∧
    (t.wait ≠ .restored → exec (.pageRestored dt slot) s = .next b) ∧
    (t.wait = .summaryEvent → t.state ≠ .closed → ∀ handle size loc u, u = b.onSch (fun g => { g with steps := g.steps.map (fun x =>
        if x.desc.entries.any (fun e => e.slot == slot && e.kind == 3) && !x.reported.contains slot then
          { x with reported := x.reported ++ [slot], lastResult := some b.aon.time, verdict := if x.verdict == .replaying then .waiting else x.verdict }
        else x) }) → exec (.pageSummary dt slot handle size loc) s =
      .next ((u.onStream slot (fun t => { t with lintelSum := some (size, handle, loc) })).finishSummary slot))) ∧
  ∀ (dt ap pos : Nat) (clash : Option Nat) (s : State) (p : Pkt), s.due (.strPin dt ap ⟨pos, clash⟩) p →
    let w := (s.atWork (.strPin dt ap ⟨pos, clash⟩) p).collide (slotOf p.stream) clash
    (p.arg.testBit 0 = true → exec (.strPin dt ap ⟨pos, clash⟩) s = .next ((w.onHandle p.stream (fun t =>
      { t with id := { t.id with pin := true, modelGen := w.sch.modelGen }, lat := t.lat.endLintel w.aon.time })).done p 0 none none none)) ∧
    (p.arg.testBit 0 = false → exec (.strPin dt ap ⟨pos, clash⟩) s = .next ((w.onHandle p.stream (fun t =>
      { t with
        id := { t.id with pin := false },
        lat := { t.lat with
          lintelSince := if w.closed = true ∧ t.state = .ready then some (t.lat.lintelSince.getD w.aon.time) else t.lat.lintelSince } })).done
            p 0 none none none))

/-- A due str.migrate to another member makes a migration pending, to any other number it is refused with BAD_PACKET, while a pause or migration is
pending with STATE_CONFLICT (a word read where port B met port A is logged). MIGRATION_SEND of a stream at its boundary sends its package to the
destination and waits for the answer; before the boundary it does nothing. An acceptance for a waiting stream releases it, its slot forwarding to the
destination and new handle, and completes with both; a refusal leaves the stream where it is, its pages its own again (the destination of a sealed
package remembered for its notice), refuses the packet with the status given, and then takes up a change of weights that waited for it. A PACKAGE that
is heard is received, or discards the packages of that source and handle that it abandons; a SEAL_NOTICE CLEAR or VOID settles the held packages of
that source and seal; PAGE_MOVED marks a held package's KV arrived and settles it. MIGRATION_SEND with no migration pending and PAGE_MOVED with no
package that awaits it change nothing. -/
def Obligations.StreamMoves : Prop :=
  (∀ (dt ap pos : Nat) (clash : Option Nat) (s : State) (p : Pkt), s.due (.strMigrate dt ap ⟨pos, clash⟩) p →
    let w := (s.atWork (.strMigrate dt ap ⟨pos, clash⟩) p).collide (slotOf p.stream) clash
    let d := bits p.arg 5 0
    ∀ t, w.live? p.stream = some t →
      (w.validDest d = false → exec (.strMigrate dt ap ⟨pos, clash⟩) s = .next (w.refuse p stBadPacket)) ∧
      (w.validDest d = true → (t.pausePending ≠ none ∨ t.wait ≠ .none) →
        exec (.strMigrate dt ap ⟨pos, clash⟩) s = .next (w.refuse p stStateConflict)) ∧
      (w.validDest d = true → t.pausePending = none → t.wait = .none → exec (.strMigrate dt ap ⟨pos, clash⟩) s =
        .next (w.onStream t.id.slot (fun t => { t with pausePending := some (some p, .migrate d) })))) ∧
  (∀ (dt slot : Nat) (s : State) (t : Stream), s.stream? slot = some t →
    let b := s.elapse dt
    (∀ q d, t.pausePending = some (q, .migrate d) →
      exec (.migrationSend dt slot) s = .next (if b.pauseDue t
        then b.sendPackage slot d false (match q with | some q => q.opcode == 0x0305 | none => false) .migAnswer else b)) ∧
    (t.pausePending = none → exec (.migrationSend dt slot) s = .next b) ∧
    (t.state ≠ .opening → t.wait = .migAnswer ∨ t.wait = .sealedKv → ∀ st, ∀ u, u = (b.onStream slot (fun x => { x with
        pausePending := none, wait := .none, migDest := if x.wait = .sealedKv then x.migDest else none })).setChain .stream t.kv →
      exec (.migrationAnswer dt slot (.refused st)) s =
        .next ((match t.migPkt with | some p => u.refuse p st | none => u).pauseDeferred slot)) ∧
    (t.state ≠ .opening → t.wait = .migAnswer → ∀ h, ∀ u, u = (b.releaseStream slot).onStr (fun g => { g with
        forwards := g.forwards ++ [{ slot := slot, gen := t.id.gen, dest := t.migDest.getD 0, newHandle := h }] }) →
      exec (.migrationAnswer dt slot (.accepted h)) s = .next (match t.migPkt with
        | some p => u.done p 0 (some (t.migDest.getD 0 + h * 2 ^ 32)) none none | none => u))) ∧
  ∀ (dt : Nat) (s : State) (hdr : MsgHdr),
    let b := s.elapse dt
    (b.hears hdr false →
      (∀ body, body.abandon = false → exec (.package dt hdr body) s = .next (b.receivePackage hdr.source body)) ∧
      (∀ body, body.abandon = true → exec (.package dt hdr body) s = .next ((s.cas.held.filter (fun p =>
        p.source == hdr.source && p.body.oldHandle == body.oldHandle)).foldl (fun s p => s.voidHeld p) b)) ∧
      (∀ sealId kind, exec (.sealNotice dt hdr sealId kind) s = .next
        ((s.cas.held.filter (fun p => p.isHeld && p.source == hdr.source && p.body.sealId == sealId)).foldl
          (fun s p => if kind = 1 then s.clearHeld p else if kind = 2 then s.voidHeld p else s) b))) ∧
    (∀ slot, s.cas.held.find? (fun p => p.slot == slot && !p.arrived) = none → exec (.pageMoved dt slot) s = .next b) ∧
    (∀ slot p, s.cas.held.find? (fun p => p.slot == slot && !p.arrived) = some p → exec (.pageMoved dt slot) s =
      .next ((b.onCas (fun c => { c with held := c.held.map (fun x =>
        if x.slot = slot then { p with arrived := true } else x) })).settleHeld { p with arrived := true }))

/-- A due enc.text or enc.raw whose profile version is not resident is refused with NOT_RESIDENT. enc.text: raw policy on a profile that does not allow it
is refused with BAD_PACKET; flags that differ from the open document's with STATE_CONFLICT; bytes that the refuse policy refuses with BAD_PACKET; else
the bytes join the document, the stream enters PROMPT, and the segment is at work on the lane of the profile with the fewest work items. A transom
piece that is done leaves one piece less to wait for. SEGMENT_DONE ends a segment after the items it names, at most at the first boundary past 65,536
bytes: one that is not its packet's last appends its tokens and begins the next on a lane chosen anew; the last of a packet that is not FINAL appends
the newly decided tokens to the stream's queue and completes it with the number of tokens, the undecided tail and the prompt total; the last of a
standalone packet sends the model IDs as txt records of 4,064 bytes; while a piece is outstanding or a bank of its literals is being reloaded nothing
happens; a segment that no lane has goes to one. enc.raw with an ID outside the vocabulary is refused with BAD_PACKET; else its tokens, after those of
a kept heal, join the queue and it completes with the tokens appended, the special tokens among them, and the prompt total. -/
def Obligations.TextEncoded : Prop :=
  (∀ (dt ap pos : Nat) (s : State) (p : Pkt), s.due (.encText dt ap pos) p →
    let w := s.atWork (.encText dt ap pos) p
    (w.packetVersion p = none → exec (.encText dt ap pos) s = .next (w.refuse p stNotResident)) ∧
    ∀ v, w.packetVersion p = some v →
      (rawRefused v.prof p.invalid = true → exec (.encText dt ap pos) s = .next (w.refuse p stBadPacket)) ∧
      (rawRefused v.prof p.invalid = false → p.standalone = true →
        (encodeFor v p true p.payload = none → exec (.encText dt ap pos) s = .next (w.refuse p stBadPacket)) ∧
        ∀ e, encodeFor v p true p.payload = some e → exec (.encText dt ap pos) s =
          .next (w.onWork p (fun k => { k with r1 := transomPieces e.items, lane := w.pickLane v.number, vuid := v.uid }))) ∧
      (rawRefused v.prof p.invalid = false → p.standalone = false → ∀ t, w.live? p.stream = some t →
        (t.enc.docOpen = true → t.enc.docFlags ≠ bits p.opflags 4 2 →
          exec (.encText dt ap pos) s = .next (w.refuse p stStateConflict)) ∧
        (t.enc.docOpen = false ∨ t.enc.docFlags = bits p.opflags 4 2 → ∀ doc, doc = (if t.enc.docOpen then t.enc.doc else []) ++ p.payload →
          (encodeFor v p (!t.enc.docSeen) doc = none → exec (.encText dt ap pos) s = .next (w.refuse p stBadPacket)) ∧
          ∀ e, encodeFor v p (!t.enc.docSeen) doc = some e → ∀ x, x = ((w.endHeal t.id.slot).1.toPrompt t.id.slot).onStream t.id.slot (fun t =>
              { t with enc := { t.enc with docOpen := !p.isFinal, doc := doc, docFlags := bits p.opflags 4 2 } }) →
            exec (.encText dt ap pos) s = .next (x.onWork p (fun k => { k with
              r0 := (w.endHeal t.id.slot).2, r1 := transomPieces (itemsAfter t.enc.docTokens e.items), lane := x.pickLane v.number }))))) ∧
  (∀ (dt ap pos : Nat) (s : State) (k : Work), s.workOf ap pos = some k → k.pkt.opcode = 0x0401 →
    let b := s.elapse dt
    exec (.transomPieceDone dt ap pos) s = .next (b.onWork k.pkt (fun k => { k with r1 := k.r1 - 1 })) ∧
    ∀ v, b.workVersion k = some v →
      (k.lane = none → ∀ upTo, exec (.segmentDone dt ap ⟨pos, upTo⟩) s = .next (b.beginSegment k v)) ∧
      (k.lane ≠ none → ∀ items upTo n, items = b.workItems k v → n = min (max 1 (upTo.getD items.length)) (segmentLimit 0 items) →
        let held := b.useReloading 4 = true ∧ v.special ≠ [] ∧ k.pkt.noSpecial = false
        (transomPieces (items.drop n) < k.r1 ∨ held → exec (.segmentDone dt ap ⟨pos, upTo⟩) s = .next b) ∧
        (k.r1 ≤ transomPieces (items.drop n) → ¬held → ∀ c, c = b.countLane k v items →
          (n < items.length → ∀ toks, toks = itemTokens (items.take n) →
            (k.pkt.standalone = true → exec (.segmentDone dt ap ⟨pos, upTo⟩) s = .next (((c.memoise v (items.take n)).onWork k.pkt
              (fun k => { k with r2 := k.r2 + toks.length })).beginSegment k v)) ∧
            (k.pkt.standalone = false → exec (.segmentDone dt ap ⟨pos, upTo⟩) s = .next ((((c.memoise v (items.take n)).onStream
              (slotOf k.pkt.stream) (fun t =>
                let t1 := t.enqueue c.aon.time toks
                { t1 with enc := { t1.enc with prompt := t1.enc.prompt + toks.length, docTokens := t1.enc.docTokens + toks.length } })).stow
              (slotOf k.pkt.stream)).onWork k.pkt (fun k => { k with r0 := k.r0 + toks.length }) |>.beginSegment k v))) ∧
          (items.length ≤ n → k.pkt.standalone = true → ∀ e, encodeFor v k.pkt true k.pkt.payload = some e →
            ∀ ids, ids = v.prof.toModel (itemTokens e.items) → ids ≠ [] →
            ∀ x, x = ((c.memoise v e.items).egressAll k.pkt.ring none (txtRecs 0 0 k.pkt.tag 32 0 c.now
              (chunksOf 4064 (ids.flatMap (leBytes 4))))).done k.pkt k.info (some ids.length) (some 0) (some 0) →
            exec (.segmentDone dt ap ⟨pos, upTo⟩) s = .next (if v.inSet then x else x.sweepVersions)) ∧
          (items.length ≤ n → k.pkt.standalone = false → k.pkt.isFinal = false → ∀ t, c.live? k.pkt.stream = some t →
            ∀ e, encodeFor v k.pkt (!t.enc.docSeen) t.enc.doc = some e → ∀ toks, toks = (itemTokens e.items).drop t.enc.docTokens →
            exec (.segmentDone dt ap ⟨pos, upTo⟩) s = .next ((((((c.memoise v (itemsAfter t.enc.docTokens e.items)).onStream t.id.slot (fun u =>
              let u1 := u.enqueue c.aon.time toks
              { u1 with enc := { u1.enc with prompt := u1.enc.prompt + toks.length, docTokens := u.enc.docTokens + toks.length, tail := e.tail } })).stow
                t.id.slot).finish k.pkt).leavePrompt t.id.slot).done k.pkt k.info (some (k.r0 + toks.length)) (some e.tail)
                  (some (t.enc.prompt + toks.length))))))) ∧
  ∀ (dt ap pos : Nat) (s : State) (p : Pkt), s.due (.encRaw dt ap pos) p →
    let w := s.atWork (.encRaw dt ap pos) p
    (w.packetVersion p = none → exec (.encRaw dt ap pos) s = .next (w.refuse p stNotResident)) ∧
    ∀ v, w.packetVersion p = some v →
      ((∃ m ∈ tokenIds p.payload, v.prof.vocab ≤ m) → exec (.encRaw dt ap pos) s = .next (w.refuse p stBadPacket)) ∧
      ((∀ m ∈ tokenIds p.payload, m < v.prof.vocab) → ∀ toks, toks = v.prof.toCanon (tokenIds p.payload) →
        (p.standalone = true → exec (.encRaw dt ap pos) s =
          .next (w.done p 0 (some (tokenIds p.payload).length) (some (v.vocab.specials toks)) none)) ∧
        (p.standalone = false → ∀ t, w.live? p.stream = some t → exec (.encRaw dt ap pos) s =
          .next (((((w.endHeal t.id.slot).1.toPrompt t.id.slot).onStream t.id.slot (fun t =>
            let t1 := t.enqueue w.aon.time toks
            { t1 with enc := { t1.enc with promptDone := false, prompt := t1.enc.prompt + toks.length } })).stow t.id.slot).done p 0
              (some ((tokenIds p.payload).length + (w.endHeal t.id.slot).2)) (some (v.vocab.specials toks))
              (some (t.enc.prompt + (w.endHeal t.id.slot).2 + toks.length)))))

/-- A due tok.choose of a live stream: a choice held or at work, or a tree step outstanding, refuses it with STATE_CONFLICT; an ID outside the vocabulary
with BAD_PACKET; a voided step with VOIDED; a token outside the shutter of a stream without FORCE with DISALLOWED. Else it is held; before its step's
PASS nothing more happens; after it, with its charge fitting and no earlier waiting choice on its units, the token is committed with ID, parse state
and end of generation, else the choice waits for credit. CHOICE_GRANT commits a waiting choice that can be granted, one that cannot be granted goes on
waiting; either way the waiting tree builds that fit are then granted; without a waiting choice nothing happens. -/
def Obligations.TokenChosen : Prop :=
  (∀ (dt ap pos : Nat) (s : State) (p : Pkt), s.due (.tokChoose dt ap pos) p →
    let w := s.atWork (.tokChoose dt ap pos) p
    ∀ t, w.live? p.stream = some t → ∀ v, v = w.vocabOf t → ∀ tok, tok = v.prof.m2c.getD p.arg 0 → ∀ slot, slot = t.id.slot →
      (t.choosing = true ∨ t.treeStep = true → exec (.tokChoose dt ap pos) s = .next (w.refuse p stStateConflict)) ∧
      (t.choosing = false → t.treeStep = false →
        (v.prof.vocab ≤ p.arg → exec (.tokChoose dt ap pos) s = .next (w.refuse p stBadPacket)) ∧
        (p.arg < v.prof.vocab → t.voided = true → exec (.tokChoose dt ap pos) s = .next (w.refuse p stVoided)) ∧
        (p.arg < v.prof.vocab → t.voided = false →
          (w.outside t 0 tok = true → t.id.force = false → exec (.tokChoose dt ap pos) s =
            .next (w.cmp p stDisallowed (flag t.replayed 1) (some p.arg) (some t.lastStep) (some 0))) ∧
          (w.outside t 0 tok = false ∨ t.id.force = true →
            ∀ c : Choice, c = { pkt := p, token := tok, node := 0, reply := false, outside := w.outside t 0 tok, arrived := w.aon.time } →
            let u := w.onStream slot (fun t => { t with choice := some c })
            let x := u.onStream slot (fun t => { t with choice := t.choice.map (fun c => { c with arrived := w.aon.time }) })
            let tc := { t with choice := some c }
            (w.passed t.lastStep = false → exec (.tokChoose dt ap pos) s = .next u) ∧
            (w.passed t.lastStep = true → slot ∉ w.str.waitingChoices →
              (u.grantable tc = true → exec (.tokChoose dt ap pos) s = .next (x.tokenCommit slot p [tok]
                (x.rechunk false t.parse (x.advanceBy tc t.parse t.healText tok (!c.outside))) (x.endsBy tc tok (t.generated + 1) (t.length + 1)) false p.arg 0)) ∧
              (u.grantable tc = false → exec (.tokChoose dt ap pos) s =
                .next (x.onStr (fun g => { g with waitingChoices := g.waitingChoices ++ [slot] })))))))) ∧
  ∀ (dt slot : Nat) (s : State),
    let b := s.elapse dt
    (slot ∉ s.str.waitingChoices → exec (.choiceGrant dt slot) s = .next b) ∧
    ∀ t c, b.stream? slot = some t → slot ∈ s.str.waitingChoices → t.choice = some c →
      (b.grantable t = false → exec (.choiceGrant dt slot) s = .next b.grantTrees) ∧
      (b.grantable t = true → c.reply = true → exec (.choiceGrant dt slot) s = .next (b.commitReply slot).grantTrees) ∧
      (b.grantable t = true → c.reply = false → exec (.choiceGrant dt slot) s = .next (b.tokenCommit slot c.pkt [c.token]
        (b.rechunk false t.parse (b.advanceBy t t.parse t.healText c.token (!c.outside)))
        (b.endsBy t c.token (t.generated + 1) (t.length + 1)) false c.pkt.arg (b.aon.time - c.arrived)).grantTrees)

/-- COMMIT_DECODE_DONE of a stream whose commit no louvre slice has gives it to one, and while the stop bank is being reloaded a stream with stop strings
waits; else it decodes the commit's tokens (to the end when it ends generation) against the stop strings that Beryl finds, counts false stop hits,
writes the released text as txt records with step, index and flags LATE, REPLAYED, STOP, ENDED and HELD, puts the stream in DRAINING when generation
has ended and in READY else, lets a pause that waited for the boundary take effect, and completes the choice with the chosen ID, the step and RESULT2;
without a commit nothing happens. Whatever the text, its runs joined are the text and none is longer than 4,064 bytes. A due dec.tok whose version is
not resident is refused with NOT_RESIDENT, one with an ID outside the vocabulary with BAD_PACKET; else the decoded text goes to the packet's ring as
txt records and it completes with the bytes, the tokens with the special ones suppressed, and the ill-formed subparts. -/
def Obligations.TextReleased : Prop :=
  (∀ (dt slot : Nat) (s : State),
    let b := s.elapse dt
    ((∀ t, b.stream? slot = some t → t.commit = none) → exec (.commitDecodeDone dt slot) s = .next b) ∧
    ∀ t c, b.stream? slot = some t → t.commit = some c →
      (c.slice = none → exec (.commitDecodeDone dt slot) s = .next (b.sliceCommit slot)) ∧
      (c.slice ≠ none → t.id.stops ≠ [] → b.useReloading 2 = true → exec (.commitDecodeDone dt slot) s = .next b) ∧
      ∀ n, c.slice = some n → (t.id.stops = [] ∨ b.useReloading 2 = false) → ∀ a, a = (if c.ended
          then decodeEnd (b.decSet t) (b.seenStops t) (decodeTokens (b.vocabOf t) (b.decSet t) (b.seenStops t) t.dec c.heal c.tokens)
          else decodeTokens (b.vocabOf t) (b.decSet t) (b.seenStops t) t.dec c.heal c.tokens) →
        ∀ ended, ended = (c.ended || a.stopped) →
        ∀ u, u = ((((b.lookups (8 + n / 2) 2 (a.keys.map (fun k => [k]))).count bcStopFalse a.falseHits).onStream slot (fun t => { t with
            commit := none, dec := a.dec, lat := { t.lat with policyDue := t.lat.lateStep && !ended } })).egressAll t.id.ring (some t.handle)
          (txtRecs t.handle c.step c.index (flag t.lat.lateStep 0 + flag t.replayed 1)
            (flag a.stopped 2 + flag ended 3 + flag (!a.dec.carry.isEmpty) 4) b.now (splitRuns 4064 a.text.length [] a.text))) →
        ∀ x, x = ((if ended then u.setState slot .draining else u.enterReady slot).pauseDeferred slot).heldBit slot →
        exec (.commitDecodeDone dt slot) s = .next (((x.1.onStream slot (fun t => { t with broke := false })).workDone 1 (.stream slot)).done c.pkt
          (x.2 + flag t.replayed 1 + flag t.lat.lateStep 2) (some c.result0) (some c.step) (some (x.1.chooseR2 slot c)))) ∧
  (∀ text : Bytes, (splitRuns 4064 text.length [] text).flatten = text ∧ ∀ r ∈ splitRuns 4064 text.length [] text, r.length ≤ 4064) ∧
  ∀ (dt ap pos : Nat) (s : State) (p : Pkt), s.due (.decTok dt ap pos) p →
    let w := s.atWork (.decTok dt ap pos) p
    (w.packetVersion p = none → exec (.decTok dt ap pos) s = .next (w.refuse p stNotResident)) ∧
    ∀ v, w.packetVersion p = some v →
      ((∃ m ∈ tokenIds p.payload, v.prof.vocab ≤ m) → exec (.decTok dt ap pos) s = .next (w.refuse p stBadPacket)) ∧
      ((∀ m ∈ tokenIds p.payload, m < v.prof.vocab) →
        ∀ d, d = v.vocab.decTok (decTokSet p v (if p.standalone then none else w.live? p.stream)) (v.prof.toCanon (tokenIds p.payload)) →
          exec (.decTok dt ap pos) s = .next ((w.egressAll p.ring p.named (txtRecs p.stream 0 p.tag 0 0 w.now
            (splitRuns 4064 d.1.length [] d.1))).done p 0 (some d.1.length)
              (some ((tokenIds p.payload).length + d.2.1 * 2 ^ 24)) (some d.2.2)))

/-- A due spec.tree of a live stream: a tree already held refuses it with STATE_CONFLICT, an ID outside the vocabulary with BAD_PACKET, with NO_SPACE when
its stack cannot be taken back into the pool, no tree record is free, or, its grammar being ACTIVE, fewer than four chunks a node are free once other
stacks are spilled; a node whose token its parent does not allow completes it with DISALLOWED and the node's number; a tree that is forked whole is
held under the next epoch with its nodes, its builds are begun, and it completes with epoch, count and depth. A due reply: without a tree in its step,
or with a choice held, STATE_CONFLICT; a BONUS outside the vocabulary or a node that is not there BAD_PACKET; a voided step VOIDED; a BONUS outside
the node's shutter without FORCE DISALLOWED, REPLAYED in a replay; before the step's PASS it is held, and after it it is committed or waits for
credit. TREE_RESOLVE_ACK lets the stream be admitted again. -/
def Obligations.TreesAndReplies : Prop :=
  (∀ (dt ap pos : Nat) (s : State) (p : Pkt), s.due (.specTree dt ap pos) p →
    let w := s.atWork (.specTree dt ap pos) p
    ∀ t, w.live? p.stream = some t →
      let canon := (treeNodes p.payload).map (fun n => (n.1, (w.vocabOf t).prof.m2c.getD n.2 0))
      (t.tree ≠ none → exec (.specTree dt ap pos) s = .next (w.refuse p stStateConflict)) ∧
      (t.tree = none → (∃ n ∈ treeNodes p.payload, (w.vocabOf t).prof.vocab ≤ n.2) →
        exec (.specTree dt ap pos) s = .next (w.refuse p stBadPacket)) ∧
      (t.tree = none → (∀ n ∈ treeNodes p.payload, n.2 < (w.vocabOf t).prof.vocab) →
        (w.treeStart t = none → exec (.specTree dt ap pos) s = .next (w.refuse p stNoSpace)) ∧
        ∀ w0, w.treeStart t = some w0 → ∀ u, w0.stream? t.id.slot = some u →
        ∀ chunks, chunks = (if u.parse.gstate = .active then 4 * (treeNodes p.payload).length else 0) →
        (w0.freeTree = none ∨ w0.chunksFree < chunks → exec (.specTree dt ap pos) s = .next (w.refuse p stNoSpace)) ∧
        ∀ record, w0.freeTree = some record → chunks ≤ w0.chunksFree →
          (∀ k, w0.fork u record canon [] = .refused k → exec (.specTree dt ap pos) s =
            .next (w0.cmp p stDisallowed 0 (some (treeR0 u.epoch k 0)) (some 0) (some 0))) ∧
          (∀ nodes, w0.fork u record canon [] = .whole nodes → exec (.specTree dt ap pos) s =
            .next ((((w0.withNodes u.id.slot record nodes).onStream u.id.slot (fun x => { x with epoch := (u.epoch + 1) % 256 })).done p 0
              (some (treeR0 ((u.epoch + 1) % 256) nodes.length ((nodes.map (·.depth)).foldl max 0))) (some 0) (some 0)).treeBuilds u.id.slot)))) ∧
  (∀ (dt ap pos : Nat) (s : State) (p : Pkt), s.due (.specTreeReply dt ap pos) p →
    let w := s.atWork (.specTreeReply dt ap pos) p
    let bonus := bits p.arg 39 20
    let node := bits p.arg 13 8
    ∀ t, w.live? p.stream = some t → ∀ voc, voc = (w.vocabOf t).prof.vocab → ∀ tok, tok = (w.vocabOf t).prof.m2c.getD bonus 0 →
      (t.tree = none → exec (.specTreeReply dt ap pos) s = .next (w.refuse p stStateConflict)) ∧
      ∀ tr, t.tree = some tr →
        (tr.inStep = false ∨ t.choosing = true → exec (.specTreeReply dt ap pos) s = .next (w.refuse p stStateConflict)) ∧
        (tr.inStep = true → t.choosing = false →
          (voc ≤ bonus ∨ tr.nodes.length < node → exec (.specTreeReply dt ap pos) s = .next (w.refuse p stBadPacket)) ∧
          (bonus < voc → node ≤ tr.nodes.length →
            (t.voided = true → exec (.specTreeReply dt ap pos) s = .next (w.refuse p stVoided)) ∧
            (t.voided = false → w.outside t node tok = true → t.id.force = false →
              exec (.specTreeReply dt ap pos) s = .next (w.cmp p stDisallowed (flag t.replayed 1) none none none)) ∧
            (t.voided = false → w.outside t node tok = false ∨ t.id.force = true →
              ∀ c : Choice, c = { pkt := p, token := tok, node := node, reply := true, outside := w.outside t node tok, arrived := w.aon.time } →
                ∀ u, u = w.onStream t.id.slot (fun x => { x with choice := some c }) →
                exec (.specTreeReply dt ap pos) s =
                  .next (if w.passed t.lastStep then u.grantOrWait State.commitHeld t.id.slot else u))))) ∧
  ∀ (dt slot : Nat) (s : State), exec (.treeResolveAck dt slot) s =
    .next ((s.elapse dt).onStream slot (fun t => { t with resolving := false }))

/-- Each searches the prefix banks for its handle. A due pfx.bind: the handle present for the tenant, a bound length of 0 or a depth above 7 refuses it
with STATE_CONFLICT; no free record or no room in Beryl with NO_SPACE. Else the record joins the records: for a stream in READY or DRAINING the
largest multiple of TOKENS_PER_PAGE not above LENGTH, its pages in state HANDLE, the stream's old record its parent, the stream attached to it with
the rest of its pages its own; for a paused stream its summary and LENGTH. It completes with the bound length and the record's number. pfx.find of a
record found completes with its length, generation, profile, summary flag, attachments and canonical CRC; a miss is refused with NOT_RESIDENT where
the block does not chain. pfx.drop of a record found drops it and completes; a miss is refused with NOT_RESIDENT. -/
def Obligations.PrefixHandles : Prop :=
  (∀ (dt ap pos : Nat) (s : State) (p : Pkt), s.due (.pfxBind dt ap pos) p →
    ∀ t, (s.atWork (.pfxBind dt ap pos) p).live? p.stream = some t →
      ∀ w, w = (s.atWork (.pfxBind dt ap pos) p).lookup 16 1 [p.arg, t.id.tenant] →
      ∀ num, num = w.freePfx.getD 0 → ∀ r k, w.bindRecord p.arg num t = (r, k) →
        let clash := w.findPfx p.arg t.id.tenant ≠ none ∨ w.holdsKey 1 [p.arg, t.id.tenant] = true ∨ r.length = 0 ∨ 7 < r.depth
        r.length = (if t.state = .paused then t.length else w.wholePages t.length) ∧ r.num = num ∧ r.handle = p.arg ∧
        r.tenant = t.id.tenant ∧ r.parent = (if t.state = .paused then none else t.pfx) ∧
        r.pages = (if t.state = .paused then [] else t.kv.take k) ∧
        (clash → exec (.pfxBind dt ap pos) s = .next (w.refuse p stStateConflict)) ∧
        (¬clash → w.freePfx = none → exec (.pfxBind dt ap pos) s = .next (w.refuse p stNoSpace)) ∧
        (¬clash → w.freePfx ≠ none →
          (w.insertUse 16 1 (prefixEntry p.arg t.id.tenant num) = none → exec (.pfxBind dt ap pos) s = .next (w.refuse p stNoSpace)) ∧
          ((w.insertUse 16 1 (prefixEntry p.arg t.id.tenant num)).isSome = true → ∃ u, w.insertUse 16 1 (prefixEntry p.arg t.id.tenant num) = some u ∧
            let v := (u.onSto (fun g => { g with pfx := g.pfx ++ [r] })).setChain .handle r.pages
            exec (.pfxBind dt ap pos) s = .next ((if t.state = .paused then v
              else (v.onStream t.id.slot (fun t => { t with kv := t.kv.drop k, pfx := some num })).setChain .stream (t.kv.drop k)).done p 0
                (some r.length) (some num) none)))) ∧
  (∀ (dt ap pos : Nat) (s : State) (p : Pkt), s.due (.pfxFind dt ap pos) p →
    let w := (s.atWork (.pfxFind dt ap pos) p).lookup 16 1 [rd p.payload 0 8, rd p.payload 8 4]
    (∀ r, w.findPfx (rd p.payload 0 8) (rd p.payload 8 4) = some r → exec (.pfxFind dt ap pos) s = .next (w.done p 0 (some r.length)
      (some (r.modelGen + r.profile * 2 ^ 16 + (if r.summary = 0 then 0 else 2 ^ 20))) (some (r.attach + r.canonCrc * 2 ^ 32)))) ∧
    (w.findPfx (rd p.payload 0 8) (rd p.payload 8 4) = none →
      (w.chains = false → exec (.pfxFind dt ap pos) s = .next (w.refuse p stNotResident)) ∧
      (w.chains = true → exec (.pfxFind dt ap pos) s = .next (w.startChain p (rd p.payload 0 8) (rd p.payload 8 4) false)))) ∧
  ∀ (dt ap pos : Nat) (s : State) (p : Pkt), s.due (.pfxDrop dt ap pos) p →
    let w := (s.atWork (.pfxDrop dt ap pos) p).lookup 16 1 [rd p.payload 0 8, rd p.payload 8 4]
    (∀ r, w.findPfx (rd p.payload 0 8) (rd p.payload 8 4) = some r →
      exec (.pfxDrop dt ap pos) s = .next ((w.dropRecords [r.num]).done p 0 none none none)) ∧
    (w.findPfx (rd p.payload 0 8) (rd p.payload 8 4) = none → exec (.pfxDrop dt ap pos) s = .next (w.refuse p stNotResident))

/-- A CHAIN_FIND that is heard searches the prefix banks and is answered to its source with the record found, and as a miss for a summary record or a
dropped one. A CHAIN_ANS for a lookup of this block whose source was asked and has not answered yet joins the answers, and the lookup is decided when
every member asked has answered; a decided pfx.find takes the hit of the lowest group number, completing with CHAINED and the holder, or is refused
with NOT_RESIDENT. At CHAIN_FIND_TIMEOUT, 50 µs after the question, the answers so far decide; before, and for a lookup that is not there, nothing
happens. PFX_COPY at a holder attaches the copy to the record and has the fabric copy its KV. PFX_COPY_DONE at the requester attaches the waiting
stream and completes str.open; at the holder it ends the copy's attachment. -/
def Obligations.ChainedLookups : Prop :=
  (∀ (dt handle tenant request : Nat) (s : State) (hdr : MsgHdr), (s.elapse dt).hears hdr false →
    let b := (s.elapse dt).lookup 26 1 [handle, tenant]
    (∀ r, b.findPfx handle tenant = some r → r.dropped = false → r.summary = 0 → exec (.chainFind dt hdr handle tenant request) s =
      .next (b.send hdr.source (.chainAns request (some { length := r.length, pages := r.pages.length, modelGen := r.modelGen, profile := r.profile, canonCrc := r.canonCrc, attach := r.attach })))) ∧
    ((∀ r, b.findPfx handle tenant = some r → r.dropped = true ∨ r.summary ≠ 0) →
      exec (.chainFind dt hdr handle tenant request) s = .next (b.send hdr.source (.chainAns request none)))) ∧
  (∀ (dt request : Nat) (s : State) (hdr : MsgHdr) (hit : Option ChainRec), let b := s.elapse dt; b.hears hdr false →
    let f := fun c : Chain => if c.request = request ∧ c.asked.testBit hdr.source = true ∧ ∀ a ∈ c.answered, a.1 ≠ hdr.source
      then { c with answered := c.answered ++ [(hdr.source, hit)] } else c
    let b' := b.onCas (fun g => { g with chains := g.chains.map f })
    (s.cas.chains.find? (fun c => c.request == request) = none → exec (.chainAns dt hdr request hit) s = .next b') ∧
    ∀ c, s.cas.chains.find? (fun c => c.request == request) = some c →
      ((∃ m ∈ bitList 64 (f c).asked, ∀ a ∈ (f c).answered, a.1 ≠ m) → exec (.chainAns dt hdr request hit) s = .next b') ∧
      ((∀ m ∈ bitList 64 (f c).asked, ∃ a ∈ (f c).answered, a.1 = m) → exec (.chainAns dt hdr request hit) s = .next (b'.decideChain (f c)))) ∧
  (∀ (s : State) (c : Chain), c.isOpen = false →
    let s1 := s.onCas (fun g => { g with chains := g.chains.filter (fun x => x.request != c.request) })
    ((∀ a ∈ c.answered, a.2 = none) → s.decideChain c = s1.refuse c.pkt stNotResident) ∧
    ∀ m r, minBy (fun h => h.1) (c.answered.filterMap (fun a => a.2.map (fun r => (a.1, r)))) = some (m, r) →
      s.decideChain c = s1.done c.pkt 0 (some r.length) (some (r.modelGen + r.profile * 2 ^ 16 + (2 ^ 21 + m * 2 ^ 22)))
        (some (r.attach + r.canonCrc * 2 ^ 32))) ∧
  (∀ (dt request : Nat) (s : State), let b := s.elapse dt
    (s.cas.chains.find? (fun c => c.request == request) = none → exec (.chainFindTimeout dt request) s = .next b) ∧
    ∀ c, s.cas.chains.find? (fun c => c.request == request) = some c →
      (c.sent + 50000 ≤ b.aon.time → exec (.chainFindTimeout dt request) s = .next (b.decideChain c)) ∧
      (b.aon.time < c.sent + 50000 → exec (.chainFindTimeout dt request) s = .next b)) ∧
  (∀ (dt handle tenant : Nat) (s : State) (hdr : MsgHdr) (pages : List Nat), let b := s.elapse dt; b.hears hdr false →
    (∀ r, b.findPfx handle tenant = some r → exec (.pfxCopy dt hdr handle tenant pages) s =
      .next (((b.attach r.num).onCas (fun c => { c with serving := c.serving ++ [(hdr.source, r.num)] })).emit
        (.copyKv handle hdr.source pages))) ∧
    (b.findPfx handle tenant = none → exec (.pfxCopy dt hdr handle tenant pages) s = .next b)) ∧
  ∀ (dt handle tenant : Nat) (s : State), let b := s.elapse dt
    let mine := fun n : Nat => s.sto.pfx.any (fun r => r.num == n && r.handle == handle && r.tenant == tenant)
    (∀ num slot holder p, s.cas.copies.find? (fun c => mine c.1) = some (num, slot, holder, p) → exec (.pfxCopyDone dt handle tenant) s =
      .next (((((b.onCas (fun c => { c with copies := c.copies.filter (fun x => x.1 != num) })).onStream slot
        (fun t => { t with wait := .none })).attachPrefix slot num)).finishOpen p slot)) ∧
    (s.cas.copies.find? (fun c => mine c.1) = none →
      (∀ c, s.cas.serving.find? (fun c => mine c.2) = some c → exec (.pfxCopyDone dt handle tenant) s =
        .next ((b.onCas (fun g => { g with serving := g.serving.erase c })).detach c.2)) ∧
      (s.cas.serving.find? (fun c => mine c.2) = none → exec (.pfxCopyDone dt handle tenant) s = .next b))

/-- A due bud.set on a block outside a group: for a tenant with a record REMOVE removes record and index entry and completes with its level, and a
replacement keeps the level, capped at the new BURST, or fills it with FILL; for one without, REMOVE completes with level 0 and changes nothing, and a
new record starts at level 0, or full with FILL, or is refused with NO_SPACE; a charge in the same clock finds what the bud.set found. While the group
forms and on an orphan it is refused with STATE_CONFLICT; a member or the deputy forwards it to the master with its tag; the master completes it when
its change is in the group record and the deputy, if any, has acknowledged it, and its own record of the tenant asks where it is spent, or lets held
streams go. A BUD_FWD at the master is carried out and answered; a BUD_DONE completes the packet with that tag, or refuses it with the status given. -/
def Obligations.BudgetsSet : Prop :=
  (∀ (dt ap pos : Nat) (s : State) (p : Pkt), s.due (.budSet dt ap pos) p →
    let w := s.atWork (.budSet dt ap pos) p
    ∀ r, budSetOf p.payload = some r →
      (w.cas.st = .forming ∨ w.cas.st = .orphan → exec (.budSet dt ap pos) s = .next (w.refuse p stStateConflict)) ∧
      (w.cas.st = .member ∨ w.cas.st = .deputy → exec (.budSet dt ap pos) s =
        .next ((w.onCas (fun g => { g with fwd := g.fwd ++ [(p.tag, p, r)] })).send w.cas.master (.budFwd r p.tag))) ∧
      (w.cas.st = .master →
        (w.setGroup r = none → exec (.budSet dt ap pos) s = .next (w.refuse p stNoSpace)) ∧
        ∀ u l, w.setGroup r = some (u, l) → (u.tellMembers r).mirror = none →
          exec (.budSet dt ap pos) s = .next ((((u.tellMembers r).done p 0 (some (levelWord l)) none none).askSpent r.tenant).unholdTenant r.tenant)) ∧
      (w.cas.st = .master → ∀ u l d, w.setGroup r = some (u, l) → (u.tellMembers r).mirror = some d →
        exec (.budSet dt ap pos) s = .next (((((u.tellMembers r).onCas (fun g => { g with
          owed := g.owed ++ [[.localDone p stOk l]] })).send d (.ledger (if r.remove then .remove r.tenant else .put r l))).askSpent
            r.tenant).unholdTenant r.tenant)) ∧
      (w.cas.st = .alone ∨ w.cas.st = .left → ∀ x, x = w.lookup 20 3 [r.tenant] →
        (∀ b, x.budget? r.tenant = some b →
          (r.remove = true → exec (.budSet dt ap pos) s = .next ((((x.onSto (fun g => { g with
            budgets := g.budgets.filter (fun x => x.tenant != r.tenant) })).removeUse 20 3 [r.tenant]).unholdTenant r.tenant).done p 0
              (some (levelWord (x.fresh b).level)) none none)) ∧
          (r.remove = false → ∀ n : Budget, n = { (x.fresh b).change r with tie := some ((x.fresh b).tieAt x.aon.time r) } →
            n.rate = r.rate ∧ n.burst = r.burst ∧ n.wPrompt = r.wPrompt ∧ n.wGen = r.wGen ∧ n.tenant = b.tenant ∧
            n.level = (if r.fill then (r.burst : Int) * 256 else min (x.fresh b).level ((r.burst : Int) * 256)) ∧
            exec (.budSet dt ap pos) s = .next (((x.putBudget n).unholdTenant r.tenant).done p 0 (some (levelWord n.level)) none none))) ∧
        (x.budget? r.tenant = none →
          (r.remove = true → exec (.budSet dt ap pos) s = .next ((x.unholdTenant r.tenant).done p 0 (some 0) none none)) ∧
          (r.remove = false →
            (freeIndex x.sto.budgets = none → exec (.budSet dt ap pos) s = .next (w.refuse p stNoSpace)) ∧
            ∀ i, freeIndex x.sto.budgets = some i →
              (x.insertUse 20 3 (tenantEntry r.tenant i) = none → exec (.budSet dt ap pos) s = .next (w.refuse p stNoSpace)) ∧
              ∀ u, x.insertUse 20 3 (tenantEntry r.tenant i) = some u → ∀ n : Budget, n = { Budget.new i u.aon.time r with
                  tie := some { at_ := u.aon.time, level := 0, wPrompt := 0, wGen := 0, kept := false } } →
                n.level = (if r.fill then (r.burst : Int) * 256 else 0) ∧
                exec (.budSet dt ap pos) s = .next (((u.putBudget n).unholdTenant r.tenant).done p 0 (some (levelWord n.level)) none none))))) ∧
  (∀ (dt tag : Nat) (s : State) (hdr : MsgHdr) (r : BudSet), let b := s.elapse dt; b.hears hdr true →
    (b.cas.st ≠ .master → exec (.budFwd dt hdr r tag) s = .next b) ∧
    (b.cas.st = .master → b.setGroup r = none → exec (.budFwd dt hdr r tag) s = .next (b.send hdr.source (.budDone tag stNoSpace 0))) ∧
    (b.cas.st = .master → ∀ u l, b.setGroup r = some (u, l) → (u.tellMembers r).mirror = none →
      exec (.budFwd dt hdr r tag) s = .next ((((u.tellMembers r).send hdr.source (.budDone tag stOk l)).askSpent r.tenant).unholdTenant r.tenant)) ∧
    (b.cas.st = .master → ∀ u l d, b.setGroup r = some (u, l) → (u.tellMembers r).mirror = some d →
      exec (.budFwd dt hdr r tag) s = .next (((((u.tellMembers r).onCas (fun g => { g with
        owed := g.owed ++ [[.budDone hdr.source tag stOk l]] })).send d (.ledger (if r.remove then .remove r.tenant else .put r l))).askSpent
          r.tenant).unholdTenant r.tenant))) ∧
  ∀ (dt tag status : Nat) (level : Int) (s : State) (hdr : MsgHdr), let b := s.elapse dt; b.hears hdr true →
    (s.cas.fwd.find? (fun f => f.1 == tag) = none → exec (.budDone dt hdr tag status level) s = .next b) ∧
    ∀ f, s.cas.fwd.find? (fun f => f.1 == tag) = some f →
      let u := b.onCas (fun g => { g with fwd := g.fwd.erase f })
      (status = stOk → exec (.budDone dt hdr tag status level) s = .next (u.done f.2.1 0 (some (levelWord level)) none none)) ∧
      (status ≠ stOk → exec (.budDone dt hdr tag status level) s = .next (u.refuse f.2.1 status))

/-- A GRANT_REQ that is heard does nothing except at the master; there, for a tenant without a group record nothing happens; with a refilled level at or
below zero, or a request of the tenant already waiting, it waits; else min(Q, level) leaves the record, and the GRANT is sent at once without a deputy
and after the deputy's acknowledgement with one. A GRANT adds its units to the local record, which asks again where it is still spent, and lets held
streams go; without a record it changes no level. A record at or below zero of a member or the deputy, without a request, asks the master for its
quantum; one above zero does not. A LEDGER change of a record is followed in the local record, and the deputy mirrors it and acknowledges; any other
block sends nothing. An acknowledgement makes the oldest owed thing happen. A waiting request is granted once the refilled level is above zero, and
else left. -/
def Obligations.GrantsFlow : Prop :=
  (∀ (dt tenant units : Nat) (s : State) (hdr : MsgHdr), let b := s.elapse dt; b.hears hdr true →
    (b.cas.st ≠ .master ∨ b.group? tenant = none → exec (.grantReq dt hdr tenant units) s = .next b) ∧
    (b.cas.st = .master → ∀ r, b.group? tenant = some r → ∀ g : Budget, g = r.refill b.aon.time →
      ((g.level ≤ 0 ∨ ∃ q ∈ b.cas.reqWaiting, q.2.1 = tenant) → exec (.grantReq dt hdr tenant units) s =
        .next (b.onCas (fun c => { c with ledger := budgetPut c.ledger g, reqWaiting := c.reqWaiting ++ [(hdr.source, tenant, units)] }))) ∧
      (0 < g.level → (∀ q ∈ b.cas.reqWaiting, q.2.1 ≠ tenant) → ∀ k, k = min units g.level.toNat →
        let u := b.onCas (fun c => { c with ledger := budgetPut c.ledger { g with level := g.level - k } })
        (b.mirror = none → exec (.grantReq dt hdr tenant units) s = .next (u.sendGrant hdr.source tenant k)) ∧
        (∀ d, b.mirror = some d → exec (.grantReq dt hdr tenant units) s = .next ((u.onCas (fun c => { c with
          owed := c.owed ++ [[.grant hdr.source tenant k]] })).send d (.ledger (.put g.params (g.level - k)))))))) ∧
  (∀ (dt tenant units : Nat) (s : State) (hdr : MsgHdr), let b := s.elapse dt; b.hears hdr true →
    (∀ r, b.budget? tenant = some r → exec (.grant dt hdr tenant units) s =
      .next (((b.putBudget { r with level := r.level + units, requested := false }).askSpent tenant).unholdTenant tenant)) ∧
    (b.budget? tenant = none → exec (.grant dt hdr tenant units) s = .next (b.unholdTenant tenant))) ∧
  (∀ (b : State) (tenant : Nat) (r : Budget), b.budget? tenant = some r →
    (0 < r.level → b.askSpent tenant = b) ∧
    (r.level ≤ 0 → r.requested = false → b.img.frame.inGroup = true → b.cas.st = .member ∨ b.cas.st = .deputy →
      b.askSpent tenant = (b.putBudget { r with requested := true }).send b.cas.master (.grantReq tenant (max 256 (ceilDiv (r.burst * 256) 32))))) ∧
  (∀ (dt : Nat) (s : State) (hdr : MsgHdr), let b := s.elapse dt; b.hears hdr true →
    (∀ r level, (b.followPut r).cas.st ≠ .deputy → exec (.ledger dt hdr (.put r level)) s = .next (b.followPut r)) ∧
    (∀ r level, (b.followPut r).cas.st = .deputy → exec (.ledger dt hdr (.put r level)) s =
      .next (((b.followPut r).mirrorPut r level).send hdr.source .ledgerAck)) ∧
    (∀ t, (b.followPut (removal t)).cas.st ≠ .deputy → exec (.ledger dt hdr (.remove t)) s = .next (b.followPut (removal t))) ∧
    (∀ t, (b.followPut (removal t)).cas.st = .deputy → exec (.ledger dt hdr (.remove t)) s =
      .next (((b.followPut (removal t)).onCas (fun g => { g with ledger := g.ledger.filter (fun x => x.tenant != t) })).send hdr.source .ledgerAck)) ∧
    (∀ l, b.cas.st ≠ .deputy ∨ hdr.source ≠ b.cas.master → exec (.ledger dt hdr (.final l)) s = .next b) ∧
    (∀ l, b.cas.st = .deputy → hdr.source = b.cas.master → exec (.ledger dt hdr (.final l)) s =
      .next ((l.foldl (fun s r => s.mirrorPut r.1 r.2) (b.onCas (fun c => { c with ledger := [] }))).takeOver none)) ∧
    (b.cas.owed = [] → exec (.ledgerAcknowledgement dt hdr) s = .next b) ∧
    (∀ o rest, b.cas.owed = [o] :: rest → exec (.ledgerAcknowledgement dt hdr) s =
      .next ((b.onCas (fun g => { g with owed := rest })).payOwed o))) ∧
  ∀ (dt tenant : Nat) (s : State), let b := s.elapse dt
    (b.cas.reqWaiting.find? (fun r => r.2.1 == tenant) = none ∨ b.group? tenant = none →
      exec (.waitingGrantRequest dt tenant) s = .next b) ∧
    ∀ q r, b.cas.reqWaiting.find? (fun r => r.2.1 == tenant) = some q → b.group? tenant = some r → ∀ g : Budget, g = r.refill b.aon.time →
      (b.cas.st ≠ .master ∨ g.level ≤ 0 → exec (.waitingGrantRequest dt tenant) s = .next b) ∧
      (b.cas.st = .master → 0 < g.level → b.mirror = none → ∀ k, k = min q.2.2 g.level.toNat →
        exec (.waitingGrantRequest dt tenant) s = .next (((b.onCas (fun c => { c with
          ledger := budgetPut c.ledger { g with level := g.level - k }, reqWaiting := c.reqWaiting.erase q })).sendGrant q.1 tenant k).unholdTenant tenant))

/-- A due lintel.raise on a raised lintel is refused with STATE_CONFLICT; else the lintel counts as raised, with the packet waiting for the next step
boundary. A due lintel.lower waits while a raise has not closed admission; else, on a lintel that is not raised, in a group before WELCOME, or with
another TOKENS_PER_PAGE while streams hold pages, it is refused with STATE_CONFLICT; else it records model generation, tokens per page, longest
context and the stated canonical CRCs, pauses at once the mismatched streams with nothing in the fabric, marks the others for their pause, releases
the remaining summaries, opens admission, writes LINTEL with the number paused, and completes. -/
def Obligations.LintelMoves : Prop :=
  (∀ (dt ap pos : Nat) (s : State) (p : Pkt), s.due (.lintelRaise dt ap pos) p →
    let w := s.atWork (.lintelRaise dt ap pos) p
    (w.sch.raised = true → exec (.lintelRaise dt ap pos) s = .next (w.refuse p stStateConflict)) ∧
    (w.sch.raised = false → exec (.lintelRaise dt ap pos) s =
      .next (w.onSch (fun g => { g with raised := true, closing := some p, closingMask := bits p.arg 15 0 })))) ∧
  ∀ (dt ap pos : Nat) (s : State) (p : Pkt), s.due (.lintelLower dt ap pos) p →
    let w := s.atWork (.lintelLower dt ap pos) p
    (w.sch.closing ≠ none → exec (.lintelLower dt ap pos) s = .next (w.onSch (fun g => { g with waitingLower := g.waitingLower ++ [p] }))) ∧
    (w.sch.closing = none → ∀ r, lowerReq p.payload = some r →
      let bad := w.sch.raised = false ∨ w.img.frame.inGroup = true ∧ w.cas.welcomed = false ∨
        w.sch.lowered = true ∧ r.tokensPerPage ≠ w.sch.tokensPerPage ∧ w.pagesHeld = true
      (bad → exec (.lintelLower dt ap pos) s = .next (w.refuse p stStateConflict)) ∧
      (¬bad → ∀ u, u = w.recordModel r →
        u.sch.modelGen = r.modelGen ∧ u.sch.tokensPerPage = r.tokensPerPage ∧ u.sch.maxContext = r.maxContext ∧
        ∀ now later, now = (u.str.tab.filter u.mismatched).filter (fun t => !u.pausesLater t) →
          later = (u.str.tab.filter u.mismatched).filter u.pausesLater →
          ∀ v, v = later.foldl (fun s t => (s.refusePending t.id.slot).onStream t.id.slot (fun t => { t with lpause := true }))
              (now.foldl (fun s t => (s.refusePending t.id.slot).lintelPause t.id.slot) u) →
          ∀ x, x = (v.str.tab.filter (fun t => t.lintelSum.isSome && t.state != .paused && !t.lpause && t.wait != .summaryEvent)).foldl
              (fun s t => s.dropLintelSum t.id.slot) v →
          exec (.lintelLower dt ap pos) s = .next ((((x.onSch (fun g => { g with raised := false, shut := false, sumLintel := [] })).onStr
            (fun g => { g with tab := g.tab.map (fun t => { t with lat := t.lat.endLintel w.aon.time }) })).event evLintel 0 r.modelGen
              now.length).done p 0 none none none)))

/-- A due grp.query subject 0 completes with the live bitmap, epoch, master, deputy and state code, and the counts of group and local budget records;
subject 1 for a live member with figures completes with its figures, for any other with NOT_RESIDENT. grp.locate outside a group is refused with
STATE_CONFLICT; at the master it completes with the new block and handle or is refused with NOT_RESIDENT; at a member it goes to the master. grp.leave
at the master or with a stream outside FREE and CLOSED is refused with STATE_CONFLICT; else the member returns its positive levels with LEAVE and is
LEFT. grp.handover at a master with a live deputy sends the final LEDGER and the block stops acting; else it is refused with STATE_CONFLICT. grp.join
in LEFT begins JOIN; else it is refused with STATE_CONFLICT. -/
def Obligations.GroupPackets : Prop :=
  (∀ (dt ap pos : Nat) (s : State) (p : Pkt), s.due (.grpQuery dt ap pos) p →
    let w := s.atWork (.grpQuery dt ap pos) p
    (bits p.arg 1 0 = 0 → exec (.grpQuery dt ap pos) s = .next (w.done p 0 (some w.cas.live)
      (some (w.cas.epoch + w.cas.master * 2 ^ 32 + w.cas.deputy * 2 ^ 40 + cascadeCode w.cas.st * 2 ^ 48))
      (some ((if w.cas.st = .master ∨ w.cas.st = .deputy then w.cas.ledger.length else 0) + w.sto.budgets.length * 2 ^ 32)))) ∧
    (bits p.arg 1 0 ≠ 0 → ∀ n, n = bits p.arg 13 8 →
      (w.cas.live.testBit n = false → exec (.grpQuery dt ap pos) s = .next (w.refuse p stNotResident)) ∧
      ∀ f, w.cas.live.testBit n = true → (if n = w.groupNum then some w.ownFigures else assoc w.cas.figures n) = some f →
        exec (.grpQuery dt ap pos) s = .next (w.done p 0 (some (f.imgGen + f.profiles * 2 ^ 16 + f.freeSlots * 2 ^ 32))
          (some (f.personality + (if w.cas.asleep.testBit n then 8 else 0))) (some f.freePages)))) ∧
  (∀ (dt ap pos : Nat) (s : State) (p : Pkt), s.due (.grpLocate dt ap pos) p →
    let w := s.atWork (.grpLocate dt ap pos) p
    let h := rd p.payload 0 4
    let g := bits (rd p.payload 4 1) 5 0
    (w.inGroup = false → exec (.grpLocate dt ap pos) s = .next (w.refuse p stStateConflict)) ∧
    (w.cas.st = .master → w.rescuedAs g h = none → exec (.grpLocate dt ap pos) s = .next (w.refuse p stNotResident)) ∧
    (w.cas.st = .master → ∀ x, w.rescuedAs g h = some x →
      exec (.grpLocate dt ap pos) s = .next (w.done p 0 (some (x.1 + x.2 * 2 ^ 32)) none none)) ∧
    (w.cas.st = .member ∨ w.cas.st = .deputy → exec (.grpLocate dt ap pos) s =
      .next ((w.onCas (fun c => { c with locates := c.locates ++ [(p.tag, p)] })).send w.cas.master (.locate p.tag h g)))) ∧
  (∀ (dt ap pos : Nat) (s : State) (p : Pkt), s.due (.grpLeave dt ap pos) p →
    let w := s.atWork (.grpLeave dt ap pos) p
    (w.cas.st = .master ∨ (∃ t ∈ w.str.tab, t.state ≠ .closed) → exec (.grpLeave dt ap pos) s = .next (w.refuse p stStateConflict)) ∧
    (w.cas.st ≠ .master → (∀ t ∈ w.str.tab, t.state = .closed) → w.img.frame.inGroup = true → w.inGroup = true →
      exec (.grpLeave dt ap pos) s = .next ((((w.send w.cas.master (.leave false
        ((w.sto.budgets.filter (fun b => decide (0 < b.level))).map (fun b => (b.tenant, b.level.toNat))))).onSto (fun g => { g with
          budgets := g.budgets.map (fun b => { b with level := min b.level 0, rem := 0, last := w.aon.time, requested := false }) })).onCas
            (fun c => { c with st := .left, joining := false, joins := [], firstJoin := none, slew := 0 })).done p 0 none none none))) ∧
  (∀ (dt ap pos : Nat) (s : State) (p : Pkt), s.due (.grpHandover dt ap pos) p →
    let w := s.atWork (.grpHandover dt ap pos) p
    (w.cas.st ≠ .master ∨ w.mirror = none → exec (.grpHandover dt ap pos) s = .next (w.refuse p stStateConflict)) ∧
    (w.cas.st = .master → ∀ d, w.mirror = some d → exec (.grpHandover dt ap pos) s =
      .next ((((w.send d (.ledger (.final (w.cas.ledger.map (fun b => ((b.refill w.aon.time).params, (b.refill w.aon.time).level)))))).dropOwed).onCas
        (fun c => { c with st := .member, lastBeat := w.aon.time })).done p 0 none none none))) ∧
  ∀ (dt ap pos : Nat) (s : State) (p : Pkt), s.due (.grpJoin dt ap pos) p →
    let w := s.atWork (.grpJoin dt ap pos) p
    (w.cas.st ≠ .left → exec (.grpJoin dt ap pos) s = .next (w.refuse p stStateConflict)) ∧
    (w.cas.st = .left → exec (.grpJoin dt ap pos) s = .next (((w.onCas (fun c => { c with joining := true })).sendJoin).done p 0 none none none))

/-- STEP_ISSUE on a block that serves packets passes a step boundary and issues under the grant, at most 16,384 entries and 65,536 tokens; on any other
nothing happens. Each of the four loops leaves a step within its entry limit, the prompt loop leaves it within its token limit, and so does the
generation loop for a stream without a tree. A step with entries that is sent takes the next step number, joins the steps awaiting their verdict with
its entries, and sets the time of the last issue; a step without entries is not sent. IDLE_BOUNDARY passes a boundary when 10 µs have gone by since
the last issue, and earlier does nothing. -/
def Obligations.StepsIssued : Prop :=
  (∀ (dt entries tokens : Nat) (s : State), let b := s.elapse dt
    (b.serving = true → b.start.down = false →
      exec (.stepIssue dt entries tokens) s = .next (b.boundary.issue (min entries 16384) (min tokens 65536))) ∧
    (b.serving = false ∨ b.start.down = true → exec (.stepIssue dt entries tokens) s = .next b)) ∧
  (∀ (n m slot h : Nat) (a : Issue), a.ents.length ≤ n →
    (Issue.generation n m a slot).ents.length ≤ n ∧ (Issue.prompt n m a slot).ents.length ≤ n ∧
    (Issue.summary n a slot).ents.length ≤ n ∧ (Issue.release n a h).ents.length ≤ n) ∧
  (∀ (n m slot : Nat) (a : Issue), a.toks ≤ m → (Issue.prompt n m a slot).toks ≤ m ∧
    ((∀ t, a.s.stream? slot = some t → t.tree = none) → (Issue.generation n m a slot).toks ≤ m)) ∧
  (∀ a : Issue,
    (a.ents = [] → a.send = a.s) ∧
    (a.ents ≠ [] → a.send.aon.stepCounter = a.s.aon.stepCounter + 1 ∧ a.send.sch.lastIssue = a.s.aon.time ∧
      ∃ x, a.send.sch.steps = a.s.sch.steps ++ [x] ∧ x.desc.step = a.s.aon.stepCounter + 1 ∧ x.desc.entries = a.ents ∧
        x.verdict = .waiting ∧ x.replay = false ∧ x.desc.imgGen = a.s.img.gen ∧ x.desc.modelGen = a.s.sch.modelGen ∧ x.reported = [])) ∧
  ∀ (dt : Nat) (s : State), let b := s.elapse dt
    (b.serving = true → b.sch.lastIssue + 10000 ≤ b.aon.time → exec (.idleBoundary dt) s = .next b.boundary) ∧
    (b.serving = false ∨ b.aon.time < b.sch.lastIssue + 10000 → exec (.idleBoundary dt) s = .next b)

/-- A burst of 1,024 logits for an expected row of a live stream that continues the row joins it; one that does not continue it, one for a row that is not
expected, or one for an unknown step or stream makes the row faulty; one for a row that a cancellation gave up before the fence is only a result of
its step; with another number of logits, or on a block that does not serve, nothing happens. ROW_SHAPED of a row that is expected and whole, on facets
that work, with the descriptor that it latched or that has been built since, and no earlier node of its stream left, writes the stream's cand record
with the shaped entries, keeps the descriptor for its choice, and after the entry's last row the stream awaits that choice; in every other case
nothing happens. -/
def Obligations.RowsTaken : Prop :=
  (∀ (dt facet : Nat) (s : State) (q : Burst), let b := s.elapse dt
    (b.serving = false ∨ q.logits.length ≠ 1024 → exec (.logitBurst dt facet q) s = .next b) ∧
    (b.serving = true → q.logits.length = 1024 →
      (b.step? q.step = none → exec (.logitBurst dt facet q) s = .next (b.rowFault q.step q.slot q.node)) ∧
      ∀ x, b.step? q.step = some x →
        (x.desc.entries.find? (fun e => e.row && e.slot == q.slot) = none ∨ b.stream? q.slot = none →
          exec (.logitBurst dt facet q) s = .next (b.rowFault q.step q.slot q.node)) ∧
        ∀ e t, x.desc.entries.find? (fun e => e.row && e.slot == q.slot) = some e → b.stream? q.slot = some t →
          ((q.slot, q.node) ∉ x.rowsLeft →
            (x.verdict ≠ .passed → (q.slot, q.node) ∈ x.discarded → exec (.logitBurst dt facet q) s = .next (b.resultIn q.step)) ∧
            (x.verdict = .passed ∨ (q.slot, q.node) ∉ x.discarded →
              exec (.logitBurst dt facet q) s = .next (b.rowFault q.step q.slot q.node))) ∧
          ((q.slot, q.node) ∈ x.rowsLeft →
            (∀ r, b.row? q.step q.slot q.node = some r →
              (b.burstFits t facet q r = true → exec (.logitBurst dt facet q) s = .next (b.takeBurst facet q t r)) ∧
              (b.burstFits t facet q r = false → exec (.logitBurst dt facet q) s = .next (b.rowFault q.step q.slot q.node))) ∧
            (b.row? q.step q.slot q.node = none → ∀ u r, b.beginRow x e t q.node = (u, r) →
              (u.burstFits t facet q r = true → exec (.logitBurst dt facet q) s = .next (u.takeBurst facet q t r)) ∧
              (u.burstFits t facet q r = false → exec (.logitBurst dt facet q) s = .next (u.rowFault q.step q.slot q.node)))))) ∧
  ∀ (dt step slot node : Nat) (s : State), let b := s.elapse dt
    (b.step? step = none ∨ b.stream? slot = none ∨ b.row? step slot node = none → exec (.rowShaped dt step slot node) s = .next b) ∧
    ∀ x t r, b.step? step = some x → b.stream? slot = some t → b.row? step slot node = some r →
      let d := r.desc.getD (((t.nodeAt node).map (·.2)).getD {})
      let due := (slot, node) ∈ x.rowsLeft ∧ r.whole (b.panesFor t) = true ∧ notBuilt d = false ∧ (∀ f ∈ r.facets, b.facetFailed f = false) ∧
        ∀ p ∈ x.rowsLeft, p.1 = slot → node ≤ p.2
      (¬due → exec (.rowShaped dt step slot node) s = .next b) ∧
      (due → ∀ sh, sh = b.shapeRow t d (r.panes.map (·.2)) → ∀ u, u = (b.onStream r.slot (fun t => { t with lat := t.lat.handed b.aon.time r.node })) →
        ∀ late, late = (match u.stream? r.slot with | some v => v.lat.lateStep | none => false) →
        ∀ v, v = (u.wakeDomain 2).egressFor t.id.ring (some t.handle) (.cand (u.candOf x t r sh late)) →
        ∀ y, y = ((((if r.parked then v else v.emit (.rowRelease r.step r.slot r.node)).onSch (fun g => { g with
            rows := rowsBut r.step r.slot r.node g.rows })).unpark r.step r.slot r.node).onStep r.step (fun x' => { x' with
            rowsLeft := x.rowsLeft.erase (r.slot, r.node) })).workDone 3 (.row r.step r.slot r.node) →
        exec (.rowShaped dt step slot node) s = .next ((if (x.rowsLeft.erase (r.slot, r.node)).any (fun p => p.1 == r.slot) then y.sweepSteps
          else (y.onStream r.slot (fun t => { t with state := .await, voided := false, replayed := x.replay })).sweepSteps).onStream slot (fun t =>
            { t with shaped := (t.shaped.filter (·.1 != node)) ++ [(node, b.resolved d)] })))

/-- For a step that is not in the fabric, and for a verdict on a delivery that has its verdict or was given up, nothing happens. VERDICT_PASS marks the
step passed, carries out its held choices in order of arrival, lets each entry's stream through the fence, and sends the CLEAR notices. VERDICT_FAIL
voids the step. VERDICT_TIMEOUT, with every result in and none of them within 1 ms, raises the fabric-protocol cause and voids the step, asking for
its replay; earlier nothing happens. CHUNK_KV_WRITTEN of a prompt entry, or of a summary release, counts as reported with its time, and ends the wait
for a replay; when it was the last chunk of a prompt that is to be handed on before its step has passed, the stream's package is sent sealed; for an
entry that is not there nothing happens. -/
def Obligations.Verdicts : Prop :=
  (∀ (dt step : Nat) (s : State), let b := s.elapse dt
    (b.step? step = none → exec (.verdictPass dt step) s = .next b ∧ exec (.verdictFail dt step) s = .next b ∧
      exec (.verdictTimeout dt step) s = .next b ∧ ∀ slot release, exec (.chunkKvWritten dt step ⟨slot, release⟩) s = .next b) ∧
    ∀ x, b.step? step = some x →
      (x.verdict ≠ .waiting → exec (.verdictPass dt step) s = .next b ∧ exec (.verdictFail dt step) s = .next b ∧
        exec (.verdictTimeout dt step) s = .next b) ∧
      (x.verdict = .waiting →
        (∀ u, u = b.onStep step (fun x => { x with verdict := .passed }) → exec (.verdictPass dt step) s =
          .next (((x.desc.entries.foldl State.passEntry ((u.heldChoices step).foldl (fun s n => s.grantOrWait State.commitHeld n) u)).sealVerdict
            step true).sweepSteps)) ∧
        exec (.verdictFail dt step) s = .next (b.voidStep false step) ∧
        (∀ at_, x.lastResult = some at_ → b.resultsIn x = true → at_ + 1000000 ≤ b.aon.time →
          exec (.verdictTimeout dt step) s = .next ((b.raise cFabricProto).voidStep true step)) ∧
        (x.lastResult = none ∨ b.resultsIn x = false ∨ (∀ at_, x.lastResult = some at_ → b.aon.time < at_ + 1000000) →
          exec (.verdictTimeout dt step) s = .next b)) ∧
      (∀ slot h, exec (.chunkKvWritten dt step ⟨slot, some h⟩) s = .next (b.onStep step (fun x =>
        if x.desc.entries.any (fun e => e.kind == 4 && e.summary == h) && !x.released.contains h then { x with
          lastResult := some b.aon.time, verdict := if x.verdict == .replaying then .waiting else x.verdict, released := x.released ++ [h] }
        else x))) ∧
      (∀ slot, (x.desc.entries.find? (fun e => e.slot == slot && e.kind == 1) = none ∨ b.stream? slot = none) →
        exec (.chunkKvWritten dt step ⟨slot, none⟩) s = .next b) ∧
      ∀ slot e t, x.desc.entries.find? (fun e => e.slot == slot && e.kind == 1) = some e → b.stream? slot = some t →
        ∀ u, u = b.onStep step (fun x => { x with
          lastResult := some b.aon.time
          verdict := if x.verdict == .replaying then .waiting else x.verdict
          reported := x.reported ++ (if x.reported.contains slot then [] else [slot]) }) →
        ∀ last : Bool, last = (t.state == .prompt && u.handsOff t && x.verdict != .passed && t.handle == e.handle && !t.enc.docOpen &&
          t.enc.promptDone && t.queue.length == 1 && t.lastStep == step && t.pausePending.isNone && t.wait == .none && t.migDest.isNone &&
          !t.cancelPending) →
        exec (.chunkKvWritten dt step ⟨slot, none⟩) s = .next (if last then
          (u.onStream slot (fun t => { t with pausePending := some (none, .migrate t.id.dest) })).sendPackage slot t.id.dest true false .sealedKv
          else u))

/-- BACKGROUND_BUILD starts a queued background build of that slot when no check of a committed or tree build waits at the casement units that serve its
profile and its blocks fit; else nothing happens. SHUTTER_BUILD_DONE with a unit returns that unit's share of a running build and grants the tree
builds that then fit; without one it takes the build off the builds, counts a shutter miss when the build ran past its bound in garnet time, writes
the descriptor, has the parked rows latch it, and grants the tree builds that fit; a background build ends only as the first of them and with its
stream's stack resident; with no such build nothing happens. STACK_REFILL_DONE takes the stack of a stream in a refill into the pool where it fits.
DEADLINE_POLICY of a stream with a late step applies its policy: 0 writes one DEADLINE record in the stream's life, 1 writes it and closes the stream,
2 writes it and raises the priority number by one up to 3; without a late step nothing happens. -/
def Obligations.BuildsAndPolicies : Prop :=
  (∀ (dt slot : Nat) (s : State), let b := s.elapse dt
    (b.str.builds.find? (fun q => q.slot == slot && q.background && !q.running) = none ∨ b.stream? slot = none →
      exec (.backgroundBuild dt slot) s = .next b) ∧
    (∀ q t, b.str.builds.find? (fun q => q.slot == slot && q.background && !q.running) = some q → b.stream? slot = some t →
      let free := (∀ u ∈ b.casements t.id.profile, ∀ c ∈ b.str.builds, c.background = true ∨ u ∉ c.units ∨ c.share = 0) ∧
        b.blocksUsed + b.backBlocks t ≤ b.shutterBlocks
      (free → exec (.backgroundBuild dt slot) s = .next (b.onStr (fun g => { g with builds := g.builds.map (fun c =>
        if c == q then { c with running := true, blocks := b.backBlocks t, began := b.aon.time } else c) }))) ∧
      (¬free → exec (.backgroundBuild dt slot) s = .next b)) ∧
    (∀ node unit, let ends := fun q : Build => q.slot == slot && q.node == node && q.running && (!q.background ||
        ((match b.stream? slot with | some t => !t.parse.refill | none => true) && (b.str.builds.find? (·.background)) == some q))
      (b.str.builds.find? ends = none → exec (.shutterBuildDone dt slot ⟨node, unit⟩) s = .next b) ∧
      ∀ q, b.str.builds.find? ends = some q →
        (∀ n, unit = some n → exec (.shutterBuildDone dt slot ⟨node, unit⟩) s = .next (b.onStr (fun g => { g with builds := g.builds.map (fun c =>
          if c == q then { c with units := c.units.filter (· != n) } else c) })).grantTrees) ∧
        (unit = none → ∀ u, u = (b.onStr (fun g => { g with builds := g.builds.erase q })).workDone 2 (.stream q.slot) →
          let late := q.background = false ∧ q.missed = false ∧ q.clock + 16 * q.bound < b.aon.garnet
          (late → exec (.shutterBuildDone dt slot ⟨node, unit⟩) s =
            .next (((u.count bcShutterMiss 1).build q.slot q.node).latchRows q.slot q.node).grantTrees) ∧
          (¬late → exec (.shutterBuildDone dt slot ⟨node, unit⟩) s = .next ((u.build q.slot q.node).latchRows q.slot q.node).grantTrees))) ∧
    (∀ t, b.stream? slot = some t → t.parse.refill = true → exec (.stackRefillDone dt slot) s = .next ((b.takeStack slot).getD b)) ∧
    ((∀ t, b.stream? slot = some t → t.parse.refill = false) → exec (.stackRefillDone dt slot) s = .next b)) ∧
  ∀ (dt slot : Nat) (s : State), let b := s.elapse dt
    ((∀ t, b.stream? slot = some t → t.lat.policyDue = false) → exec (.deadlinePolicy dt slot) s = .next b) ∧
    ∀ t, b.stream? slot = some t → t.lat.policyDue = true →
      let u := b.onStream slot (fun t => { t with lat := { t.lat with policyDue := false, lateSeen := true } })
      (t.id.policy = 1 → exec (.deadlinePolicy dt slot) s =
        .next ((u.eventFull evDeadline t.handle 0xFFFF t.handle 1 t.lastStep).closeStream slot none)) ∧
      (t.id.policy = 2 → exec (.deadlinePolicy dt slot) s = .next ((u.onStream slot (fun t => { t with
        id := { t.id with priority := min 3 (t.id.priority + 1) } })).eventFull evDeadline t.handle 0xFFFF t.handle 2 t.lastStep)) ∧
      (t.id.policy = 0 → t.lat.lateSeen = true → exec (.deadlinePolicy dt slot) s = .next u) ∧
      (t.id.policy = 0 → t.lat.lateSeen = false → exec (.deadlinePolicy dt slot) s =
        .next (u.eventFull evDeadline t.handle 0xFFFF t.handle 0 t.lastStep))

/-- A JOIN that is heard with another frame CRC raises GROUP_FRAME at a joining block and does nothing else; with the own frame CRC the master takes the
sender in as live and sends WELCOME unless the sender's time is more than 1 ms ahead, a block that looks for a group (in FORMING or ORPHAN, or LEFT
after grp.join) notes it and, if it is the frame's MASTER and has a quorum, forms the group, and any other block does nothing. JOIN_TIMER sends JOIN
again 100 µs after the last while a block joins. FORM_TIMEOUT, 10 ms after the first JOIN, makes a seeking block with a quorum and no lower number
among its joiners form the group. A WELCOME does nothing unless the block joins; a block more than 1 ms ahead raises GROUP_TIME; else it takes epoch,
members, roles and the ledger index, steps its time when more than 10 µs behind, resends what is unanswered, and lets held streams go; one that had
left first gives up what its own buckets held. -/
def Obligations.GroupForms : Prop :=
  (∀ (dt frameCrc time : Nat) (s : State) (hdr : MsgHdr), let b := s.elapse dt; b.hears hdr false →
    (frameCrc ≠ b.img.frame.crc → b.cas.joining = true → exec (.join dt hdr frameCrc time) s = .next (b.raise cGroupFrame)) ∧
    (frameCrc ≠ b.img.frame.crc → b.cas.joining = false → exec (.join dt hdr frameCrc time) s = .next b) ∧
    (frameCrc = b.img.frame.crc → b.cas.st = .master → b.aon.time + 1000000 < time → exec (.join dt hdr frameCrc time) s = .next b) ∧
    (frameCrc = b.img.frame.crc → b.cas.st = .master → time ≤ b.aon.time + 1000000 → exec (.join dt hdr frameCrc time) s =
      .next ((b.onCas (fun c => { c with live := withBit c.live hdr.source, asleep := noBit c.asleep hdr.source, acks := assocSet c.acks hdr.source b.aon.time })).sendWelcome hdr.source)) ∧
    (frameCrc = b.img.frame.crc → b.cas.st = .forming ∨ b.cas.st = .orphan ∨ (b.cas.st = .left ∧ b.cas.joining = true) →
      let u := b.onCas (fun c => { c with joins := assocSet c.joins hdr.source time })
      (b.img.frame.master = b.groupNum → u.canForm = true → exec (.join dt hdr frameCrc time) s = .next u.form) ∧
      (b.img.frame.master ≠ b.groupNum ∨ u.canForm = false → exec (.join dt hdr frameCrc time) s = .next u)) ∧
    (b.cas.st = .alone ∨ b.cas.st = .member ∨ b.cas.st = .deputy ∨ (b.cas.st = .left ∧ b.cas.joining = false) → frameCrc = b.img.frame.crc →
      exec (.join dt hdr frameCrc time) s = .next b)) ∧
  (∀ (dt : Nat) (s : State), let b := s.elapse dt
    (b.runs → b.cas.joining = true → b.cas.lastJoin + 100000 ≤ b.aon.time → exec (.joinTimer dt) s = .next b.sendJoin) ∧
    (b.cas.joining = false ∨ b.aon.time < b.cas.lastJoin + 100000 → exec (.joinTimer dt) s = .next b) ∧
    (b.runs → b.seeking = true → (∃ t, b.cas.firstJoin = some t ∧ t + 10000000 ≤ b.aon.time) → b.canForm = true →
      (∀ j ∈ b.cas.joins, b.groupNum < j.1) → exec (.formTimeout dt) s = .next b.form) ∧
    (b.seeking = false ∨ b.canForm = false ∨ (∃ j ∈ b.cas.joins, j.1 ≤ b.groupNum) ∨
      (∀ t, b.cas.firstJoin = some t → b.aon.time < t + 10000000) → exec (.formTimeout dt) s = .next b)) ∧
  ∀ (dt newEpoch live asleep master deputy time : Nat) (tenants : List BudSet) (s : State) (hdr : MsgHdr), let b := s.elapse dt
    b.hears hdr false →
      (b.cas.joining = false → exec (.welcome dt hdr newEpoch live asleep master deputy time tenants) s = .next b) ∧
      (b.cas.joining = true → time + 1000000 < b.aon.time →
        exec (.welcome dt hdr newEpoch live asleep master deputy time tenants) s = .next (b.raise cGroupTime)) ∧
      (b.cas.joining = true → b.aon.time ≤ time + 1000000 →
        ∀ o, o = (if b.cas.st = .left then b.dropGrants else b) →
        ∀ u, u = (if b.aon.time + 10000 < time then o.onAon (fun a => { a with time := max a.time time }) else o) →
        ∀ v, v = u.withRoles (fun c => { c with epoch := newEpoch, live := live, asleep := asleep, master := master, deputy := deputy, welcomed := true, joining := false, firstJoin := none, joins := [], polls := [], lastBeat := u.aon.time, slew := 0 }) →
        (b.cas.epoch ≠ newEpoch ∨ b.cas.master ≠ master ∨ b.cas.deputy ≠ deputy →
          exec (.welcome dt hdr newEpoch live asleep master deputy time tenants) s =
            .next (v.groupEvent.followIndex tenants).resend.unholdAll) ∧
        (b.cas.epoch = newEpoch → b.cas.master = master → b.cas.deputy = deputy →
          exec (.welcome dt hdr newEpoch live asleep master deputy time tenants) s =
            .next (v.followIndex tenants).resend.unholdAll))

/-- BEAT_TIMER at a running master 100 µs after the last BEAT sends BEAT to every other live member; a message heard from the master gives a member
bitmap, deputy, figures and the slew target, whose BEAT_ACK goes back; one from any other block does nothing. BEAT_ACK of a live member gives the
master its figures and half of the round trip less the turnaround. MEMBER_DEPART_TIMEOUT after 1 ms without one takes the member out;
QUORUM_LOSS_TIMEOUT without the acknowledgements of a quorum within 800 µs makes the master an orphan. TIME_SLEW_TICK moves the time base by 1 ns at
most once in 5 µs towards the target, and never back behind the state it found. A BEAT, POLL or TAKEOVER with a failing CRC or another epoch is
counted and does nothing else. -/
def Obligations.BeatsKept : Prop :=
  (∀ (dt : Nat) (s : State), let b := s.elapse dt
    (b.runs → b.cas.st = .master → b.cas.lastBeat + 100000 ≤ b.aon.time →
      ∀ figs, figs = assocSet b.cas.figures b.groupNum b.ownFigures → exec (.beatTimer dt) s =
        .next (b.liveOthers.foldl (fun s n => s.send n (.beat s.now s.cas.live s.cas.deputy ((assoc s.cas.delays n).getD 0) figs))
          (b.onCas (fun c => { c with lastBeat := b.aon.time, figures := figs })))) ∧
    (b.cas.st ≠ .master ∨ b.aon.time < b.cas.lastBeat + 100000 → exec (.beatTimer dt) s = .next b) ∧
    (∀ m, b.runs → b.cas.st = .master → m ≠ b.groupNum → b.cas.live.testBit m = true →
      ((assoc b.cas.acks m).getD 0 + 1000000 ≤ b.aon.time → exec (.memberDepartTimeout dt m) s = .next (b.depart m)) ∧
      (b.aon.time < (assoc b.cas.acks m).getD 0 + 1000000 → exec (.memberDepartTimeout dt m) s = .next b)) ∧
    (∀ heard, heard = (b.cas.acks.filter (fun a => b.cas.live.testBit a.1 && decide (b.aon.time < a.2 + 800000))).length →
      (b.runs → b.cas.st = .master → b.quorum (heard + 1) = false → exec (.quorumLossTimeout dt) s = .next b.orphan) ∧
      (b.cas.st ≠ .master ∨ b.quorum (heard + 1) = true → exec (.quorumLossTimeout dt) s = .next b))) ∧
  (∀ (dt time live deputy delay echo received turnaround : Nat) (figs : List (Nat × Figures)) (fig : Figures) (s : State) (hdr : MsgHdr),
    let b := s.elapse dt; b.hears hdr true →
    (hdr.source ≠ b.cas.master ∨ (b.cas.st ≠ .member ∧ b.cas.st ≠ .deputy) →
      exec (.beat dt hdr time live deputy delay figs) s = .next b) ∧
    (hdr.source = b.cas.master → b.cas.st = .member ∨ b.cas.st = .deputy → (∀ n ∈ b.liveOthers, live.testBit n = true) →
      b.cas.deputy = deputy → ∀ u, u = b.withRoles (fun c => { c with live := live, deputy := deputy, figures := figs, lastBeat := b.aon.time, slew := ((time + delay : Nat) : Int) - (b.aon.time : Int), polls := [] }) →
      exec (.beat dt hdr time live deputy delay figs) s = .next (u.send u.cas.master (.beatAck time u.now u.ownFigures))) ∧
    (b.cas.st = .master → b.cas.live.testBit hdr.source = true → exec (.beatAck dt hdr echo received turnaround fig) s =
      .next (b.onCas (fun c => { c with acks := assocSet c.acks hdr.source b.aon.time, figures := assocSet c.figures hdr.source fig, delays := assocSet c.delays hdr.source ((b.aon.time - echo - turnaround) / 2) }))) ∧
    (b.cas.st ≠ .master ∨ b.cas.live.testBit hdr.source = false → exec (.beatAck dt hdr echo received turnaround fig) s = .next b)) ∧
  (∀ (dt : Nat) (s : State), let b := s.elapse dt
    ((b.cas.st ≠ .member ∧ b.cas.st ≠ .deputy) ∨ b.cas.slew = 0 ∨ b.aon.time < b.cas.lastSlew + 5000 →
      exec (.timeSlewTick dt) s = .next b) ∧
    (b.cas.st = .member ∨ b.cas.st = .deputy → b.cas.lastSlew + 5000 ≤ b.aon.time →
      (0 < b.cas.slew → exec (.timeSlewTick dt) s = .next ((b.onAon (fun a => { a with time := a.time + 1 })).onCas (fun c => { c with slew := c.slew - 1, lastSlew := b.aon.time }))) ∧
      (b.cas.slew < 0 → dt ≠ 0 → exec (.timeSlewTick dt) s = .next ((b.onAon (fun a => { a with time := a.time - 1 })).onCas (fun c => { c with slew := c.slew + 1, lastSlew := b.aon.time })))) ∧
    ∃ t, exec (.timeSlewTick dt) s = .next t ∧ s.aon.time ≤ t.aon.time) ∧
  ∀ (dt : Nat) (s : State) (hdr : MsgHdr), let b := s.elapse dt
    b.start.phase = .run → hdr.crcOk = false ∨ hdr.epoch ≠ b.cas.epoch →
      exec (.poll dt hdr) s = .next (b.count bcGrpDiscard 1) ∧
      (∀ e d, exec (.takeover dt hdr e d) s = .next (b.count bcGrpDiscard 1)) ∧
      ∀ time live deputy delay figs, exec (.beat dt hdr time live deputy delay figs) s = .next (b.count bcGrpDiscard 1)

/-- DEPUTY_POLL_TIMEOUT of a running deputy 1 ms after the last BEAT sends POLL to every live member but the master; earlier, or in another role, nothing
happens. A POLL from the deputy is answered with whether a BEAT came within 1 ms (a master always has); from any other block it does nothing. A
POLL_ANS of a recent BEAT, or one that a block that is no deputy hears, does nothing; else it counts, and with a quorum the deputy takes over. A
TAKEOVER from any block but the deputy does nothing; from the deputy it gives epoch, master and deputy, a GROUP record, and what is unanswered is sent
again. ORPHAN_TIMEOUT of a running member or deputy 2 ms after the last BEAT makes it an orphan that sends JOIN; earlier nothing happens. -/
def Obligations.TakeoversAndPolls : Prop :=
  (∀ (dt : Nat) (s : State), let b := s.elapse dt
    (b.runs → b.cas.st = .deputy → b.cas.lastBeat + 1000000 ≤ b.aon.time → exec (.deputyPollTimeout dt) s =
      .next ((b.liveOthers.filter (fun n => n != b.cas.master)).foldl (fun s n => s.send n .poll) (b.onCas (fun c => { c with polls := [] })))) ∧
    (b.cas.st ≠ .deputy ∨ b.aon.time < b.cas.lastBeat + 1000000 → exec (.deputyPollTimeout dt) s = .next b) ∧
    (b.runs → b.cas.st = .member ∨ b.cas.st = .deputy → b.cas.lastBeat + 2000000 ≤ b.aon.time →
      exec (.orphanTimeout dt) s = .next b.orphan) ∧
    ((b.cas.st ≠ .member ∧ b.cas.st ≠ .deputy) ∨ b.aon.time < b.cas.lastBeat + 2000000 → exec (.orphanTimeout dt) s = .next b)) ∧
  ∀ (dt e d : Nat) (recent : Bool) (s : State) (hdr : MsgHdr), let b := s.elapse dt; b.hears hdr true →
    (b.cas.st = .master → hdr.source = b.cas.deputy → exec (.poll dt hdr) s = .next (b.send hdr.source (.pollAns true))) ∧
    (b.cas.st = .member ∨ b.cas.st = .deputy → hdr.source = b.cas.deputy → exec (.poll dt hdr) s =
      .next (b.send hdr.source (.pollAns (decide (b.aon.time < b.cas.lastBeat + 1000000))))) ∧
    (hdr.source ≠ b.cas.deputy ∨ b.inGroup = false →
      exec (.poll dt hdr) s = .next b ∧ exec (.takeover dt hdr e d) s = .next b) ∧
    (b.inGroup = true → hdr.source = b.cas.deputy → exec (.takeover dt hdr e d) s = .next ((b.withRoles (fun c => { c with epoch := e, master := hdr.source, deputy := d, lastBeat := b.aon.time, polls := [] })).groupEvent.resend)) ∧
    (b.cas.st ≠ .deputy ∨ recent = true ∨ b.aon.time < b.cas.lastBeat + 1000000 → exec (.pollAns dt hdr recent) s = .next b) ∧
    (b.cas.st = .deputy → recent = false → b.cas.lastBeat + 1000000 ≤ b.aon.time →
      ∀ u, u = b.onCas (fun c => { c with polls := if c.polls.contains hdr.source then c.polls else c.polls ++ [hdr.source] }) →
        (u.quorum (u.cas.polls.length + 1) = true → exec (.pollAns dt hdr recent) s = .next (u.takeOver (some b.cas.master))) ∧
        (u.quorum (u.cas.polls.length + 1) = false → exec (.pollAns dt hdr recent) s = .next u))

/-- A LEAVE of a live member at the master gives its units back, takes it out of the live bitmap, and marks it asleep or treats it as gone; elsewhere it
does nothing. At a DOWN the master remembers the lost block and asks it for its streams; another block remembers a lost master, and does nothing for
any other block. A RESCUE at a lost block that it names is answered with the packages of its streams paused in summary or tier mode, in slot order; at
the master, for a block it remembers, its streams are re-created one by one; elsewhere it does nothing. LINK_UNREACHABLE of a live member makes the
master treat it as departed. GRP_LOCATE_ANSWER completes the packet with that tag with block and handle, or refuses it with NOT_RESIDENT; without one
nothing happens. -/
def Obligations.LeavingAndRescue : Prop :=
  (∀ (dt : Nat) (asleep : Bool) (units : List (Nat × Nat)) (s : State) (hdr : MsgHdr), let b := s.elapse dt; b.hears hdr true →
    (b.cas.st ≠ .master ∨ b.cas.live.testBit hdr.source = false → exec (.leave dt hdr asleep units) s = .next b) ∧
    (b.cas.st = .master → b.cas.live.testBit hdr.source = true → ∀ u, u = (units.foldl (fun s x => s.takeBack x) b).notLive hdr.source →
      (asleep = true → exec (.leave dt hdr asleep units) s = .next (u.onCas (fun c => { c with asleep := withBit c.asleep hdr.source }))) ∧
      (asleep = false → exec (.leave dt hdr asleep units) s = .next (u.memberGone hdr.source)))) ∧
  (∀ (dt lost : Nat) (s : State) (hdr : MsgHdr), let b := s.elapse dt; b.hears hdr false →
    ∀ u, u = b.onCas (fun c => { c with lost := if c.lost.contains lost then c.lost else c.lost ++ [lost] }) →
      (b.cas.st = .master → exec (.down dt hdr lost) s = .next (u.send lost (.rescue lost []))) ∧
      (b.cas.st ≠ .master → lost = b.cas.master → exec (.down dt hdr lost) s = .next u) ∧
      (b.cas.st ≠ .master → lost ≠ b.cas.master → exec (.down dt hdr lost) s = .next b)) ∧
  (∀ (dt lost : Nat) (bodies : List PkgBody) (s : State) (hdr : MsgHdr), let b := s.elapse dt
    b.start.phase = .run → hdr.crcOk = true →
      (b.start.down = true → lost ≠ b.groupNum → exec (.rescue dt hdr lost bodies) s = .next b) ∧
      (b.start.down = true → lost = b.groupNum → exec (.rescue dt hdr lost bodies) s = .next (b.send hdr.source (.rescue lost
        ((sortBy (fun a c => decide (a.id.slot < c.id.slot)) (b.str.tab.filter rescued)).map (fun t => b.packageOf t false false))))) ∧
      (b.start.down = false → b.cas.st = .master → lost ∈ b.cas.lost → exec (.rescue dt hdr lost bodies) s =
        .next (bodies.foldl (State.rescueOne lost) (b.onCas (fun c => { c with lost := c.lost.filter (· != lost) })))) ∧
      (b.start.down = false → b.cas.st ≠ .master ∨ lost ∉ b.cas.lost → exec (.rescue dt hdr lost bodies) s = .next b)) ∧
  (∀ (dt m : Nat) (s : State), let b := s.elapse dt
    (b.inGroup = false ∨ m = b.groupNum → exec (.linkUnreachable dt m) s = .next b) ∧
    (b.runs → b.cas.st = .master → m ≠ b.groupNum → b.cas.live.testBit m = true → exec (.linkUnreachable dt m) s =
      .next ((b.onCas (fun c => { c with lost := c.lost.filter (· != m) })).depart m)) ∧
    (b.runs → b.cas.st = .member ∨ b.cas.st = .deputy → m ≠ b.groupNum → m ≠ b.cas.master → b.cas.live.testBit m = true →
      exec (.linkUnreachable dt m) s =
        .next (((b.onCas (fun c => { c with lost := c.lost.filter (· != m) })).onCas (fun c => { c with live := noBit c.live m })).memberGone m))) ∧
  ∀ (dt tag : Nat) (ans : Option (Nat × Nat)) (s : State) (hdr : MsgHdr), let b := s.elapse dt; b.hears hdr true →
    (b.cas.locates.find? (fun l => l.1 == tag) = none → exec (.grpLocateAnswer dt hdr tag ans) s = .next b) ∧
    ∀ l, b.cas.locates.find? (fun l => l.1 == tag) = some l → ∀ u, u = b.onCas (fun c => { c with locates := c.locates.erase l }) →
      (ans = none → exec (.grpLocateAnswer dt hdr tag ans) s = .next (u.refuse l.2 stNotResident)) ∧
      (∀ g h, ans = some (g, h) → exec (.grpLocateAnswer dt hdr tag ans) s = .next (u.done l.2 0 (some (g + h * 2 ^ 32)) none none))

/-- A due test.march with MODE 0 or 1 is refused with STATE_CONFLICT while a march runs or for arrays or banks that the mode may not name, and with
NO_SPACE for a mapped CAM bank without a spare; else the march begins with the packet to complete. With MODE 2 it makes a running march end at the
next row boundary and completes, and without one it is refused with STATE_CONFLICT. The register does the same at a block in RUN and keeps the status
instead of a cmp record; a value that is no form of R389 keeps BAD_PACKET. A preserving march of SRAM arrays begins at row 0 of its first eight
arrays; a destructive one takes its arrays out of allocation and waits for those that are in pools. DESTRUCTIVE_MARCH_START of a waiting array that is
idle stops the wait, in RUN; DESTRUCTIVE_MARCH_TIMEOUT 100 ms after the request gives the march up with STATE_CONFLICT. -/
def Obligations.MarchesBegin : Prop :=
  (∀ (dt ap pos : Nat) (s : State) (p : Pkt), s.due (.testMarchPreserving dt ap pos) p →
    let w := s.atWork (.testMarchPreserving dt ap pos) p
    bits p.arg 1 0 = 0 ∧
    (∀ st, w.marchRefusal 0 (p.arg.testBit 2) (bits p.arg 10 4) (bits p.arg 17 11) = some st →
      exec (.testMarchPreserving dt ap pos) s = .next ((w.marchStatus st).refuse p st)) ∧
    (w.marchRefusal 0 (p.arg.testBit 2) (bits p.arg 10 4) (bits p.arg 17 11) = none →
      exec (.testMarchPreserving dt ap pos) s = .next (w.beginMarch (some p) 0 (p.arg.testBit 2) (bits p.arg 10 4) (bits p.arg 17 11)))) ∧
  (∀ (dt ap pos : Nat) (s : State) (p : Pkt), s.due (.testMarchDestructive dt ap pos) p →
    let w := s.atWork (.testMarchDestructive dt ap pos) p
    bits p.arg 1 0 = 1 ∧
    (∀ st, w.marchRefusal 1 (p.arg.testBit 2) (bits p.arg 10 4) (bits p.arg 17 11) = some st →
      exec (.testMarchDestructive dt ap pos) s = .next ((w.marchStatus st).refuse p st)) ∧
    (w.marchRefusal 1 (p.arg.testBit 2) (bits p.arg 10 4) (bits p.arg 17 11) = none →
      exec (.testMarchDestructive dt ap pos) s = .next (w.beginMarch (some p) 1 (p.arg.testBit 2) (bits p.arg 10 4) (bits p.arg 17 11)))) ∧
  (∀ (dt ap pos : Nat) (s : State) (p : Pkt), s.due (.testMarchAbort dt ap pos) p →
    let w := s.atWork (.testMarchAbort dt ap pos) p
    (w.mem.march.running = true → exec (.testMarchAbort dt ap pos) s =
      .next ((w.onMarch (fun m => { m with aborting := true })).done p 0 none none none)) ∧
    (w.mem.march.running = false → exec (.testMarchAbort dt ap pos) s = .next ((w.marchStatus stStateConflict).refuse p stStateConflict))) ∧
  (∀ (s : State) (mode first last : Nat) (target : Bool),
    let units := (List.range (last + 1 - first)).map (· + first)
    (s.mem.march.running = true → s.marchRefusal mode target first last = some stStateConflict) ∧
    (s.mem.march.running = false →
      (target = false → mode = 0 → s.marchRefusal mode target first last = none) ∧
      (target = false → mode = 1 → (∃ a ∈ units, s.mayDestroy a = false) → s.marchRefusal mode target first last = some stStateConflict) ∧
      (target = false → mode = 1 → (∀ a ∈ units, s.mayDestroy a = true) → s.marchRefusal mode target first last = none) ∧
      (target = true → mode = 1 → (∃ b ∈ units, b ∉ s.spares) → s.marchRefusal mode target first last = some stStateConflict) ∧
      (target = true → mode = 0 → (∃ b ∈ units, (s.logical b).isSome = true) → s.spares = [] →
        s.marchRefusal mode target first last = some stNoSpace) ∧
      (target = false → mode = 0 → ∀ pkt, (s.beginMarch pkt 0 false first last).mem.march.pos = (units.take 8).map (fun a => (a, 0)) ∧
        (s.beginMarch pkt 0 false first last).mem.march.running = true ∧ (s.beginMarch pkt 0 false first last).mem.march.pkt = pkt) ∧
      (target = false → mode = 1 → ∀ pkt, (s.beginMarch pkt 1 false first last).mem.noAlloc = units ∧
        (s.beginMarch pkt 1 false first last).mem.march.waiting = units.filter (fun a => decide (32 ≤ a)) ∧
        (s.beginMarch pkt 1 false first last).mem.march.running = true))) ∧
  (∀ (dt first last : Nat) (target : Bool) (s : State), let b := s.elapse dt
    b.start.phase = .run → ∀ arg : Nat → Nat, arg = (fun mode => mode + (if target then 4 else 0) + first * 2 ^ 4 + last * 2 ^ 11) →
      (marchForm (arg 0) = false → exec (.marchCtlPreserving dt target first last) s = .next (b.marchStatus stBadPacket)) ∧
      (marchForm (arg 0) = true → (∀ st, b.marchRefusal 0 target first last = some st →
          exec (.marchCtlPreserving dt target first last) s = .next (b.marchStatus st)) ∧
        (b.marchRefusal 0 target first last = none →
          exec (.marchCtlPreserving dt target first last) s = .next (b.beginMarch none 0 target first last))) ∧
      (marchForm (arg 1) = false → exec (.marchCtlDestructive dt target first last) s = .next (b.marchStatus stBadPacket)) ∧
      (marchForm (arg 1) = true → (∀ st, b.marchRefusal 1 target first last = some st →
          exec (.marchCtlDestructive dt target first last) s = .next (b.marchStatus st)) ∧
        (b.marchRefusal 1 target first last = none →
          exec (.marchCtlDestructive dt target first last) s = .next (b.beginMarch none 1 target first last))) ∧
      (marchForm (arg 2) = false → exec (.marchCtlAbort dt target first last) s = .next (b.marchStatus stBadPacket)) ∧
      (marchForm (arg 2) = true → b.mem.march.running = true → exec (.marchCtlAbort dt target first last) s =
        .next ((b.onMarch (fun m => { m with aborting := true })).marchStatus stOk)) ∧
      (marchForm (arg 2) = true → b.mem.march.running = false → exec (.marchCtlAbort dt target first last) s =
        .next (b.marchStatus stStateConflict))) ∧
  ∀ (dt array : Nat) (s : State), let b := s.elapse dt
    (b.start.phase = .run → array ∈ b.mem.march.waiting → b.arrayIdle array = true → exec (.destructiveMarchStart dt array) s =
      .next (b.onMarch (fun m => { m with waiting := m.waiting.filter (· != array) }))) ∧
    (array ∉ b.mem.march.waiting → exec (.destructiveMarchStart dt array) s = .next b ∧ exec (.destructiveMarchTimeout dt array) s = .next b) ∧
    (b.arrayIdle array = false ∨ b.start.phase ≠ .run → exec (.destructiveMarchStart dt array) s = .next b) ∧
    (array ∈ b.mem.march.waiting → b.mem.march.requested + 100000000 ≤ b.aon.time →
      exec (.destructiveMarchTimeout dt array) s = .next (b.failMarch stStateConflict)) ∧
    (b.aon.time < b.mem.march.requested + 100000000 → exec (.destructiveMarchTimeout dt array) s = .next b)

/-- MARCH_BORROW of a preserving march takes the array's next row: tested, it counts, its fails are recorded and repaired, and those in spare columns are
kept; yielded, it counts a yield and is put off; not borrowed, it is put off; without a row to borrow, or outside RUN, nothing happens. MARCH_END with
no march running, while the Sill core is down, or outside RUN, does nothing. Of a preserving march of arrays it ends one whose rows are done, and an
aborted one with the rows left as untested; of a destructive one, one that waits for no array, recording its fails; of CAM banks it ends the bank
under test once no bank is being reloaded. A march that ends is no longer running, returns its arrays, and completes its packet with rows, fails and
spares, yields and untested rows. repair_bank, where it answers, covers every failing cell with no more rows and columns than the working spares it
was given. PATROL_SCRUB of an array in service moves to the next word, and another master's read finds what it tells in its own word: a clean word
costs nothing else; a corrected one is counted, and its cell recorded when it recurs; an uncorrectable one is counted and raises the cause, and,
unless a write covers it, costs what R384 says. PAGE_RETIRE of a page beyond KV_COUNT does nothing; of any other it is RETIRED, its streams and prefix
records go. -/
def Obligations.RowsMarched : Prop :=
  (∀ (dt array : Nat) (s : State), let b := s.elapse dt
    (b.start.phase ≠ .run ∨ b.mem.march.running = false ∨ b.mem.march.target ≠ 0 ∨ b.mem.march.mode ≠ 0 ∨ b.mem.march.aborting = true ∨
      b.mem.march.nextRow array = none → ∀ f, exec (.marchBorrow dt array f) s = .next b) ∧
    (b.start.phase = .run → b.mem.march.running = true → b.mem.march.target = 0 → b.mem.march.mode = 0 → b.mem.march.aborting = false →
      ∀ row m k, b.mem.march.nextRow array = some row → b.mem.march.take array row = (m, k) →
        (∀ fails mine, mine = fails.filter (fun c => c.bank == row % 64 && c.row == row / 64) → exec (.marchBorrow dt array (.tested fails)) s =
          .next ((((b.noteSpares (mine.map (fun c => (array, c)))).onMarch (fun _ => { m with rows := m.rows + 1 })).rowFails array
            (mine.filter (fun c => decide (c.column < 576)))).onMarch (March.settle array))) ∧
        exec (.marchBorrow dt array .yielded) s = .next (b.onMarch (fun _ => ({ m with yields := m.yields + 1 }.putOff array row k).settle array)) ∧
        exec (.marchBorrow dt array .notBorrowed) s = .next (b.onMarch (fun _ => (m.putOff array row k).settle array)))) ∧
  (∀ (dt : Nat) (fails : List (Nat × Cell)) (s : State), let b := s.elapse dt
    (b.start.phase ≠ .run ∨ b.mem.march.running = false ∨ b.mem.sillHalted = true → exec (.marchEnd dt fails) s = .next b) ∧
    (b.start.phase = .run → b.mem.march.running = true → b.mem.sillHalted = false → b.mem.march.target = 0 → b.mem.march.mode = 1 →
      (b.mem.march.waiting = [] ∨ b.mem.march.aborting = true → exec (.marchEnd dt fails) s = .next (b.endDestructive fails)) ∧
      (b.mem.march.waiting ≠ [] → b.mem.march.aborting = false → exec (.marchEnd dt fails) s = .next b)) ∧
    (b.start.phase = .run → b.mem.march.running = true → b.mem.sillHalted = false → b.mem.march.target = 1 →
      (b.mem.march.camBank = none → exec (.marchEnd dt fails) s = .next b.endMarch) ∧
      ∀ bank, b.mem.march.camBank = some bank →
        ((∃ n ∈ b.ber.reloading, n < 32) → b.mem.march.aborting = false → exec (.marchEnd dt fails) s = .next b) ∧
        ((∀ n ∈ b.ber.reloading, 32 ≤ n) ∨ b.mem.march.aborting = true → exec (.marchEnd dt fails) s = .next (b.endCam bank fails))) ∧
    (b.start.phase = .run → b.mem.march.running = true → b.mem.sillHalted = false → b.mem.march.target = 0 → b.mem.march.mode = 0 →
      (b.mem.march.aborting = true → exec (.marchEnd dt fails) s =
        .next ((b.onMarch (fun m => { m with untested := m.untested + b.mem.march.rowsLeft })).endMarch)) ∧
      (b.mem.march.aborting = false → b.mem.march.pos = [] → exec (.marchEnd dt fails) s = .next b.endMarch) ∧
      (b.mem.march.aborting = false → b.mem.march.pos ≠ [] → exec (.marchEnd dt fails) s = .next b))) ∧
  (∀ s : State, let u := (s.onMarch (fun m => { m with running := false, byReg := false, waiting := [], pos := [], skipped := [], aborting := false, camBank := none, pkt := none, lastStatus := stOk })).onMem (fun g => { g with noAlloc := [] })
    let m := s.mem.march
    (m.pkt = none → s.endMarch = u) ∧
    ∀ p, m.pkt = some p → s.endMarch = u.done p 0 (some m.rows) (some (m.fails + m.spares * 2 ^ 32)) (some (m.yields + m.untested * 2 ^ 32))) ∧
  (∀ (workRows workCols : Nat) (fails : List Cell) (a : Spared), repairBank workRows workCols fails = some a →
    (∀ c ∈ fails, c.row ∈ a.rows ∨ c.column ∈ a.cols) ∧ a.rows.length ≤ workRows ∧ a.cols.length ≤ workCols) ∧
  (∀ (dt array : Nat) (read : Option Nat) (s : State), let b := s.elapse dt
    (b.serving = false ∨ array ∈ b.mem.withdrawn → ∀ found, exec (.patrolScrub dt array ⟨found, read⟩) s = .next b) ∧
    (b.serving = true → array < 88 → array ∉ b.mem.withdrawn → ∀ w, w = read.getD (b.mem.patrolPos.getD array 0) →
      (∀ n, read = some n → n < 524288) →
      ∀ u, u = (if read = none then b.onMem (fun m => { m with patrolPos := modifyAt m.patrolPos array (fun p => (p + 1) % 524288) }) else b) →
        ∀ ue, ue = ((u.onCnt array (fun c => { c with ue := satInc 16 c.ue, lastUe := true, bank := w % 64, row := w / 512, bit := 0x7F })).raise
          cMemUncorr) →
        exec (.patrolScrub dt array ⟨.clean, read⟩) s = .next u ∧
        (∀ bit, bit < 72 → ∀ ce, ce = u.onCnt array (fun c => { c with ce := satInc 16 c.ce, lastUe := false, bank := w % 64, row := w / 512, bit := bit }) →
          exec (.patrolScrub dt array ⟨.corrected bit false, read⟩) s = .next ce ∧
          exec (.patrolScrub dt array ⟨.corrected bit true, read⟩) s =
            .next (ce.cellFails false array { bank := w % 64, row := w / 512, column := w / 64 % 8 * 72 + bit }).1) ∧
        exec (.patrolScrub dt array ⟨.merged, read⟩) s = .next ue ∧
        ∀ owner, exec (.patrolScrub dt array ⟨.uncorrectable owner, read⟩) s = .next (ue.loseWord array w owner))) ∧
  ∀ (dt page : Nat) (s : State), let b := s.elapse dt
    (b.serving = false ∨ b.start.stackMap.kvCount ≤ page → exec (.pageRetire dt page) s = .next b) ∧
    (b.serving = true → page < b.start.stackMap.kvCount → exec (.pageRetire dt page) s =
      .next (((b.slotsWith (fun t => t.kv.contains page || (b.prefixPages t).contains page)).foldl (fun s n => s.cancelLater n)
        ((b.onSto (fun g => { g with ledger := ledgerSet g.ledger ⟨page, .retired, none⟩ })).locFails (pageLoc page))).dropRecords
          ((b.sto.pfx.filter (fun r => r.pages.contains page)).map (·.num))))

/-- UNIT_FAULT of a unit that is in service on a running block: a shared unit counts the fault, leaves service, has its work repeated elsewhere, and a
SUSPECT one is PERMANENT at once while any other is tested; a Beryl bank counts it and is replaced; the Sill core halts. Of a unit out of service, or
one that is not there, nothing happens. LOCKSTEP_MISMATCH in RUN counts the fault, halts the core with the packet it had in progress noted and a march
running aborted, and loses the block when the core is SUSPECT. SILL_RESUME of a halted core that passed empties the event queue, makes the core
SUSPECT, raises the cause and writes READY with ARG2 1; one that failed makes it PERMANENT and loses the block. HISTORY_WRITEBACK sends the PERMANENT
changes, and every change once 300 s have gone by; with none to send nothing happens. -/
def Obligations.UnitsFail : Prop :=
  (∀ (dt kind inst : Nat) (w : FaultWork) (s : State), let b := s.elapse dt
    (b.serving = false ∨ b.start.down = true ∨ b.unit? kind inst = none → exec (.unitFault dt kind inst w) s = .next b) ∧
    (b.runs → ∀ u, b.unit? kind inst = some u →
      (u.inService = false → exec (.unitFault dt kind inst w) s = .next b) ∧
      (u.inService = true →
        (kind = 6 → exec (.unitFault dt kind inst w) s = .next b.lockstep) ∧
        (kind = 4 → exec (.unitFault dt kind inst w) s =
          .next ((b.onUnit 4 inst (fun u => { u with faults := satInc 16 u.faults })).failBank inst)) ∧
        (kind ≠ 4 → kind ≠ 6 → ∀ v, v = (((b.onUnit u.kind u.inst (fun u => { u with faults := satInc 16 u.faults, work := w })).withdraw u.kind u.inst
              false).repeatWork u.kind u.inst w).runFault u.kind u.inst w →
          (u.cls = 1 → exec (.unitFault dt kind inst w) s = .next (v.makePermanent u.kind u.inst)) ∧
          (u.cls ≠ 1 → exec (.unitFault dt kind inst w) s = .next (v.onUnit u.kind u.inst (fun u => { u with testing := 3 }))))))) ∧
  (∀ (dt : Nat) (s : State), let b := s.elapse dt
    (b.start.phase ≠ .run ∨ b.mem.sillHalted = true ∨ b.start.down = true → exec (.lockstepMismatch dt) s = .next b) ∧
    (b.start.phase = .run → b.mem.sillHalted = false → b.start.down = false →
      ∀ v, v = (b.onUnit 6 0 (fun u => { u with faults := satInc 16 u.faults })).onMem (fun m => { m with
          sillHalted := true, journal := b.ing.staged.find? Pkt.firmware, march := { m.march with aborting := m.march.running } }) →
        ∀ u, v.unit? 6 0 = some u →
          (u.cls = 1 → exec (.lockstepMismatch dt) s = .next ((v.makePermanent 6 0).blockDown)) ∧
          (u.cls ≠ 1 → exec (.lockstepMismatch dt) s = .next v)) ∧
    (∀ passed, b.mem.sillHalted = false ∨ b.start.down = true → exec (.sillResume dt passed) s = .next b) ∧
    (b.mem.sillHalted = true → b.start.down = false →
      exec (.sillResume dt false) s = .next ((b.makePermanent 6 0).blockDown) ∧
      ∀ v, v = ((((b.onMem (fun m => { m with sillHalted := false, evQueue := 0 })).onUnit 6 0 (fun u => { u with transients := satInc 32 u.transients })).makeSuspect 6 0)) →
        exec (.sillResume dt true) s = .next ((v.raise cLockstep).event evReady v.img.gen v.img.frame.personality 1))) ∧
  ∀ (dt : Nat) (s : State), let b := s.elapse dt
    ∀ all, all = decide (b.mem.lastWriteback + 300000000000 ≤ b.aon.time) →
    ∀ cls : Nat → Nat, cls = (fun i => ((b.mem.units[i]?).map (·.cls)).getD 0) →
    ∀ us, us = b.mem.unwrittenUnits.filter (fun i => all || cls i == 2) →
    ∀ ls, ls = b.mem.unwrittenLocs.filter (fun l => all || l.cls == 2) →
      (b.serving = false ∨ us = [] ∧ ls = [] → exec (.historyWriteback dt) s = .next b) ∧
      (b.serving = true → us ≠ [] ∨ ls ≠ [] → exec (.historyWriteback dt) s = .next ((b.onMem (fun m => { m with
        unwrittenUnits := m.unwrittenUnits.filter (fun i => !us.contains i), unwrittenLocs := m.unwrittenLocs.filter (fun l => !ls.contains l), lastWriteback := if all then b.aon.time else m.lastWriteback })).emit
        (.historyWrite (us.map (fun i => (i, cls i))) ls)))

/-- A due test.lane of a unit that is not there is refused with BAD_PACKET; of one under test, or whose class does not fit REQUALIFY, with STATE_CONFLICT;
else the unit leaves service and its test is asked for; rows not begun on a facet go to others. INFIELD_TEST_DUE of a unit that was withdrawn for a
test begins it once the unit holds no work item; of a unit in service it begins the test unless another unit of the kind is under test or R468 defers
it, which is noted; on a kind without a test nothing happens. INFIELD_TEST_DONE of a unit under test that holds no work item: a failing unit is
PERMANENT; a passing one returns to service, SUSPECT after a fault whose result agreed or when requalified; a requested test completes its packet.
SUSPECT_AGE_EXPIRY after 86,400 s of service returns a SUSPECT unit to GOOD; earlier nothing happens. -/
def Obligations.UnitsTested : Prop :=
  (∀ (dt ap pos : Nat) (s : State) (p : Pkt), s.due (.testLane dt ap pos) p →
    let w := s.atWork (.testLane dt ap pos) p
    let kind := bits p.arg 2 0
    let inst := bits p.arg 13 8
    (w.unit? kind inst = none → exec (.testLane dt ap pos) s = .next (w.refuse p stBadPacket)) ∧
    ∀ u, w.unit? kind inst = some u →
      (u.testing ≠ 0 ∨ (u.cls = 2 ↔ p.arg.testBit 16 = false) → exec (.testLane dt ap pos) s = .next (w.refuse p stStateConflict)) ∧
      (u.testing = 0 → (u.cls = 2 ↔ p.arg.testBit 16 = true) → ∀ v, v = (if u.inService then w.withdraw kind inst true else w).onUnit kind inst (fun u => { u with
          testing := 2, testAsked := w.aon.time, testPkt := some p, testStart := if w.unitHolds kind inst then none else some w.aon.time, due := none }) →
        exec (.testLane dt ap pos) s = .next (if kind = 3 then v.moveRows inst true else v))) ∧
  (∀ (dt kind inst : Nat) (s : State), let b := s.elapse dt
    (kind ∉ testedKinds ∨ b.unit? kind inst = none → exec (.infieldTestDue dt kind inst) s = .next b) ∧
    (b.runs → kind ∈ testedKinds → ∀ u, b.unit? kind inst = some u →
      (u.testing = 1 ∨ u.testing = 2 →
        (b.unitHolds kind inst = true → exec (.infieldTestDue dt kind inst) s = .next b) ∧
        (b.unitHolds kind inst = false → exec (.infieldTestDue dt kind inst) s =
          .next (b.onUnit kind inst (fun u => { u with testStart := some (u.testStart.getD b.aon.time) })))) ∧
      (u.testing ≠ 1 → u.testing ≠ 2 → u.testing ≠ 0 ∨ u.inService = false → exec (.infieldTestDue dt kind inst) s = .next b) ∧
      (u.testing = 0 → u.inService = true → ∀ since, since = u.due.getD b.aon.time →
        let wait := (∃ x ∈ b.mem.units, x.kind = kind ∧ x.testing ≠ 0) ∨ b.deferTest kind inst = true ∧ b.aon.time < since + 600000000000
        (wait → exec (.infieldTestDue dt kind inst) s = .next (b.onUnit kind inst (fun u => { u with due := some since }))) ∧
        (¬wait → ∀ v, v = (b.withdraw kind inst true).onUnit kind inst (fun u => { u with
            testing := 1, testStart := if b.unitHolds kind inst then none else some b.aon.time, due := none }) →
          exec (.infieldTestDue dt kind inst) s = .next (if kind = 3 then v.moveRows inst true else v))))) ∧
  (∀ (dt kind inst : Nat) (passed agreed : Bool) (s : State), let b := s.elapse dt
    (b.unit? kind inst = none ∨ b.serving = false ∨
        (∃ u, b.unit? kind inst = some u ∧ u.testing ≠ 3 ∧ b.unitHolds kind inst = true) → exec (.infieldTestDone dt kind inst passed agreed) s = .next b) ∧
    (b.serving = true → ∀ u, b.unit? kind inst = some u → u.kind = kind → u.inst = inst →
      (u.testing = 0 → exec (.infieldTestDone dt kind inst passed agreed) s = .next b) ∧
      (u.testing = 3 → passed = false → exec (.infieldTestDone dt kind inst passed agreed) s = .next (b.makePermanent kind inst)) ∧
      (u.testing = 1 ∨ u.testing = 2 → b.unitHolds kind inst = false → passed = false → exec (.infieldTestDone dt kind inst passed agreed) s =
        .next ((b.makePermanent kind inst).testDone u false)) ∧
      (passed = true → ∀ v, v = (b.onUnit kind inst (fun u => { u with tests := satInc 32 u.tests })).noteUnit (unitIndex kind inst) →
        (u.testing = 3 → agreed = true → ∀ x, x = ((v.onUnit kind inst (fun u => { u with
            transients := satInc 32 u.transients })).makeSuspect kind inst).restore kind inst false →
          exec (.infieldTestDone dt kind inst passed agreed) s = .next (if kind = 3 then x.moveRows inst false else x)) ∧
        (u.testing = 3 → agreed = false → exec (.infieldTestDone dt kind inst passed agreed) s = .next (v.makePermanent kind inst)) ∧
        (u.testing = 1 ∨ u.testing = 2 → b.unitHolds kind inst = false → exec (.infieldTestDone dt kind inst passed agreed) s =
          .next (((if u.cls = 2 then v.makeSuspect kind inst else v).restore kind inst true).testDone u true))))) ∧
  ∀ (dt kind inst : Nat) (s : State), let b := s.elapse dt
    (b.unit? kind inst = none → exec (.suspectAgeExpiry dt kind inst) s = .next b) ∧
    ∀ u, b.unit? kind inst = some u →
      (u.cls = 1 → 86400 ≤ u.age + (b.aon.time - u.suspectSince) / 1000000000 → exec (.suspectAgeExpiry dt kind inst) s =
        .next ((b.onUnit kind inst (fun u => { u with cls := 0, age := 0 })).noteUnit (unitIndex kind inst))) ∧
      (u.cls ≠ 1 ∨ u.age + (b.aon.time - u.suspectSince) / 1000000000 < 86400 → exec (.suspectAgeExpiry dt kind inst) s = .next b)

/-- A BERYL_SEARCH of a block in RUN, after what waited has gone on and soft errors have flipped cells of the arrays, is held while a selected bank is
being reloaded, or on a prefix-handle channel across a three-step window, and is else carried out; what need wait no longer then goes on. The banks of
another use than the channel's, or of another width than the key's, are left out and counted. The winner has the highest PRIO, of equals in the lowest
bank; MULTI says that more than one entry matched; no match is a miss. A matching entry is not the excluded one and its rows match. A hit that the
shadow confirms is the result. Where a shadow word of the winner is uncorrectable, it is rewritten from the array if the rest confirms the hit, else
the entry is removed and restored from its source, and the search is a miss. A false hit is counted, rewritten and searched once more with RETRIED; a
second one at the same place fails the bank and holds the search. CAM_DBG_SEARCH searches with the debug registers on channel 28, keeps the record and
waits as any search does; CAM_DBG_READ_ROW keeps the row and its shadow word once the row port is free; both set DONE, and do nothing in an isolated
block or while one is busy. -/
def Obligations.BerylSearches : Prop :=
  (∀ (dt : Nat) (req : SearchReq) (found : SearchFound) (s : State), let b := s.elapse dt
    (b.start.phase ≠ .run → exec (.berylSearch dt ⟨req, found⟩) s = .next b) ∧
    (b.start.phase = .run → ∀ t, t = b.drainBeryl.upset found.upsets → ∀ wait : Prop,
      (wait ↔ ∃ n ∈ bitList 32 req.select, n ∈ t.ber.reloading ∨
        ((16 ≤ req.channel ∧ req.channel < 20 ∨ 24 ≤ req.channel ∧ req.channel < 28) ∧ ∃ w ∈ t.ber.windows, w.bank = n)) →
      (wait → exec (.berylSearch dt ⟨req, found⟩) s =
        .next (t.onBer (fun g => { g with heldSearch := g.heldSearch ++ [⟨req, false⟩] }))) ∧
      (¬wait → exec (.berylSearch dt ⟨req, found⟩) s =
        .next (t.search ⟨req, false⟩ false found.badWord found.stuck).drainBeryl))) ∧
  (∀ (b : State) (q : HeldReq) (held stuck : Bool) (bad : Option Nat) (fits : Nat → Bool),
    fits = (fun n => (channelUses q.req.channel).contains (b.bankUse n) && b.bankWidth n == q.req.kw) →
    ∀ banks, banks = (bitList 32 q.req.select).filter fits →
    ∀ c, c = (((bitList 32 q.req.select).filter (fun n => !fits n)).foldl (fun s n => s.logicalCount n 3 1) b).useSlots banks q.req.channel 1 →
      banks.Pairwise (· < ·) ∧
      ((c.resolve q.req banks).1 = none →
        b.search q held bad stuck = c.putResult q.req.channel (c.resultOf none false q.retried held)) ∧
      ∀ n e multi, c.resolve q.req banks = (some (n, e), multi) →
        (∀ u p, bad = some u → u < c.bankWidth n → c.physical n = some p →
          (c.verifiedBut q.req n e u = true → ∀ d, d = (c.onBer (fun g => { g with
              shadow := rowSet g.shadow n (c.bankWidth n * e + u) (rowAt c.ber.rows p (c.bankWidth n * e + u)) })).logicalCount n 6 1 →
            b.search q held bad stuck = d.putResult q.req.channel (d.resultOf (some (n, e)) multi q.retried held)) ∧
          (c.verifiedBut q.req n e u = false → ∀ d, d = (c.logicalCount n 4 1).distrust n e →
            b.search q held bad stuck = d.putResult q.req.channel (d.resultOf none false q.retried held))) ∧
        ((∀ u, bad = some u → c.bankWidth n ≤ u) →
          (c.verified q.req n e = true →
            b.search q held bad stuck = c.putResult q.req.channel (c.resultOf (some (n, e)) multi q.retried held)) ∧
          (c.verified q.req n e = false →
            ∀ d, d = ((if stuck = true then c.logicalCount n 4 1 else (c.logicalCount n 4 1).rewriteEntry n e).useSlots banks q.req.channel 1) →
              ((d.resolve q.req banks).1 = none → b.search q held bad stuck = d.putResult q.req.channel (d.resultOf none false true held)) ∧
              ∀ m f multi2, d.resolve q.req banks = (some (m, f), multi2) →
                (d.verified q.req m f = true →
                  b.search q held bad stuck = d.putResult q.req.channel (d.resultOf (some (m, f)) multi2 true held)) ∧
                (d.verified q.req m f = false → m = n → f = e → ∀ x, (d.logicalCount m 4 1).physical n = some x →
                  b.search q held bad stuck = ((d.logicalCount m 4 1).onBer (fun g => { g with
                    heldSearch := g.heldSearch ++ [⟨q.req, true⟩] })).failBank x)))) ∧
  (∀ (s : State) (req : SearchReq) (banks : List Nat) (prio : Nat → Nat → Nat), banks.Pairwise (· < ·) →
    prio = (fun n e => ((s.physical n).map (fun p => bits (rowAt s.ber.rows p (s.bankWidth n * e)) 111 96)).getD 0) →
      ((∀ n ∈ banks, s.matching n req = []) → s.resolve req banks = (none, false)) ∧
      ((s.resolve req banks).1 = none → ∀ n ∈ banks, s.matching n req = []) ∧
      (∀ n e, (s.resolve req banks).1 = some (n, e) → n ∈ banks ∧ (s.matching n req).head? = some e ∧
        ∀ m ∈ banks, ∀ f, (s.matching m req).head? = some f → prio m f < prio n e ∨ prio m f = prio n e ∧ n ≤ m) ∧
      ((s.resolve req banks).2 = true ↔ 2 ≤ (banks.map (fun n => (s.matching n req).length)).sum) ∧
      ∀ n p e, s.physical n = some p → e ∈ s.matching n req →
        (n, e) ∉ s.ber.excluded ∧ matchesRows (fun u => rowAt s.ber.rows p (s.bankWidth n * e + u)) req = true) ∧
  ∀ (dt : Nat) (s : State), let b := (s.elapse dt).wakeCause
    (b.isolated = true ∨ b.ber.dbgBusy = true → exec (.camDbgSearch dt) s = .next b ∧ exec (.camDbgReadRow dt) s = .next b) ∧
    (b.isolated = false → b.ber.dbgBusy = false →
      (b.searchWaits b.ber.dbgReq = true → exec (.camDbgSearch dt) s = .next (b.onBer (fun g => { g with
        dbgBusy := true, dbgDone := false, heldSearch := g.heldSearch ++ [⟨b.ber.dbgReq, false⟩] }))) ∧
      (b.searchWaits b.ber.dbgReq = false → exec (.camDbgSearch dt) s = .next (b.search ⟨b.ber.dbgReq, false⟩ false none false)) ∧
      (∀ (t : State) r, (t.putResult 28 r).ber.dbgRes = r ∧ (t.putResult 28 r).ber.dbgDone = true ∧ (t.putResult 28 r).ber.dbgBusy = false) ∧
      ∀ bank row, bank = bits b.ber.dbgRowSel.toNat 21 16 → row = bits b.ber.dbgRowSel.toNat 12 0 →
        (∀ n, b.logical bank = some n → b.bankBusy n = true → exec (.camDbgReadRow dt) s = .next (b.onBer (fun g => { g with
          dbgBusy := true, dbgDone := false, dbgWaitRow := true }))) ∧
        ∀ shadow, (∀ n, b.logical bank = some n → b.bankBusy n = false ∧ shadow = b.shadowRow n row) → (b.logical bank = none → shadow = 0) →
          exec (.camDbgReadRow dt) s = .next (b.onBer (fun g => { g with
            dbgBusy := false, dbgWaitRow := false,
            dbgDone := true, dbgRow := BitVec.ofNat 128 (rowAt g.rows bank row), dbgShadow := BitVec.ofNat 128 shadow })))

/-- SLOT_STEALING_UPDATE of a block in RUN, from a channel that may update the bank's use, waits while the bank is busy or others wait before it, waits
beyond 16 stolen slots of the window, counted as a cap wait, and is else carried out; from another channel nothing happens. THREE_STEP_UPDATE does all
its steps, without the cap, or opens its window, which its next commands step through: all rows are written with VALID clear, then the entry is
validated; one that finds the bank busy or another's window waits. A removal clears its entry, an insert without a move writes its hole and a change
the entry in its place, each taking a slot when it steals; an insert that needs a move begins it with its excluded entry. The place of an insert is
its target index when that is free; else the occupied run from there to the next free entry moves down, or, when it has fewer entries, the run below
the target moves up; without a free entry there is no place. BERYL_MOVE_DONE moves the run and excludes the hole until the final write, which ends the
move; what waits then goes on in order, as far as the bank and the cap allow. COMPACTOR leaves a busy bank and a bank without a hole below a valid
entry as they are, else moves a run up by one and clears its last source. -/
def Obligations.BerylUpdates : Prop :=
  (∀ (dt channel bank : Nat) (update : BerylUpdate) (s : State), let b := s.elapse dt
    (b.start.phase ≠ .run → exec (.slotStealingUpdate dt channel bank update) s = .next b ∧
      ∀ whole, exec (.threeStepUpdate dt channel bank ⟨update, whole⟩) s = .next b) ∧
    (b.start.phase = .run → ∀ t, t = b.drainBeryl → ∀ busy : Prop, (busy ↔ t.bankBusy bank = true ∨ ∃ u ∈ t.ber.heldUpdate, u.bank = bank) →
      ∀ held : Bool → State → State, held = (fun capped u => u.onBer (fun g => { g with heldUpdate := g.heldUpdate ++ [⟨channel, bank, update, capped⟩] })) →
      (b.bankUse bank ∉ stealUses channel update → exec (.slotStealingUpdate dt channel bank update) s = .next t) ∧
      (b.bankUse bank ∈ stealUses channel update →
        (busy → exec (.slotStealingUpdate dt channel bank update) s = .next (held false t)) ∧
        (¬busy → 16 ≤ t.stolen bank → exec (.slotStealingUpdate dt channel bank update) s = .next (held true (t.logicalCount bank 2 1))) ∧
        (¬busy → t.stolen bank < 16 → exec (.slotStealingUpdate dt channel bank update) s = .next (t.update channel bank update))) ∧
      (∀ whole, t.bankUse bank ∉ stepUses channel → exec (.threeStepUpdate dt channel bank ⟨update, whole⟩) s = .next t) ∧
      (t.bankUse bank ∈ stepUses channel →
        (t.ber.windows.find? (fun w => w.bank == bank) = none →
          (∀ whole, busy → exec (.threeStepUpdate dt channel bank ⟨update, whole⟩) s = .next (held false t)) ∧
          (¬busy → exec (.threeStepUpdate dt channel bank ⟨update, true⟩) s = .next (t.update channel bank update) ∧
            exec (.threeStepUpdate dt channel bank ⟨update, false⟩) s = .next (t.openWindow channel bank update))) ∧
        ∀ w, t.ber.windows.find? (fun w => w.bank == bank) = some w →
          (∀ whole, w.channel ≠ channel ∨ w.update ≠ update ∨ bank ∈ t.ber.reloading →
            exec (.threeStepUpdate dt channel bank ⟨update, whole⟩) s = .next (held false t)) ∧
          (w.channel = channel → w.update = update → bank ∉ t.ber.reloading →
            exec (.threeStepUpdate dt channel bank ⟨update, false⟩) s = .next (t.stepWindow w).drainBeryl ∧
            exec (.threeStepUpdate dt channel bank ⟨update, true⟩) s =
              .next (if w.wrote = true then t.stepWindow w else (t.stepWindow w).stepWindow { w with wrote := true }).drainBeryl)))) ∧
  (∀ (b : State) (c n : Nat) (slot : State → State), slot = (fun t => if c < 30 then t.steal n else t) →
    (∀ key tag i, b.findEntry n key tag = some i → b.update c n (.remove key tag) = slot (b.clearEntry n i)) ∧
    (∀ key tag i e, b.findEntry n key tag = some i → e.prio = (b.entryAt n i).prio → b.update c n (.change key tag e) = b.writeEntry n i e ∧
      b.openWindow c n (.change key tag e) = (b.clearEntry n i).onBer (fun g => { g with
        windows := g.windows ++ [⟨n, c, .change key tag e, i, e, false⟩] })) ∧
    (∀ e0 e, e = (if c < 30 then { e0 with matchEn := true } else e0) →
      (placeOf (b.validEntries n) (b.capacity n) e.prio = none → b.update c n (.insert e0) = b) ∧
      (∀ hole, placeOf (b.validEntries n) (b.capacity n) e.prio = some ⟨hole, none⟩ →
        b.update c n (.insert e0) = slot (b.writeEntry n hole e) ∧
        b.openWindow c n (.insert e0) = (b.clearEntry n hole).onBer (fun g => { g with windows := g.windows ++ [⟨n, c, .insert e0, hole, e0, false⟩] })) ∧
      ∀ hole lo hi d, placeOf (b.validEntries n) (b.capacity n) e.prio = some ⟨hole, some (lo, hi, d)⟩ →
        b.update c n (.insert e0) = b.onBer (fun g => { g with
          moves := g.moves ++ [{ bank := n, lo := lo, hi := hi, down := d, hole := hole, channel := c, entry := e }]
          excluded := g.excluded ++ [(n, if d then hi + 1 else lo - 1)] })) ∧
    ∀ w : StepWin, w.bank = n → ∀ k, k = b.bankWidth n →
      (w.wrote = false → b.stepWindow w = ((List.range k).reverse.foldl (fun t u => t.writeRow n (k * w.index + u) (entryRow w.entry false u)) b).onBer
        (fun g => { g with windows := g.windows.map (fun x => if x.bank == n then { x with wrote := true } else x) })) ∧
      (w.wrote = true → b.stepWindow w = (b.writeRow n (k * w.index) (entryRow w.entry true 0)).onBer
        (fun g => { g with windows := g.windows.filter (fun x => x.bank != n) }))) ∧
  (∀ (es : List (Nat × Nat)) (c p : Nat), let full := fun i => ∃ e ∈ es, e.1 = i
    (placeOf es c p = none → ∀ i < c, full i) ∧
    (∀ hole, placeOf es c p = some ⟨hole, none⟩ → hole = targetIndex es p ∧ hole < c ∧ ¬full hole) ∧
    (∀ hole lo hi, placeOf es c p = some ⟨hole, some (lo, hi, true)⟩ → hole = targetIndex es p ∧ lo = hole ∧
      lo ≤ hi ∧ hi + 1 < c ∧ ¬full (hi + 1) ∧ ∀ i, lo ≤ i → i ≤ hi → full i) ∧
    (∀ hole lo hi, placeOf es c p = some ⟨hole, some (lo, hi, false)⟩ → hole + 1 = targetIndex es p ∧ hi = hole ∧ 1 ≤ lo ∧
      ¬full (lo - 1) ∧ ∀ i, lo ≤ i → i ≤ hi → full i)) ∧
  (∀ (dt bank : Nat) (s : State), let b := s.elapse dt
    (b.start.phase ≠ .run → exec (.berylMoveDone dt bank) s = .next b ∧ exec (.compactor dt bank) s = .next b) ∧
    (b.start.phase = .run →
      (b.ber.moves.find? (fun m => m.bank == bank && !m.ran) = none ∨ bank ∈ b.ber.reloading →
        exec (.berylMoveDone dt bank) s = .next b.drainBeryl) ∧
      (∀ m, b.ber.moves.find? (fun m => m.bank == bank && !m.ran) = some m → bank ∉ b.ber.reloading →
        exec (.berylMoveDone dt bank) s = .next ((b.moveRun bank m.lo m.hi m.down).onBer (fun g => { g with
          moves := g.moves.map (fun x => if x.bank == bank then { x with ran := true } else x)
          excluded := g.excluded.filter (fun x => x.1 != bank) ++ [(bank, m.hole)] })).drainBeryl) ∧
      ∀ t, t = b.drainBeryl →
        (t.bankBusy bank = true ∨ (∃ u ∈ t.ber.heldUpdate, u.bank = bank) → exec (.compactor dt bank) s = .next t) ∧
        (t.bankBusy bank = false → (∀ u ∈ t.ber.heldUpdate, u.bank ≠ bank) →
          ∀ es, es = t.validEntries bank → ∀ hole, hole = freeAbove es (es.length + 1) 0 →
            ((∀ e ∈ es, e.1 ≤ hole) → exec (.compactor dt bank) s = .next t) ∧
            ∀ e hi, es.find? (fun e => decide (hole < e.1)) = some e → hi + 1 = freeAbove es (es.length + 1) e.1 →
              exec (.compactor dt bank) s = .next ((t.moveRun bank e.1 hi false).clearEntry bank hi)))) ∧
  (∀ (b : State) (n k : Nat),
    (∀ m, b.ber.moves.find? (fun m => m.bank == n && m.ran) = some m → n ∉ b.ber.reloading → (m.channel < 30 → b.stolen n < 16) →
      ∀ t, t = (b.onBer (fun g => { g with moves := g.moves.filter (fun x => x.bank != n), excluded := g.excluded.filter (fun x => x.1 != n) })).writeEntry n m.hole m.entry →
      b.drainBank n (k + 1) = (if m.channel < 30 then t.steal n else t).drainBank n k) ∧
    (b.ber.moves.find? (fun m => m.bank == n && m.ran) = none → b.bankBusy n = false →
      ∀ u, b.ber.heldUpdate.find? (fun u => u.bank == n) = some u → (u.channel < 30 → b.stolen n < 16) →
        b.drainBank n (k + 1) = ((b.onBer (fun g => { g with heldUpdate := g.heldUpdate.erase u })).update u.channel n u.update).drainBank n k)) ∧
  ∀ (es : List (Nat × Nat)) (i : Nat), let f := freeAbove es (es.length + 1) i
    i ≤ f ∧ (∀ e ∈ es, e.1 ≠ f) ∧ ∀ j, i ≤ j → j < f → ∃ e ∈ es, e.1 = j

/-- CAM_SCRUB of a bank in use compares the next row, after soft errors have flipped cells, with its shadow: an equal row is only passed, a differing one
is rewritten, counted and recorded, with the cause raised for stop strings and literals, and a rewrite that does not hold fails the bank; a busy
bank's rows are left. A correction fills a free record and else counts in OVERRUN. BANK_RELOAD records the bank as failed; a bank that serves a
logical bank gives it to the first spare, whose reload begins; without a spare to a replacement, an unused bank or else the last prefix bank, whose
handles are dropped; without one a prefix bank becomes a dead position and any other bank's entries are scattered: into a bank of their use with room,
else kept as lost with the streams that name them cancelled at their next boundary. The CAPACITY record names the failed bank. A bank that failed
before changes nothing. BANK_RELOAD_DONE fills the bank from the shadow, counts, and lets what waits proceed. CAM_CORR_CLEAR frees the record, unless
hardware sets VALID in the same clock: then it stays and the lost clear is counted. -/
def Obligations.BanksReplaced : Prop :=
  (∀ (dt bank : Nat) (upsets : List Upset) (stuck : Bool) (s : State), let b := s.elapse dt
    (b.start.phase ≠ .run → exec (.camScrub dt ⟨bank, upsets, stuck⟩) s = .next b) ∧
    (b.start.phase = .run → ∀ t, t = b.drainBeryl.upset upsets →
      (t.logical bank = none → exec (.camScrub dt ⟨bank, upsets, stuck⟩) s = .next t) ∧
      ∀ n, t.logical bank = some n →
        (t.bankBusy n = true → exec (.camScrub dt ⟨bank, upsets, stuck⟩) s = .next t) ∧
        (t.bankBusy n = false → ∀ row, row = t.ber.scrubPos.getD bank 0 →
          ∀ pass : State → State, pass = (fun u => u.onBer (fun g => { g with
            scrubPos := modifyAt g.scrubPos bank (fun r => (r + 1) % 8192),
            lastPass := if row == 8191 then modifyAt g.lastPass bank (fun _ => u.aon.time) else g.lastPass })) →
          (rowAt t.ber.rows bank row = t.shadowRow n row → exec (.camScrub dt ⟨bank, upsets, stuck⟩) s = .next (pass t)) ∧
          (rowAt t.ber.rows bank row ≠ t.shadowRow n row →
            ∀ u, u = ((t.writeRow n row (t.shadowRow n row)).bankCount bank 5 1).recordCorrection bank row (t.bankUse n) (t.ber.lastPass.getD bank 0) →
            ∀ v, v = pass (if t.bankUse n = 2 ∨ t.bankUse n = 4 then u.raise cCamCorr else u) →
              exec (.camScrub dt ⟨bank, upsets, stuck⟩) s = .next (if stuck = true then v.failBank bank else v))))) ∧
  (∀ (b : State) (bank row use last : Nat),
    (b.ber.corrValid = true → b.recordCorrection bank row use last = b.onBer (fun g => { g with corrOver := satInc 6 g.corrOver })) ∧
    (b.ber.corrValid = false → b.recordCorrection bank row use last = b.onBer (fun g => { g with
      corrValid := true, corrUse := use, corrBank := bank, corrRow := row, cleanTime := last, fixTime := b.aon.time }))) ∧
  (∀ (dt bank : Nat) (s : State), let b := s.elapse dt
    (b.start.phase ≠ .run ∨ 34 ≤ bank ∨ bank ∈ b.ber.failed → exec (.bankReload dt bank) s = .next b) ∧
    (b.start.phase = .run → bank < 34 → bank ∉ b.ber.failed → exec (.bankReload dt bank) s =
      .next (b.drainBeryl.failBank bank).drainBeryl)) ∧
  (∀ (b : State) (bank : Nat),
    (b.logical bank = none → b.failBank bank = b.bankFailed bank) ∧
    ∀ n, b.logical bank = some n → ∀ t, t = (b.bankFailed bank).eventFull evCapacity 0 bank 4 1 0 →
      ∀ move : Nat → State → State, move = (fun q u => (u.mapEntry n (some q) 4).onBer (fun g => { g with
        map := modifyAt g.map n (fun _ => some q)
        reloading := if n ∈ g.reloading then g.reloading else g.reloading ++ [n]
        rows := g.rows.filter (fun r => r.bank != bank && r.bank != q) })) →
      (∀ q, t.spares.head? = some q → b.failBank bank = move q t) ∧
      (t.spares.head? = none →
        (∀ m, t.replacement n = some m → ∀ u, u = (if t.bankUse m = 1 then t.dropRecords (t.handlesIn m) else t) →
          b.failBank bank = move ((u.physical m).getD 0) (u.deadBank m)) ∧
        (t.replacement n = none →
          (t.bankUse n = 1 → b.failBank bank = (t.dropRecords (t.handlesIn n)).deadBank n) ∧
          (t.bankUse n ≠ 1 → b.failBank bank = (t.entriesOf n).foldl (fun u e => u.rehome (t.bankUse n) n e) ((t.deadBank n).raise cBerylLoss))))) ∧
  (∀ (b : State) (n : Nat),
    b.deadBank n = ((b.emptyBank n).mapEntry n none 4).onBer (fun g => { g with
      map := modifyAt g.map n (fun _ => none), reloading := g.reloading.filter (fun m => m != n), moves := g.moves.filter (fun m => m.bank != n),
      excluded := g.excluded.filter (fun x => x.1 != n), windows := g.windows.filter (fun w => w.bank != n),
      heldUpdate := g.heldUpdate.filter (fun u => u.bank != n) }) ∧
    ∀ (use : Nat) (e : BerylEntry) (home : Option Nat),
      home = (if use = 4 then b.literalBank else b.pickBank (candidates (b.useList use) e.key)) →
        (∀ m, home = some m → use ≠ 4 → b.rehome use n e = b.placeIn 30 m e) ∧
        (∀ m, home = some m → use = 4 → b.rehome use n e = (b.placeIn 30 m e).remapLiteral e.tag n m) ∧
        (home = none → b.rehome use n e = (b.onStr (fun g => { g with
          tab := g.tab.map (fun t => if b.namesEntry use e t then { t with cancelPending := true } else t) })).onBer (fun g => { g with
            lost := g.lost ++ [(use, e)] }))) ∧
  (∀ (b : State) (n : Nat),
    (∀ m, b.replacement n = some m → m < 32 ∧ m ≠ n ∧ (b.physical m).isSome = true ∧ (b.bankUse m = 0 ∨ b.bankUse m = 1 ∧ b.bankUse n ≠ 1 ∧
      (∀ k < 32, k ≠ n → b.bankUse k = 0 → b.physical k = none) ∧ ∀ k < 32, m < k → b.bankUse k = 1 → b.physical k = none)) ∧
    (b.replacement n = none → ∀ m < 32, m ≠ n → (b.physical m).isSome = true → b.bankUse m ≠ 0 ∧ (b.bankUse n ≠ 1 → b.bankUse m ≠ 1))) ∧
  (∀ (dt n : Nat) (s : State), let b := s.elapse dt
    (b.start.phase ≠ .run ∨ n ∉ b.ber.reloading → exec (.bankReloadDone dt n) s = .next b) ∧
    (b.start.phase = .run → n ∈ b.ber.reloading → ∀ p, b.physical n = some p → exec (.bankReloadDone dt n) s =
      .next ((b.onBer (fun g => { g with reloading := g.reloading.filter (· != n), rows := bankCopy g.rows g.shadow n p })).logicalCount n 9 1).drainBeryl)) ∧
  ∀ (dt : Nat) (s : State), let b := (s.elapse dt).wakeCause
    (∀ hardware, b.isolated = true → exec (.camCorrClear dt hardware) s = .next b) ∧
    (b.isolated = false → exec (.camCorrClear dt false) s = .next (b.onBer (fun g => { g with corrValid := false })) ∧
      exec (.camCorrClear dt true) s = .next ((b.onBer (fun g => { g with corrValid := true })).onAon (fun a => { a with
        lostSrc := 200, lostCount := satInc 16 a.lostCount })))

/-- COLD_START leaves isolation and WARM_START AON ONLY: the march's fails are kept, the request, Beryl and Sill domains lock, and the fault history is
asked for; at any other time they do nothing. MC_DELIVERY gives the step in progress what it waits for and else is only a wake cause. A bad history is
taken as empty with its cause. A repair that leaves a fixed pool short fails the step, which asks again; else the firmware is asked for. A stack map
is good exactly when its 64 bytes give counts and alignments in range and regions without overlap: a bad one fails with its cause, a good one leads to
the boot image. A bad boot image fails with its cause; a good one makes the block READY in RUN with a READY record of reason 0, and a block of a group
FORMING. -/
def Obligations.BlockStarts : Prop :=
  (∀ (dt : Nat) (fails : List (Nat × Cell)) (s : State), let b := s.elapse dt
    let good := fails.filter (fun x => if x.1 < 88 then decide (x.2.bank < 64) && decide (x.2.row < 1032) && decide (x.2.column < 580)
      else decide (x.1 < 122) && decide (x.2.row < 8200))
    (b.start.phase = .isolated ∨ b.start.phase = .starting ∧ b.start.step = 2 → exec (.coldStart dt fails) s = .next (b.beginStart false good)) ∧
    (b.start.phase ≠ .isolated → b.start.phase ≠ .starting ∨ b.start.step ≠ 2 → exec (.coldStart dt fails) s = .next b) ∧
    (b.start.phase = .aonOnly → exec (.warmStart dt fails) s = .next (b.beginStart true good)) ∧
    (b.start.phase ≠ .aonOnly → exec (.warmStart dt fails) s = .next b)) ∧
  (∀ (b : State) (warm : Bool) (fails : List (Nat × Cell)), let t := b.beginStart warm fails
    t.start.phase = .starting ∧ t.start.warm = warm ∧ t.start.step = 5 ∧ t.start.failed = false ∧ t.start.fails = fails ∧
    (∀ d, d < 7 → t.domain d = if d = 0 ∨ d = 5 ∨ d = 6 then .gated else .off) ∧
    t.aon.time = b.aon.time ∧ t.aon.stepCounter = b.aon.stepCounter ∧ t.aon.cause = b.aon.cause ∧ t.out = b.out ++ [.mcRequest 0]) ∧
  (∀ (dt : Nat) (bytes map : Bytes) (keys : List (Option (Nat × Nat))) (s : State), let b := s.elapse dt
    (b.start.phase ≠ .starting → ∀ d, exec (.mcDelivery dt d) s = .next b.wakeCause) ∧
    (b.start.phase = .starting →
      (b.start.step = 5 → exec (.mcDelivery dt (.history bytes)) s = .next (b.takeHistory bytes)) ∧
      (b.start.step = 7 → exec (.mcDelivery dt (.firmware keys map)) s = .next (b.takeFirmware keys map)) ∧
      (b.start.step = 8 → exec (.mcDelivery dt (.bootImage bytes)) s = .next (b.takeBoot bytes)) ∧
      (b.start.step ≠ 5 → exec (.mcDelivery dt (.history bytes)) s = .next b) ∧
      (b.start.step ≠ 7 → exec (.mcDelivery dt (.firmware keys map)) s = .next b) ∧
      (b.start.step ≠ 8 → exec (.mcDelivery dt (.bootImage bytes)) s = .next b))) ∧
  (∀ (b : State) (bytes : Bytes), parseHistory bytes = none →
    ∀ t, t = ((((b.onMem (fun m => { m with repair := [], repairChanges := 0, badSpares := [], withdrawn := [], unwrittenUnits := [], unwrittenLocs := [] })).onBer
        (fun g => { g with map := (List.range 32).map some, failed := [] })).atStep 5).onMem (fun m => { m with
          units := unitsAtReset, locs := [], workFaults := 0 })).raise cHistory → ∀ u, u = (t.noteSpares t.start.fails).buildRepair →
      (u.start.failed = true → b.takeHistory bytes = u.ask 0) ∧
      (u.start.failed = false → b.takeHistory bytes = ((u.mapBanks.onSto (fun g => { g with ledger :=
        (ascendingOf ((u.mem.locs.filter (fun (l : Loc) => l.kind == 2 && l.cls == 2)).map (fun (l : Loc) => l.index))).map (fun p => ⟨p, .retired, none⟩) })).atStep 7).ask 1)) ∧
  (∀ map : Bytes, let m := stackMapOf map
    stackMapOk map = true ↔ map.length = 64 ∧ 1 ≤ m.kvCount ∧ m.kvCount ≤ 2097152 ∧ m.kvBase % 262144 = 0 ∧ m.ovfBase % 4096 = 0 ∧
      m.pauseBase % 65536 = 0 ∧ m.handleBase % 64 = 0 ∧
      [(m.kvBase, m.kvCount * 262144), (m.ovfBase, 2 ^ 30), (m.pauseBase, 16 * 2 ^ 30), (m.handleBase, 8 * 2 ^ 20)].Pairwise
        (fun x y => x.1 + x.2 ≤ y.1 ∨ y.1 + y.2 ≤ x.1)) ∧
  (∀ (b : State) (keys : List (Option (Nat × Nat))) (map : Bytes), let k := (b.onStart (fun g => { g with keys := (List.range 4).map (fun i => keys.getD i none) })).atStep 7
    (stackMapOk map = false → b.takeFirmware keys map = ((k.onStart (fun g => { g with failed := true })).raise cStackMap).ask 1) ∧
    (stackMapOk map = true → (b.takeFirmware keys map).start.stackMap = stackMapOf map ∧ (b.takeFirmware keys map).start.step = 8 ∧
      (b.takeFirmware keys map).start.keys = k.start.keys ∧ (b.takeFirmware keys map).start.failed = false ∧
      (b.takeFirmware keys map).sto.ledger = b.sto.ledger.filter (fun e => decide (e.page < (stackMapOf map).kvCount)) ∧
      (b.takeFirmware keys map).out = b.out ++ [.mcRequest 2])) ∧
  ∀ (b : State) (bytes : Bytes),
    b.takeBoot bytes = ((b.bootCommit bytes).map State.goReady).getD (((b.onStart (fun g => { g with failed := true })).raise cBootImage).ask 2) ∧
    ∀ c : State, c.goReady.start.phase = .run ∧ c.goReady.start.ready = true ∧
      ∀ t, t = ((c.onStart (fun g => { g with phase := .run, step := 9, ready := true, failed := false })).onMem (fun m => { m with
        lastWriteback := c.aon.time, repairChanges := 0, units := m.units.map (fun u => { u with suspectSince := c.aon.time }) })).event evReady
          c.img.gen c.img.frame.personality 0 →
        (t.img.frame.inGroup = false → c.goReady = t) ∧
        (t.img.frame.inGroup = true → c.goReady = (t.onCas (fun g => { g with st := .forming, joining := true })).sendJoin)

/-- RAIL_LOSS loses the state: with VBX_AON good the time base, step counter, causes, lost clears and droop counters stay, the rail-loss cause is set and
the block is in AON ONLY; without it nothing stays. WARM_RESET of a block out of isolation does the same, without that cause and with SLEEP as written
(the model's choice, log 14). SLEEP_ENTRY when every condition holds: a group member sends LEAVE first, the wake timer takes the earliest expiry or
quarantine end, the domains go OFF and VBX_ARR is to be lowered; otherwise nothing happens. The conditions are those of R411, a record kept back for
coalescing counting as one that waits (the model's choice, log 4). WAKE_TIMER_EXPIRY at its time and FULL_WAKE are wake causes: a sleeping block is
then in RUN with every domain GATED, any other stays as it is. SLEEP_REQUEST, SLEEP_CLEAR and VSET_WRITE write BX_AON_CTL of a block that is not
isolated; VSET 31 is ignored, and clearing SLEEP is a wake cause. -/
def Obligations.SleepAndRails : Prop :=
  (∀ (dt vset : Nat) (gate sleep : Bool) (s : State), let b := s.elapse dt
    exec (.railLoss dt false) s = .next (b.lost false) ∧
    exec (.railLoss dt true) s = .next ((b.lost true).onAon (fun a => { a with cause := a.cause ||| BitVec.ofNat 32 (2 ^ 13) })) ∧
    (b.isolated = true → exec (.warmReset dt vset gate sleep) s = .next b) ∧
    (b.isolated = false → exec (.warmReset dt vset gate sleep) s = .next ((b.lost true).onAon (fun a => { a with sleepReq := sleep })))) ∧
  (∀ s : State, let t := s.lost true
    t.aon.time = s.aon.time ∧ t.aon.stepCounter = s.aon.stepCounter ∧ t.aon.cause = s.aon.cause ∧ t.aon.lostSrc = s.aon.lostSrc ∧
    t.aon.lostCount = s.aon.lostCount ∧ t.aon.sensors.map (fun x => (x.half, x.quarter)) = s.aon.sensors.map (fun x => (x.half, x.quarter)) ∧
    t.start.phase = .aonOnly ∧ t.start.ready = false ∧ t.str = State.reset.str ∧ t.img = State.reset.img ∧ t.ing = State.reset.ing ∧
    t.egr = State.reset.egr ∧ t.sch = State.reset.sch ∧ t.sto = State.reset.sto ∧ t.ber = State.reset.ber ∧ t.mem = State.reset.mem ∧ t.cas = State.reset.cas ∧
    s.lost false = { State.reset with pending := s.pending, out := s.out, freeCtr := s.freeCtr, start := { State.reset.start with phase := .isolated } }) ∧
  (∀ (dt : Nat) (s : State), let b := s.elapse dt
    (b.maySleep = false → exec (.sleepEntry dt) s = .next b) ∧
    (b.maySleep = true → ∀ t, t = (if b.cas.st = .member then b.send b.cas.master (.leave true []) else b) → exec (.sleepEntry dt) s =
      .next (((t.onAon (fun a => { a with wakeTimer := t.wakeTime, domains := List.replicate 7 (.off, a.time) })).onStart
        (fun g => { g with phase := .sleep })).emit (.arrRail false)))) ∧
  (∀ s : State, s.maySleep = true ↔
    s.aon.sleepReq = true ∧ s.serving = true ∧ s.sch.steps = [] ∧ s.sch.lastIssue + 1000000 ≤ s.aon.time ∧
    (∀ t ∈ s.str.tab, t.state ≠ .opening ∧ t.state ≠ .stepping ∧ t.state ≠ .await) ∧
    (∀ n < 64, s.announced n = false) ∧ s.undone = [] ∧
    (∀ g ∈ s.egr.rings, g.waiting = [] ∧ g.coal = none) ∧ s.egr.evStaged = [] ∧
    (∀ l ∈ s.img.slots, l.state ≠ .receiving ∧ l.state ≠ .committing) ∧
    (∀ t ∈ s.str.tab, t.migrating = false) ∧ s.cas.held = [] ∧ s.cas.st ≠ .master ∧ s.cas.st ≠ .deputy) ∧
  (∀ (dt : Nat) (s : State), let b := s.elapse dt
    exec (.fullWake dt) s = .next b.wakeCause ∧
    (b.aon.wakeTimer = none → exec (.wakeTimerExpiry dt) s = .next b) ∧
    (∀ w, b.aon.wakeTimer = some w → (w ≤ b.aon.time → exec (.wakeTimerExpiry dt) s = .next b.wakeCause) ∧
      (b.aon.time < w → exec (.wakeTimerExpiry dt) s = .next b))) ∧
  (∀ s : State, (s.start.phase ≠ .sleep → s.wakeCause = s) ∧
    (s.start.phase = .sleep → s.wakeCause.start.phase = .run ∧ s.wakeCause.start.ready = s.start.ready ∧ (∀ d < 7, s.wakeCause.domain d = .gated) ∧
      s.wakeCause.aon.wakeTimer = none ∧ s.wakeCause.str = s.str ∧ s.wakeCause.ing = s.ing ∧ s.wakeCause.egr = s.egr ∧
      s.wakeCause.mem = { s.mem with patrolPos := List.replicate 88 0 } ∧ s.wakeCause.ber = { s.ber with scrubPos := List.replicate 34 0 })) ∧
  ∀ (dt vset : Nat) (gate sleep : Bool) (s : State), let b := s.elapse dt
    (b.isolated = true → exec (.sleepRequest dt vset gate) s = .next b ∧ exec (.sleepClear dt vset gate) s = .next b ∧
      exec (.vsetWrite dt vset gate sleep) s = .next b) ∧
    (b.isolated = false → ∀ t : Bool → State, t = (fun z => b.onAon (fun a => { a with
        vset := if vset < 31 then vset else a.vset, autoGate := gate, sleepReq := z })) →
      exec (.sleepRequest dt vset gate) s = .next (t true) ∧
      (b.aon.sleepReq = true → exec (.sleepClear dt vset gate) s = .next (t false).wakeCause) ∧
      (b.aon.sleepReq = false → exec (.sleepClear dt vset gate) s = .next (t false))) ∧
    (b.isolated = false → ∀ t, t = b.onAon (fun a => { a with vset := if vset < 31 then vset else a.vset, autoGate := gate, sleepReq := sleep }) →
      (b.aon.sleepReq = true → sleep = false → exec (.vsetWrite dt vset gate sleep) s = .next t.wakeCause) ∧
      (b.aon.sleepReq = false ∨ sleep = true → exec (.vsetWrite dt vset gate sleep) s = .next t))

/-- DOMAIN_WAKE of a domain that does not run, of a block in RUN, sets it running. DOMAIN_PARK parks the Sash, Louvre, Facet or Garnet domain when it is
awake, holds no work, has been in its state for 1 ms, and, for Garnet, no stream with an active grammar is outside CLOSED and PAUSED; else, and for
every other domain, nothing happens. DOMAIN_OFF turns off a domain that has been parked for 100 ms while AUTO_GATE is set. DROOP_TRIP at a sensor of a
RUNNING domain, outside SLEEP, quarters or halves the domain's clock and counts once, and a half does not undo a quarter; DROOP_RELEASE goes one rate
back; no other sensor changes. -/
def Obligations.DomainsAndDroop : Prop :=
  (∀ (dt d : Nat) (s : State), let b := s.elapse dt
    (b.start.phase ≠ .run ∨ b.domain d = .running → exec (.domainWake dt d) s = .next b) ∧
    (b.start.phase = .run → b.domain d ≠ .running →
      exec (.domainWake dt d) s = .next (b.onAon (fun a => { a with domains := modifyAt a.domains d (fun _ => (.running, a.time)) })))) ∧
  (∀ (dt d : Nat) (s : State), let b := s.elapse dt
    let since := (b.aon.domains.getD d (.off, 0)).2
    let parks := b.start.phase = .run ∧ d ∈ [1, 2, 3, 4] ∧ (b.domain d = .running ∨ b.domain d = .gated) ∧ b.domainBusy d = false ∧
      since + 1000000 ≤ b.aon.time ∧ (d = 4 → ∀ t ∈ b.str.tab, t.parse.gstate = .active → t.state = .closed ∨ t.state = .paused)
    (parks → exec (.domainPark dt d) s = .next (b.onAon (fun a => { a with domains := modifyAt a.domains d (fun _ => (.parked, a.time)) }))) ∧
    (¬parks → exec (.domainPark dt d) s = .next b)) ∧
  (∀ (dt d : Nat) (s : State), let b := s.elapse dt
    let since := (b.aon.domains.getD d (.off, 0)).2
    (b.aon.autoGate = true → b.domain d = .parked → since + 100000000 ≤ b.aon.time →
      exec (.domainOff dt d) s = .next (b.onAon (fun a => { a with domains := modifyAt a.domains d (fun _ => (.off, a.time)) }))) ∧
    (b.aon.autoGate = false ∨ b.domain d ≠ .parked ∨ b.aon.time < since + 100000000 → exec (.domainOff dt d) s = .next b)) ∧
  (∀ (dt n : Nat) (deep : Bool) (s : State), let b := s.elapse dt
    (b.start.phase = .sleep ∨ b.domain (sensorDomain n) ≠ .running → exec (.droopTrip dt n deep) s = .next b) ∧
    (b.start.phase ≠ .sleep → b.domain (sensorDomain n) = .running → ∀ x, b.aon.sensors[n]? = some x →
      ∃ t, exec (.droopTrip dt n deep) s = .next t ∧
        t.aon.sensors[n]? = some (if deep then { x with quarter := min (x.quarter + 1) 65535, level := 2 }
          else { x with half := min (x.half + 1) 65535, level := max x.level 1 }) ∧
        (∀ m, m ≠ n → t.aon.sensors[m]? = b.aon.sensors[m]?) ∧ ∀ f : Field, f ≠ .aon → f.same b t)) ∧
  (∀ (dt n : Nat) (s : State), let b := s.elapse dt
    ∃ t, exec (.droopRelease dt n) s = .next t ∧ (∀ x, b.aon.sensors[n]? = some x → t.aon.sensors[n]? = some { x with level := x.level - 1 }) ∧
      (∀ m, m ≠ n → t.aon.sensors[m]? = b.aon.sensors[m]?) ∧ ∀ f : Field, f ≠ .aon → f.same b t) ∧
  ∀ n < 24, sensorDomain n = if n ≤ 3 then 0 else if n ≤ 7 then 1 else if n ≤ 10 then 2 else if n ≤ 14 then 3 else if n ≤ 18 then 4 else if n ≤ 21 then 5 else 6

/-- CAUSE_CLEAR, of a block that is not isolated, clears each cause bit written as 1, except one that hardware sets in the same clock: that stays set,
without a signal, and each such lost clear is counted with its bit; a bit that hardware sets and the write does not name is raised. CAUSE_MASK_WRITE
takes the mask, and each cause that stands and was not enabled signals once. APERTURE_VIOL_CLEAR clears the violation bits named, but one that
hardware sets in the same clock stays and counts as a lost clear, or is set when it was not named, with its cause. APERTURE_CTL_RESET puts the
consumed count at the next multiple of 0x10_0000 above it, discards the bytes, and frees the halt and the port; an advance of 16,384 or more over the
credit word last written is written to the host where write-back is on. Other apertures stay as they are, and an isolated block ignores all of these. -/
def Obligations.CausesCleared : Prop :=
  (∀ (dt : Nat) (w h : Word) (s : State), let b := s.elapse dt
    let wr := w.toNat &&& (2 ^ 19 - 1)
    let hw := h.toNat &&& (2 ^ 19 - 1)
    (b.isolated = true → exec (.causeClear dt w h) s = .next b) ∧
    (b.isolated = false → ∀ c, c = b.onAon (fun a => { a with cause := BitVec.ofNat 32 ((a.cause.toNat ^^^ (a.cause.toNat &&& wr)) ||| (wr &&& hw)) }) →
      ∀ l, l = (bitList 32 (wr &&& hw)).foldl (fun s n => s.onAon (fun a => { a with lostSrc := n, lostCount := satInc 16 a.lostCount })) c →
        exec (.causeClear dt w h) s = .next (((bitList 32 hw).filter (fun n => !wr.testBit n)).foldl (fun s n => s.raise n) l)) ∧
    (b.isolated = false → h = 0#32 → ∃ t, exec (.causeClear dt w h) s = .next t ∧
      (∀ n < 19, t.aon.cause.getLsbD n = (b.aon.cause.getLsbD n && !w.getLsbD n)) ∧ t.aon.lostCount = b.aon.lostCount ∧
      t.out = b.out ∧ ∀ f : Field, f ≠ .aon → f.same b t)) ∧
  (∀ (dt : Nat) (w : Word) (s : State), let b := s.elapse dt
    (b.isolated = true → exec (.causeMaskWrite dt w) s = .next b) ∧
    (b.isolated = false → ∀ due, due = (List.range 32).filter (fun n => w.getLsbD n && b.aon.cause.getLsbD n && !b.aon.causeMask.getLsbD n) →
      exec (.causeMaskWrite dt w) s = .next (due.foldl (fun s _ => s.signalCause) (b.onAon (fun a => { a with causeMask := w }))))) ∧
  (∀ (dt ap : Nat) (s : State), let b := (s.elapse dt).wakeCause
    (b.isolated = true ∨ 64 ≤ ap → exec (.apertureCtlReset dt ap) s = .next b) ∧
    (b.isolated = false → ap < 64 → b.ing.aps.length = 64 → ∃ t, exec (.apertureCtlReset dt ap) s = .next t ∧
      (∀ c, c = { b.ap ap with consumed := ((b.ap ap).consumed / 0x100000 + 1) * 0x100000, boundTo := none, halted := false, haltPos := 0, dwords := [] } →
        ∀ due : Prop, (due ↔ c.creditAddr ≠ 0 ∧ c.creditOn = true ∧ c.creditWritten + 16384 ≤ c.consumed) →
          (due → t.ap ap = { c with creditWritten := c.consumed } ∧ t.out = b.out ++ [.credit ap c.creditAddr c.consumed strictWrite]) ∧
          (¬due → t.ap ap = c ∧ t.out = b.out)) ∧
      (∀ m, m ≠ ap → t.ap m = b.ap m) ∧ ∀ f : Field, f ≠ .ing → f ≠ .out → f.same b t)) ∧
  ∀ (dt ap : Nat) (credit port : Bool) (h : Word) (s : State), let b := (s.elapse dt).wakeCause
    (b.isolated = true ∨ 64 ≤ ap → exec (.apertureViolClear dt ap credit port h) s = .next b) ∧
    (b.isolated = false → ap < 64 → b.ing.aps.length = 64 →
      (h.getLsbD 0 = false → h.getLsbD 1 = false → ∃ t, exec (.apertureViolClear dt ap credit port h) s = .next t ∧
        t.ap ap = { b.ap ap with portViol := (b.ap ap).portViol && !port, creditViol := (b.ap ap).creditViol && !credit } ∧
        (∀ m, m ≠ ap → t.ap m = b.ap m) ∧ ∀ f : Field, f ≠ .ing → f.same b t) ∧
      (h.getLsbD 0 = true → h.getLsbD 1 = false →
        (credit = false → port = false → exec (.apertureViolClear dt ap credit port h) s =
          .next ((b.onAp ap (fun a => { a with portViol := true })).raise cAptPort)) ∧
        (credit = false → port = true → exec (.apertureViolClear dt ap credit port h) s =
          .next (((b.onAp ap (fun a => { a with portViol := true })).raise cAptPort).onAon (fun a => { a with
            lostSrc := 64 + 2 * ap, lostCount := satInc 16 a.lostCount })))) ∧
      (h.getLsbD 0 = false → h.getLsbD 1 = true → port = false →
        (credit = false → exec (.apertureViolClear dt ap credit port h) s = .next ((b.onAp ap (fun a => { a with creditViol := true })).raise cAptCredit)) ∧
        (credit = true → exec (.apertureViolClear dt ap credit port h) s =
          .next (((b.onAp ap (fun a => { a with creditViol := true })).raise cAptCredit).onAon (fun a => { a with
            lostSrc := 64 + 2 * ap + 1, lostCount := satInc 16 a.lostCount })))))

/-- RC_READ of 1, 2, 4 or 8 naturally aligned bytes within the window is a host read; any other returns a free value and clears nothing (the model's
choice, log 130). REPAIR_MAP_READ_LO, REPAIR_MAP_READ_HI and LO_READ_LATCH are reads of 4 bytes. An access outside the always-on registers is a wake
cause; an isolated block reads zero; else the bytes returned are those of the register. A read of a _LO register latches its _HI half for the port,
and the next read of _HI through that port returns it and frees it. REPAIR_MAP_LO latches the whole entry; REPAIR_MAP_HI returns the latched half and
INDEX increments. A whole read of BX_CAUSE_LOST clears both fields, one of a byte that holds neither whole clears neither. REGISTER_WRITE of 4 or 8
aligned bytes writes its registers, the lower first; any other write is ignored. An isolated block ignores writes; a write of BX_CAUSE clears, of
BX_CAUSE_MASK enables, and one of a read-only register changes nothing. -/
def Obligations.RegistersReadAndWritten : Prop :=
  (∀ (dt off size : Nat) (port : Bool) (s : State), let b := s.elapse dt
    let ok := (size = 1 ∨ size = 2 ∨ size = 4 ∨ size = 8) ∧ off % size = 0 ∧ off + size ≤ 65536
    (ok → exec (.rcRead dt port off size) s = .next (b.hostRead port off size)) ∧
    (¬ok → exec (.rcRead dt port off size) s =
      .next ((b.access off).drawn.emit (.readData port off size (b.free.toNat % 2 ^ (8 * size))))) ∧
    exec (.repairMapReadLo dt port) s = .next (b.hostRead port 0x208 4) ∧
    exec (.repairMapReadHi dt port) s = .next (b.hostRead port 0x20C 4) ∧
    (loReg off = true → exec (.loReadLatch dt port off) s = .next (b.hostRead port off 4)) ∧
    (loReg off = false → exec (.loReadLatch dt port off) s = .next b)) ∧
  (∀ (b : State) (port : Bool) (off size : Nat), let c := b.access off
    (alwaysOn (off / 4 * 4) = true → c = b) ∧ (alwaysOn (off / 4 * 4) = false → c = b.wakeCause) ∧
    (c.isolated = true → b.hostRead port off size = c.emit (.readData port off size 0)) ∧
    (c.isolated = false → size ≠ 8 → ∀ v t, c.readReg port (off / 4 * 4) ⟨off % 4, size⟩ = (v, t) →
      b.hostRead port off size = t.emit (.readData port off size (v / 2 ^ (8 * (off % 4)) % 2 ^ (8 * size)))) ∧
    (c.isolated = false → ∀ v t w u, c.readReg port off ⟨0, 4⟩ = (v, t) → t.readReg port (off + 4) ⟨0, 4⟩ = (w, u) →
      b.hostRead port off 8 = u.emit (.readData port off 8 (v + w * 2 ^ 32)))) ∧
  (∀ (b : State) (port : Bool) (off : Nat) (l : Lanes),
    (off ≠ 0x20C → (∀ x ∈ b.mem.hiLatch, x.1 ≠ port ∨ x.2.1 ≠ off) → (b.readReg port off l).1 = b.reg off) ∧
    (loReg off = true → (∀ x ∈ b.mem.hiLatch, x.1 ≠ port ∨ x.2.1 ≠ off) →
      (b.readReg port off l).2.mem.hiLatch = b.mem.hiLatch.filter (fun x => x.1 != port || x.2.1 != off + 4) ++ [(port, off + 4, b.reg (off + 4))]) ∧
    (∀ v, off ≠ 0x20C → b.mem.hiLatch.find? (fun x => x.1 == port && x.2.1 == off) = some (port, off, v) → (b.readReg port off l).1 = v) ∧
    (loReg off = true → ∀ v, b.mem.hiLatch = [(port, off + 4, v)] → loReg (off + 4) = false →
      off + 4 ≠ 0x20C → off + 4 ≠ 0x208 → (b.readReg port (off + 4) l).1 = v ∧ (b.readReg port (off + 4) l).2.mem.hiLatch = []) ∧
    (b.mem.hiLatch = [] → (b.readReg port 0x208 l).1 = b.reg 0x208 ∧
      (b.readReg port 0x208 l).2.mem.repairLatch = b.mem.repairLatch.filter (fun x => x.1 != port) ++ [(port, b.mem.entry)]) ∧
    (∀ v, b.mem.repairLatch.find? (fun x => x.1 == port) = some (port, v) → b.readReg port 0x20C l =
      (v / 2 ^ 32 % 2 ^ 32, b.onMem (fun m => { m with repairIdx := (m.repairIdx + 1) % 131072 })))) ∧
  (∀ (b : State) (port : Bool), b.mem.hiLatch = [] →
    b.readReg port 0xC ⟨0, 4⟩ = (b.reg 0xC, b.onAon (fun a => { a with lostSrc := 0, lostCount := 0 })) ∧
    b.readReg port 0xC ⟨1, 1⟩ = (b.reg 0xC, b)) ∧
  (∀ (dt off size data : Nat) (port : Bool) (s : State), let c := (s.elapse dt).access off
    (65536 < off + size ∨ size = 0 → exec (.registerWrite dt port off size data) s = .next (s.elapse dt)) ∧
    (off + size ≤ 65536 →
      (size = 4 → off % 4 = 0 → exec (.registerWrite dt port off size data) s = .next (c.writeReg off (data % 2 ^ 32))) ∧
      (size = 8 → off % 8 = 0 → exec (.registerWrite dt port off size data) s =
        .next ((c.writeReg off (data % 2 ^ 32)).writeReg (off + 4) (data / 2 ^ 32 % 2 ^ 32))) ∧
      (size ≠ 0 → (size = 4 → off % 4 ≠ 0) → (size = 8 → off % 8 ≠ 0) → exec (.registerWrite dt port off size data) s = .next c))) ∧
  ∀ (b : State) (v : Nat),
    (b.isolated = true → ∀ off, b.writeReg off v = b) ∧
    (b.isolated = false → b.writeReg 8 v = b.clearCause v 0 ∧ b.writeReg 0x10 v = b.writeMask (BitVec.ofNat 32 v) ∧
      b.writeReg 0x14 v = b.onAon (fun a => { a with causeVec := v % 65536 }) ∧
      b.writeReg 0x200 v = b.onMem (fun m => { m with repairIdx := v % 131072 }) ∧
      b.writeReg 0x28 v = b ∧ b.writeReg 0x2C v = b ∧ b.writeReg 0 v = b ∧ b.writeReg 4 v = b ∧ b.writeReg 0xC v = b ∧ b.writeReg 0x1C v = b ∧
      b.writeReg 0x204 v = b ∧ b.writeReg 0x208 v = b ∧ b.writeReg 0x20C v = b ∧
      ∀ ap < 64, v.testBit 0 = false → v.testBit 1 = false → v.testBit 31 = true → b.writeReg (0x400 + 16 * ap + 8) v = b.resetAp ap)
end

