-- ==== Sys2Proof/Laws/Lists.lean ====
section
/-! SUPPORT. What the list helpers of Bits do. -/
set_option linter.unusedTactic false
set_option linter.unreachableTactic false
set_option linter.unusedSimpArgs false
set_option linter.unusedVariables false
namespace Sys2Proof.Machine

@[simp] theorem modifyAt_length {α : Type} (l : List α) (n : Nat) (f : α → α) : (modifyAt l n f).length = l.length := by
  induction l generalizing n with
  | nil => simp [modifyAt]
  | cons x xs ih => cases n <;> simp [modifyAt, ih]

theorem mem_modifyAt {α : Type} {l : List α} {n : Nat} {f : α → α} {y : α} (d : α) (h : y ∈ modifyAt l n f) :
    y ∈ l ∨ (n < l.length ∧ y = f (l.getD n d)) := by
  induction l generalizing n with
  | nil => simp [modifyAt] at h
  | cons x xs ih =>
    cases n with
    | zero =>
      simp only [modifyAt, List.mem_cons] at h
      rcases h with h | h
      · exact .inr ⟨by simp, by simpa using h⟩
      · exact .inl (by simp [h])
    | succ n =>
      simp only [modifyAt, List.mem_cons] at h
      rcases h with h | h
      · exact .inl (by simp [h])
      · rcases ih h with h | ⟨h, he⟩
        · exact .inl (by simp [h])
        · exact .inr ⟨by simpa using h, by simpa using he⟩

/-- What a changed place holds. -/
theorem getD_modifyAt_same {α : Type} (l : List α) (n : Nat) (f : α → α) (d : α) (h : n < l.length) :
    (modifyAt l n f).getD n d = f (l.getD n d) := by
  induction l generalizing n with
  | nil => simp at h
  | cons x xs ih =>
    cases n with
    | zero => simp [modifyAt]
    | succ n => simpa [modifyAt] using ih n (by simpa using h)

/-- Every other place is unchanged. -/
theorem getD_modifyAt_ne {α : Type} (l : List α) (n m : Nat) (f : α → α) (d : α) (h : m ≠ n) :
    (modifyAt l n f).getD m d = l.getD m d := by
  induction l generalizing n m with
  | nil => simp [modifyAt]
  | cons x xs ih =>
    cases n with
    | zero =>
      cases m with
      | zero => exact absurd rfl h
      | succ m => simp [modifyAt]
    | succ n =>
      cases m with
      | zero => simp [modifyAt]
      | succ m => simpa [modifyAt] using ih n m (by omega)

theorem getD_mem_of_lt {α : Type} {l : List α} {n : Nat} (h : n < l.length) (d : α) : l.getD n d ∈ l := by
  simp only [List.getD_eq_getElem?_getD, h, List.getElem?_eq_getElem, Option.getD_some, List.getElem_mem]

theorem satInc_lt (w c : Nat) : satInc w c < 2 ^ w := by
  have := Nat.two_pow_pos w
  unfold satInc
  split <;> omega

theorem satAdd_lt (w c k : Nat) : satAdd w c k < 2 ^ w := by
  have := Nat.two_pow_pos w
  unfold satAdd
  omega

/-- Changing one place cannot make more elements pass a test when the changed one passed it before, or fails it now. -/
theorem filter_modifyAt_le {α : Type} (l : List α) (n : Nat) (f : α → α) (p : α → Bool) (d : α)
    (h : n < l.length → p (f (l.getD n d)) = true → p (l.getD n d) = true) :
    ((modifyAt l n f).filter p).length ≤ (l.filter p).length := by
  induction l generalizing n with
  | nil => simp [modifyAt]
  | cons x xs ih =>
    cases n with
    | zero =>
      have h' : p (f x) = true → p x = true := by simpa using h (by simp)
      simp only [modifyAt, List.filter_cons]
      by_cases hp : p (f x) = true
      · simp [hp, h' hp]
      · by_cases hq : p x = true <;> simp [hp, hq]
    | succ n =>
      have := ih n (fun hn => by simpa using h (by simpa using hn))
      simp only [modifyAt, List.filter_cons]
      by_cases hq : p x = true <;> simp [hq, this]

/-- When no ring has EVENTS, changing one leaves at most one that has. -/
theorem filter_events_one (l : List Ring) (n : Nat) (f : Ring → Ring) (h : l.filter (·.events) = []) :
    ((modifyAt l n f).filter (·.events)).length ≤ 1 := by
  induction l generalizing n with
  | nil => simp [modifyAt]
  | cons x xs ih =>
    simp only [List.filter_cons] at h
    split at h
    · cases h
    · rename_i hx
      cases n with
      | zero =>
        simp only [modifyAt, List.filter_cons]
        split <;> simp [h]
      | succ n => simpa [modifyAt, List.filter_cons, hx] using ih n h

end Sys2Proof.Machine
end

