-- ==== Sys2Proof/Laws/State.lean ====
section
/-! SUPPORT. One lemma per part of State per update: what a part holds after one part was changed. -/
set_option linter.unusedTactic false
set_option linter.unreachableTactic false
set_option linter.unusedSimpArgs false
set_option linter.unusedVariables false
namespace Sys2Proof.Machine
open Sys2Proof

@[simp] theorem State.onAon_pending (f : Aon → Aon) (s : State) : (s.onAon f).pending = s.pending := rfl
@[simp] theorem State.onAon_out (f : Aon → Aon) (s : State) : (s.onAon f).out = s.out := rfl
@[simp] theorem State.onAon_freeCtr (f : Aon → Aon) (s : State) : (s.onAon f).freeCtr = s.freeCtr := rfl
@[simp] theorem State.onAon_aon (f : Aon → Aon) (s : State) : (s.onAon f).aon = f s.aon := rfl
@[simp] theorem State.onAon_start (f : Aon → Aon) (s : State) : (s.onAon f).start = s.start := rfl
@[simp] theorem State.onAon_ing (f : Aon → Aon) (s : State) : (s.onAon f).ing = s.ing := rfl
@[simp] theorem State.onAon_egr (f : Aon → Aon) (s : State) : (s.onAon f).egr = s.egr := rfl
@[simp] theorem State.onAon_img (f : Aon → Aon) (s : State) : (s.onAon f).img = s.img := rfl
@[simp] theorem State.onAon_str (f : Aon → Aon) (s : State) : (s.onAon f).str = s.str := rfl
@[simp] theorem State.onAon_sch (f : Aon → Aon) (s : State) : (s.onAon f).sch = s.sch := rfl
@[simp] theorem State.onAon_sto (f : Aon → Aon) (s : State) : (s.onAon f).sto = s.sto := rfl
@[simp] theorem State.onAon_ber (f : Aon → Aon) (s : State) : (s.onAon f).ber = s.ber := rfl
@[simp] theorem State.onAon_mem (f : Aon → Aon) (s : State) : (s.onAon f).mem = s.mem := rfl
@[simp] theorem State.onAon_cas (f : Aon → Aon) (s : State) : (s.onAon f).cas = s.cas := rfl

@[simp] theorem State.onStart_pending (f : Start → Start) (s : State) : (s.onStart f).pending = s.pending := rfl
@[simp] theorem State.onStart_out (f : Start → Start) (s : State) : (s.onStart f).out = s.out := rfl
@[simp] theorem State.onStart_freeCtr (f : Start → Start) (s : State) : (s.onStart f).freeCtr = s.freeCtr := rfl
@[simp] theorem State.onStart_aon (f : Start → Start) (s : State) : (s.onStart f).aon = s.aon := rfl
@[simp] theorem State.onStart_start (f : Start → Start) (s : State) : (s.onStart f).start = f s.start := rfl
@[simp] theorem State.onStart_ing (f : Start → Start) (s : State) : (s.onStart f).ing = s.ing := rfl
@[simp] theorem State.onStart_egr (f : Start → Start) (s : State) : (s.onStart f).egr = s.egr := rfl
@[simp] theorem State.onStart_img (f : Start → Start) (s : State) : (s.onStart f).img = s.img := rfl
@[simp] theorem State.onStart_str (f : Start → Start) (s : State) : (s.onStart f).str = s.str := rfl
@[simp] theorem State.onStart_sch (f : Start → Start) (s : State) : (s.onStart f).sch = s.sch := rfl
@[simp] theorem State.onStart_sto (f : Start → Start) (s : State) : (s.onStart f).sto = s.sto := rfl
@[simp] theorem State.onStart_ber (f : Start → Start) (s : State) : (s.onStart f).ber = s.ber := rfl
@[simp] theorem State.onStart_mem (f : Start → Start) (s : State) : (s.onStart f).mem = s.mem := rfl
@[simp] theorem State.onStart_cas (f : Start → Start) (s : State) : (s.onStart f).cas = s.cas := rfl

@[simp] theorem State.onIng_pending (f : Ingress → Ingress) (s : State) : (s.onIng f).pending = s.pending := rfl
@[simp] theorem State.onIng_out (f : Ingress → Ingress) (s : State) : (s.onIng f).out = s.out := rfl
@[simp] theorem State.onIng_freeCtr (f : Ingress → Ingress) (s : State) : (s.onIng f).freeCtr = s.freeCtr := rfl
@[simp] theorem State.onIng_aon (f : Ingress → Ingress) (s : State) : (s.onIng f).aon = s.aon := rfl
@[simp] theorem State.onIng_start (f : Ingress → Ingress) (s : State) : (s.onIng f).start = s.start := rfl
@[simp] theorem State.onIng_ing (f : Ingress → Ingress) (s : State) : (s.onIng f).ing = f s.ing := rfl
@[simp] theorem State.onIng_egr (f : Ingress → Ingress) (s : State) : (s.onIng f).egr = s.egr := rfl
@[simp] theorem State.onIng_img (f : Ingress → Ingress) (s : State) : (s.onIng f).img = s.img := rfl
@[simp] theorem State.onIng_str (f : Ingress → Ingress) (s : State) : (s.onIng f).str = s.str := rfl
@[simp] theorem State.onIng_sch (f : Ingress → Ingress) (s : State) : (s.onIng f).sch = s.sch := rfl
@[simp] theorem State.onIng_sto (f : Ingress → Ingress) (s : State) : (s.onIng f).sto = s.sto := rfl
@[simp] theorem State.onIng_ber (f : Ingress → Ingress) (s : State) : (s.onIng f).ber = s.ber := rfl
@[simp] theorem State.onIng_mem (f : Ingress → Ingress) (s : State) : (s.onIng f).mem = s.mem := rfl
@[simp] theorem State.onIng_cas (f : Ingress → Ingress) (s : State) : (s.onIng f).cas = s.cas := rfl

@[simp] theorem State.onEgr_pending (f : Egress → Egress) (s : State) : (s.onEgr f).pending = s.pending := rfl
@[simp] theorem State.onEgr_out (f : Egress → Egress) (s : State) : (s.onEgr f).out = s.out := rfl
@[simp] theorem State.onEgr_freeCtr (f : Egress → Egress) (s : State) : (s.onEgr f).freeCtr = s.freeCtr := rfl
@[simp] theorem State.onEgr_aon (f : Egress → Egress) (s : State) : (s.onEgr f).aon = s.aon := rfl
@[simp] theorem State.onEgr_start (f : Egress → Egress) (s : State) : (s.onEgr f).start = s.start := rfl
@[simp] theorem State.onEgr_ing (f : Egress → Egress) (s : State) : (s.onEgr f).ing = s.ing := rfl
@[simp] theorem State.onEgr_egr (f : Egress → Egress) (s : State) : (s.onEgr f).egr = f s.egr := rfl
@[simp] theorem State.onEgr_img (f : Egress → Egress) (s : State) : (s.onEgr f).img = s.img := rfl
@[simp] theorem State.onEgr_str (f : Egress → Egress) (s : State) : (s.onEgr f).str = s.str := rfl
@[simp] theorem State.onEgr_sch (f : Egress → Egress) (s : State) : (s.onEgr f).sch = s.sch := rfl
@[simp] theorem State.onEgr_sto (f : Egress → Egress) (s : State) : (s.onEgr f).sto = s.sto := rfl
@[simp] theorem State.onEgr_ber (f : Egress → Egress) (s : State) : (s.onEgr f).ber = s.ber := rfl
@[simp] theorem State.onEgr_mem (f : Egress → Egress) (s : State) : (s.onEgr f).mem = s.mem := rfl
@[simp] theorem State.onEgr_cas (f : Egress → Egress) (s : State) : (s.onEgr f).cas = s.cas := rfl

@[simp] theorem State.onImg_pending (f : Images → Images) (s : State) : (s.onImg f).pending = s.pending := rfl
@[simp] theorem State.onImg_out (f : Images → Images) (s : State) : (s.onImg f).out = s.out := rfl
@[simp] theorem State.onImg_freeCtr (f : Images → Images) (s : State) : (s.onImg f).freeCtr = s.freeCtr := rfl
@[simp] theorem State.onImg_aon (f : Images → Images) (s : State) : (s.onImg f).aon = s.aon := rfl
@[simp] theorem State.onImg_start (f : Images → Images) (s : State) : (s.onImg f).start = s.start := rfl
@[simp] theorem State.onImg_ing (f : Images → Images) (s : State) : (s.onImg f).ing = s.ing := rfl
@[simp] theorem State.onImg_egr (f : Images → Images) (s : State) : (s.onImg f).egr = s.egr := rfl
@[simp] theorem State.onImg_img (f : Images → Images) (s : State) : (s.onImg f).img = f s.img := rfl
@[simp] theorem State.onImg_str (f : Images → Images) (s : State) : (s.onImg f).str = s.str := rfl
@[simp] theorem State.onImg_sch (f : Images → Images) (s : State) : (s.onImg f).sch = s.sch := rfl
@[simp] theorem State.onImg_sto (f : Images → Images) (s : State) : (s.onImg f).sto = s.sto := rfl
@[simp] theorem State.onImg_ber (f : Images → Images) (s : State) : (s.onImg f).ber = s.ber := rfl
@[simp] theorem State.onImg_mem (f : Images → Images) (s : State) : (s.onImg f).mem = s.mem := rfl
@[simp] theorem State.onImg_cas (f : Images → Images) (s : State) : (s.onImg f).cas = s.cas := rfl

@[simp] theorem State.onStr_pending (f : Streams → Streams) (s : State) : (s.onStr f).pending = s.pending := rfl
@[simp] theorem State.onStr_out (f : Streams → Streams) (s : State) : (s.onStr f).out = s.out := rfl
@[simp] theorem State.onStr_freeCtr (f : Streams → Streams) (s : State) : (s.onStr f).freeCtr = s.freeCtr := rfl
@[simp] theorem State.onStr_aon (f : Streams → Streams) (s : State) : (s.onStr f).aon = s.aon := rfl
@[simp] theorem State.onStr_start (f : Streams → Streams) (s : State) : (s.onStr f).start = s.start := rfl
@[simp] theorem State.onStr_ing (f : Streams → Streams) (s : State) : (s.onStr f).ing = s.ing := rfl
@[simp] theorem State.onStr_egr (f : Streams → Streams) (s : State) : (s.onStr f).egr = s.egr := rfl
@[simp] theorem State.onStr_img (f : Streams → Streams) (s : State) : (s.onStr f).img = s.img := rfl
@[simp] theorem State.onStr_str (f : Streams → Streams) (s : State) : (s.onStr f).str = f s.str := rfl
@[simp] theorem State.onStr_sch (f : Streams → Streams) (s : State) : (s.onStr f).sch = s.sch := rfl
@[simp] theorem State.onStr_sto (f : Streams → Streams) (s : State) : (s.onStr f).sto = s.sto := rfl
@[simp] theorem State.onStr_ber (f : Streams → Streams) (s : State) : (s.onStr f).ber = s.ber := rfl
@[simp] theorem State.onStr_mem (f : Streams → Streams) (s : State) : (s.onStr f).mem = s.mem := rfl
@[simp] theorem State.onStr_cas (f : Streams → Streams) (s : State) : (s.onStr f).cas = s.cas := rfl

@[simp] theorem State.onSch_pending (f : Sched → Sched) (s : State) : (s.onSch f).pending = s.pending := rfl
@[simp] theorem State.onSch_out (f : Sched → Sched) (s : State) : (s.onSch f).out = s.out := rfl
@[simp] theorem State.onSch_freeCtr (f : Sched → Sched) (s : State) : (s.onSch f).freeCtr = s.freeCtr := rfl
@[simp] theorem State.onSch_aon (f : Sched → Sched) (s : State) : (s.onSch f).aon = s.aon := rfl
@[simp] theorem State.onSch_start (f : Sched → Sched) (s : State) : (s.onSch f).start = s.start := rfl
@[simp] theorem State.onSch_ing (f : Sched → Sched) (s : State) : (s.onSch f).ing = s.ing := rfl
@[simp] theorem State.onSch_egr (f : Sched → Sched) (s : State) : (s.onSch f).egr = s.egr := rfl
@[simp] theorem State.onSch_img (f : Sched → Sched) (s : State) : (s.onSch f).img = s.img := rfl
@[simp] theorem State.onSch_str (f : Sched → Sched) (s : State) : (s.onSch f).str = s.str := rfl
@[simp] theorem State.onSch_sch (f : Sched → Sched) (s : State) : (s.onSch f).sch = f s.sch := rfl
@[simp] theorem State.onSch_sto (f : Sched → Sched) (s : State) : (s.onSch f).sto = s.sto := rfl
@[simp] theorem State.onSch_ber (f : Sched → Sched) (s : State) : (s.onSch f).ber = s.ber := rfl
@[simp] theorem State.onSch_mem (f : Sched → Sched) (s : State) : (s.onSch f).mem = s.mem := rfl
@[simp] theorem State.onSch_cas (f : Sched → Sched) (s : State) : (s.onSch f).cas = s.cas := rfl

@[simp] theorem State.onSto_pending (f : Stores → Stores) (s : State) : (s.onSto f).pending = s.pending := rfl
@[simp] theorem State.onSto_out (f : Stores → Stores) (s : State) : (s.onSto f).out = s.out := rfl
@[simp] theorem State.onSto_freeCtr (f : Stores → Stores) (s : State) : (s.onSto f).freeCtr = s.freeCtr := rfl
@[simp] theorem State.onSto_aon (f : Stores → Stores) (s : State) : (s.onSto f).aon = s.aon := rfl
@[simp] theorem State.onSto_start (f : Stores → Stores) (s : State) : (s.onSto f).start = s.start := rfl
@[simp] theorem State.onSto_ing (f : Stores → Stores) (s : State) : (s.onSto f).ing = s.ing := rfl
@[simp] theorem State.onSto_egr (f : Stores → Stores) (s : State) : (s.onSto f).egr = s.egr := rfl
@[simp] theorem State.onSto_img (f : Stores → Stores) (s : State) : (s.onSto f).img = s.img := rfl
@[simp] theorem State.onSto_str (f : Stores → Stores) (s : State) : (s.onSto f).str = s.str := rfl
@[simp] theorem State.onSto_sch (f : Stores → Stores) (s : State) : (s.onSto f).sch = s.sch := rfl
@[simp] theorem State.onSto_sto (f : Stores → Stores) (s : State) : (s.onSto f).sto = f s.sto := rfl
@[simp] theorem State.onSto_ber (f : Stores → Stores) (s : State) : (s.onSto f).ber = s.ber := rfl
@[simp] theorem State.onSto_mem (f : Stores → Stores) (s : State) : (s.onSto f).mem = s.mem := rfl
@[simp] theorem State.onSto_cas (f : Stores → Stores) (s : State) : (s.onSto f).cas = s.cas := rfl

@[simp] theorem State.onBer_pending (f : Beryl → Beryl) (s : State) : (s.onBer f).pending = s.pending := rfl
@[simp] theorem State.onBer_out (f : Beryl → Beryl) (s : State) : (s.onBer f).out = s.out := rfl
@[simp] theorem State.onBer_freeCtr (f : Beryl → Beryl) (s : State) : (s.onBer f).freeCtr = s.freeCtr := rfl
@[simp] theorem State.onBer_aon (f : Beryl → Beryl) (s : State) : (s.onBer f).aon = s.aon := rfl
@[simp] theorem State.onBer_start (f : Beryl → Beryl) (s : State) : (s.onBer f).start = s.start := rfl
@[simp] theorem State.onBer_ing (f : Beryl → Beryl) (s : State) : (s.onBer f).ing = s.ing := rfl
@[simp] theorem State.onBer_egr (f : Beryl → Beryl) (s : State) : (s.onBer f).egr = s.egr := rfl
@[simp] theorem State.onBer_img (f : Beryl → Beryl) (s : State) : (s.onBer f).img = s.img := rfl
@[simp] theorem State.onBer_str (f : Beryl → Beryl) (s : State) : (s.onBer f).str = s.str := rfl
@[simp] theorem State.onBer_sch (f : Beryl → Beryl) (s : State) : (s.onBer f).sch = s.sch := rfl
@[simp] theorem State.onBer_sto (f : Beryl → Beryl) (s : State) : (s.onBer f).sto = s.sto := rfl
@[simp] theorem State.onBer_ber (f : Beryl → Beryl) (s : State) : (s.onBer f).ber = f s.ber := rfl
@[simp] theorem State.onBer_mem (f : Beryl → Beryl) (s : State) : (s.onBer f).mem = s.mem := rfl
@[simp] theorem State.onBer_cas (f : Beryl → Beryl) (s : State) : (s.onBer f).cas = s.cas := rfl

@[simp] theorem State.onMem_pending (f : Mem → Mem) (s : State) : (s.onMem f).pending = s.pending := rfl
@[simp] theorem State.onMem_out (f : Mem → Mem) (s : State) : (s.onMem f).out = s.out := rfl
@[simp] theorem State.onMem_freeCtr (f : Mem → Mem) (s : State) : (s.onMem f).freeCtr = s.freeCtr := rfl
@[simp] theorem State.onMem_aon (f : Mem → Mem) (s : State) : (s.onMem f).aon = s.aon := rfl
@[simp] theorem State.onMem_start (f : Mem → Mem) (s : State) : (s.onMem f).start = s.start := rfl
@[simp] theorem State.onMem_ing (f : Mem → Mem) (s : State) : (s.onMem f).ing = s.ing := rfl
@[simp] theorem State.onMem_egr (f : Mem → Mem) (s : State) : (s.onMem f).egr = s.egr := rfl
@[simp] theorem State.onMem_img (f : Mem → Mem) (s : State) : (s.onMem f).img = s.img := rfl
@[simp] theorem State.onMem_str (f : Mem → Mem) (s : State) : (s.onMem f).str = s.str := rfl
@[simp] theorem State.onMem_sch (f : Mem → Mem) (s : State) : (s.onMem f).sch = s.sch := rfl
@[simp] theorem State.onMem_sto (f : Mem → Mem) (s : State) : (s.onMem f).sto = s.sto := rfl
@[simp] theorem State.onMem_ber (f : Mem → Mem) (s : State) : (s.onMem f).ber = s.ber := rfl
@[simp] theorem State.onMem_mem (f : Mem → Mem) (s : State) : (s.onMem f).mem = f s.mem := rfl
@[simp] theorem State.onMem_cas (f : Mem → Mem) (s : State) : (s.onMem f).cas = s.cas := rfl

@[simp] theorem State.onCas_pending (f : Casc → Casc) (s : State) : (s.onCas f).pending = s.pending := rfl
@[simp] theorem State.onCas_out (f : Casc → Casc) (s : State) : (s.onCas f).out = s.out := rfl
@[simp] theorem State.onCas_freeCtr (f : Casc → Casc) (s : State) : (s.onCas f).freeCtr = s.freeCtr := rfl
@[simp] theorem State.onCas_aon (f : Casc → Casc) (s : State) : (s.onCas f).aon = s.aon := rfl
@[simp] theorem State.onCas_start (f : Casc → Casc) (s : State) : (s.onCas f).start = s.start := rfl
@[simp] theorem State.onCas_ing (f : Casc → Casc) (s : State) : (s.onCas f).ing = s.ing := rfl
@[simp] theorem State.onCas_egr (f : Casc → Casc) (s : State) : (s.onCas f).egr = s.egr := rfl
@[simp] theorem State.onCas_img (f : Casc → Casc) (s : State) : (s.onCas f).img = s.img := rfl
@[simp] theorem State.onCas_str (f : Casc → Casc) (s : State) : (s.onCas f).str = s.str := rfl
@[simp] theorem State.onCas_sch (f : Casc → Casc) (s : State) : (s.onCas f).sch = s.sch := rfl
@[simp] theorem State.onCas_sto (f : Casc → Casc) (s : State) : (s.onCas f).sto = s.sto := rfl
@[simp] theorem State.onCas_ber (f : Casc → Casc) (s : State) : (s.onCas f).ber = s.ber := rfl
@[simp] theorem State.onCas_mem (f : Casc → Casc) (s : State) : (s.onCas f).mem = s.mem := rfl
@[simp] theorem State.onCas_cas (f : Casc → Casc) (s : State) : (s.onCas f).cas = f s.cas := rfl

@[simp] theorem State.emit_pending (o : Out) (s : State) : (s.emit o).pending = s.pending := rfl
@[simp] theorem State.emit_out (o : Out) (s : State) : (s.emit o).out = s.out ++ [o] := rfl
@[simp] theorem State.emit_freeCtr (o : Out) (s : State) : (s.emit o).freeCtr = s.freeCtr := rfl
@[simp] theorem State.emit_aon (o : Out) (s : State) : (s.emit o).aon = s.aon := rfl
@[simp] theorem State.emit_start (o : Out) (s : State) : (s.emit o).start = s.start := rfl
@[simp] theorem State.emit_ing (o : Out) (s : State) : (s.emit o).ing = s.ing := rfl
@[simp] theorem State.emit_egr (o : Out) (s : State) : (s.emit o).egr = s.egr := rfl
@[simp] theorem State.emit_img (o : Out) (s : State) : (s.emit o).img = s.img := rfl
@[simp] theorem State.emit_str (o : Out) (s : State) : (s.emit o).str = s.str := rfl
@[simp] theorem State.emit_sch (o : Out) (s : State) : (s.emit o).sch = s.sch := rfl
@[simp] theorem State.emit_sto (o : Out) (s : State) : (s.emit o).sto = s.sto := rfl
@[simp] theorem State.emit_ber (o : Out) (s : State) : (s.emit o).ber = s.ber := rfl
@[simp] theorem State.emit_mem (o : Out) (s : State) : (s.emit o).mem = s.mem := rfl
@[simp] theorem State.emit_cas (o : Out) (s : State) : (s.emit o).cas = s.cas := rfl

@[simp] theorem State.emits_pending (l : List Out) (s : State) : (s.emits l).pending = s.pending := rfl
@[simp] theorem State.emits_out (l : List Out) (s : State) : (s.emits l).out = s.out ++ l := rfl
@[simp] theorem State.emits_freeCtr (l : List Out) (s : State) : (s.emits l).freeCtr = s.freeCtr := rfl
@[simp] theorem State.emits_aon (l : List Out) (s : State) : (s.emits l).aon = s.aon := rfl
@[simp] theorem State.emits_start (l : List Out) (s : State) : (s.emits l).start = s.start := rfl
@[simp] theorem State.emits_ing (l : List Out) (s : State) : (s.emits l).ing = s.ing := rfl
@[simp] theorem State.emits_egr (l : List Out) (s : State) : (s.emits l).egr = s.egr := rfl
@[simp] theorem State.emits_img (l : List Out) (s : State) : (s.emits l).img = s.img := rfl
@[simp] theorem State.emits_str (l : List Out) (s : State) : (s.emits l).str = s.str := rfl
@[simp] theorem State.emits_sch (l : List Out) (s : State) : (s.emits l).sch = s.sch := rfl
@[simp] theorem State.emits_sto (l : List Out) (s : State) : (s.emits l).sto = s.sto := rfl
@[simp] theorem State.emits_ber (l : List Out) (s : State) : (s.emits l).ber = s.ber := rfl
@[simp] theorem State.emits_mem (l : List Out) (s : State) : (s.emits l).mem = s.mem := rfl
@[simp] theorem State.emits_cas (l : List Out) (s : State) : (s.emits l).cas = s.cas := rfl

@[simp] theorem State.drawn_pending (s : State) : s.drawn.pending = s.pending := rfl
@[simp] theorem State.drawn_out (s : State) : s.drawn.out = s.out := rfl
@[simp] theorem State.drawn_freeCtr (s : State) : s.drawn.freeCtr = s.freeCtr + 1 := rfl
@[simp] theorem State.drawn_aon (s : State) : s.drawn.aon = s.aon := rfl
@[simp] theorem State.drawn_start (s : State) : s.drawn.start = s.start := rfl
@[simp] theorem State.drawn_ing (s : State) : s.drawn.ing = s.ing := rfl
@[simp] theorem State.drawn_egr (s : State) : s.drawn.egr = s.egr := rfl
@[simp] theorem State.drawn_img (s : State) : s.drawn.img = s.img := rfl
@[simp] theorem State.drawn_str (s : State) : s.drawn.str = s.str := rfl
@[simp] theorem State.drawn_sch (s : State) : s.drawn.sch = s.sch := rfl
@[simp] theorem State.drawn_sto (s : State) : s.drawn.sto = s.sto := rfl
@[simp] theorem State.drawn_ber (s : State) : s.drawn.ber = s.ber := rfl
@[simp] theorem State.drawn_mem (s : State) : s.drawn.mem = s.mem := rfl
@[simp] theorem State.drawn_cas (s : State) : s.drawn.cas = s.cas := rfl

@[simp] theorem State.setPending_pending (q : List Instr) (s : State) : (s.setPending q).pending = q := rfl
@[simp] theorem State.setPending_out (q : List Instr) (s : State) : (s.setPending q).out = s.out := rfl
@[simp] theorem State.setPending_freeCtr (q : List Instr) (s : State) : (s.setPending q).freeCtr = s.freeCtr := rfl
@[simp] theorem State.setPending_aon (q : List Instr) (s : State) : (s.setPending q).aon = s.aon := rfl
@[simp] theorem State.setPending_start (q : List Instr) (s : State) : (s.setPending q).start = s.start := rfl
@[simp] theorem State.setPending_ing (q : List Instr) (s : State) : (s.setPending q).ing = s.ing := rfl
@[simp] theorem State.setPending_egr (q : List Instr) (s : State) : (s.setPending q).egr = s.egr := rfl
@[simp] theorem State.setPending_img (q : List Instr) (s : State) : (s.setPending q).img = s.img := rfl
@[simp] theorem State.setPending_str (q : List Instr) (s : State) : (s.setPending q).str = s.str := rfl
@[simp] theorem State.setPending_sch (q : List Instr) (s : State) : (s.setPending q).sch = s.sch := rfl
@[simp] theorem State.setPending_sto (q : List Instr) (s : State) : (s.setPending q).sto = s.sto := rfl
@[simp] theorem State.setPending_ber (q : List Instr) (s : State) : (s.setPending q).ber = s.ber := rfl
@[simp] theorem State.setPending_mem (q : List Instr) (s : State) : (s.setPending q).mem = s.mem := rfl
@[simp] theorem State.setPending_cas (q : List Instr) (s : State) : (s.setPending q).cas = s.cas := rfl

@[simp] theorem State.elapse_pending (dt : Nat) (s : State) : (s.elapse dt).pending = s.pending := rfl
@[simp] theorem State.elapse_out (dt : Nat) (s : State) : (s.elapse dt).out = s.out := rfl
@[simp] theorem State.elapse_freeCtr (dt : Nat) (s : State) : (s.elapse dt).freeCtr = s.freeCtr := rfl
@[simp] theorem State.elapse_aon (dt : Nat) (s : State) : (s.elapse dt).aon = { s.aon with
    time := s.aon.time + dt, garnet := s.aon.garnet + dt * s.aon.garnetRate,
    domains := if 0 < dt && s.start.phase == .run then s.clocked else s.aon.domains } := rfl
@[simp] theorem State.elapse_start (dt : Nat) (s : State) : (s.elapse dt).start = s.start := rfl
@[simp] theorem State.elapse_ing (dt : Nat) (s : State) : (s.elapse dt).ing = s.ing := rfl
@[simp] theorem State.elapse_egr (dt : Nat) (s : State) : (s.elapse dt).egr = s.egr := rfl
@[simp] theorem State.elapse_img (dt : Nat) (s : State) : (s.elapse dt).img = s.img := rfl
@[simp] theorem State.elapse_str (dt : Nat) (s : State) : (s.elapse dt).str = s.str := rfl
@[simp] theorem State.elapse_sch (dt : Nat) (s : State) : (s.elapse dt).sch = s.sch := rfl
@[simp] theorem State.elapse_sto (dt : Nat) (s : State) : (s.elapse dt).sto = s.sto := rfl
@[simp] theorem State.elapse_ber (dt : Nat) (s : State) : (s.elapse dt).ber = s.ber := rfl
@[simp] theorem State.elapse_mem (dt : Nat) (s : State) : (s.elapse dt).mem = s.mem := rfl
@[simp] theorem State.elapse_cas (dt : Nat) (s : State) : (s.elapse dt).cas = s.cas := rfl

/-- The time base after a command's dt. -/
theorem State.elapse_time (dt : Nat) (s : State) : (s.elapse dt).aon.time = s.aon.time + dt := rfl

end Sys2Proof.Machine
end

