-- ==== Sys2Proof/Laws/Within.lean ====
section
/-! SUPPORT. What an operation can do to the state, said as one relation: it changes only some parts, adds to what left the block, draws
free values, and keeps the invariant. -/
set_option linter.unusedTactic false
set_option linter.unreachableTactic false
set_option linter.unusedSimpArgs false
set_option linter.unusedVariables false
namespace Sys2Proof.Machine
open Sys2Proof

/-- From s to t only the parts of D changed, the queue never does, the output only grew, and the invariant still holds. -/
structure State.Within (s : State) (D : List Field) (t : State) : Prop where
  same : ∀ p, D.contains p = false → p.same s t
  queue : t.pending = s.pending
  out : ∃ l, t.out = s.out ++ l
  free : s.freeCtr ≤ t.freeCtr
  inv : s.Inv → t.Inv

theorem Field.same_refl (p : Field) (s : State) : p.same s s := by cases p <;> rfl

theorem Field.same_trans {p : Field} {s t u : State} (h : p.same s t) (k : p.same t u) : p.same s u := by
  cases p <;> exact Eq.trans k h

theorem State.Within.refl (s : State) (D : List Field) : s.Within D s :=
  ⟨fun p _ => p.same_refl s, rfl, ⟨[], by simp⟩, Nat.le_refl _, id⟩

theorem State.Within.step {D D' : List Field} {s t u : State} (k : t.Within D' u) (hd : D'.all D.contains = true)
    (h : s.Within D t) : s.Within D u := by
  have sub (p : Field) (hp : D.contains p = false) : D'.contains p = false := by
    cases hc : D'.contains p with
    | false => rfl
    | true =>
      have h := List.all_eq_true.mp hd p (by simpa using hc)
      rw [hp] at h
      exact absurd h (by decide)
  have grown : ∃ l, u.out = s.out ++ l := by
    obtain ⟨l, hl⟩ := h.out
    obtain ⟨m, hm⟩ := k.out
    exact ⟨l ++ m, by rw [hm, hl, List.append_assoc]⟩
  exact ⟨fun p hp => Field.same_trans (h.same p hp) (k.same p (sub p hp)), k.queue.trans h.queue, grown,
    Nat.le_trans h.free k.free, fun i => k.inv (h.inv i)⟩

theorem State.Within.mono {D D' : List Field} {s t : State} (k : s.Within D' t) (hd : D'.all D.contains = true) : s.Within D t :=
  k.step hd (.refl s D)

theorem State.Within.ite {D : List Field} {s t u : State} {c : Prop} [Decidable c] (h : s.Within D t) (k : s.Within D u) :
    s.Within D (if c then t else u) := by
  split <;> assumption

theorem State.Within.getD {D : List Field} {s t : State} {o : Option State} (h : ∀ u, o = some u → s.Within D u) (k : s.Within D t) :
    s.Within D (o.getD t) := by
  cases o with
  | none => exact k
  | some u => exact h u rfl

theorem State.Within.foldl {α : Type} {D : List Field} {f : State → α → State} (hf : ∀ (u : State) (x : α), u.Within D (f u x)) (l : List α)
    {s t : State} (h : s.Within D t) : s.Within D (l.foldl f t) := by
  induction l generalizing t with
  | nil => exact h
  | cons x xs ih => exact ih ((hf t x).step (by simp [List.all_eq_true]) h)

theorem State.Within.foldlMem {α : Type} {D : List Field} {f : State → α → State} {l : List α} {s t : State}
    (hf : ∀ (u : State) (x : α), x ∈ l → u.Within D (f u x)) (h : s.Within D t) : s.Within D (l.foldl f t) := by
  induction l generalizing t with
  | nil => exact h
  | cons x xs ih =>
    exact ih (fun u y hy => hf u y (by simp [hy])) ((hf t x (by simp)).step (by simp [List.all_eq_true]) h)

/-- A fold that carries a result beside the state. -/
theorem State.Within.foldlFst {α β : Type} {D : List Field} {f : State × β → α → State × β} (hf : ∀ (a : State × β) (x : α), a.1.Within D (f a x).1)
    (l : List α) (a : State × β) : a.1.Within D (l.foldl f a).1 := by
  induction l generalizing a with
  | nil => exact .refl _ _
  | cons x xs ih => exact (ih (f a x)).step (by simp [List.all_eq_true]) (hf a x)

/-- A fold over operations that may fail. -/
theorem State.Within.foldlOption {α : Type} {D : List Field} {s : State} {f : Option State → α → Option State}
    (hf : ∀ (acc : Option State) (x : α), (∀ u, acc = some u → s.Within D u) → ∀ u, f acc x = some u → s.Within D u) (l : List α)
    {acc : Option State} (h : ∀ u, acc = some u → s.Within D u) : ∀ u, l.foldl f acc = some u → s.Within D u := by
  induction l generalizing acc with
  | nil => exact h
  | cons x xs ih => exact ih (hf acc x h)

theorem State.Within.keepsBut {D : List Field} {s t : State} (h : s.Within D t) : s.keepsBut D t :=
  fun p hp => h.same p (by simpa using hp)

/-! ### One part -/

theorem State.onStart_within (f : Start → Start) (s : State) : s.Within [.start] (s.onStart f) :=
  ⟨fun p hp => by cases p <;> first | rfl | simp at hp, rfl, ⟨[], by simp⟩, Nat.le_refl _, fun i => ⟨i.aon, i.ing, i.egr, i.mem⟩⟩

theorem State.onImg_within (f : Images → Images) (s : State) : s.Within [.img] (s.onImg f) :=
  ⟨fun p hp => by cases p <;> first | rfl | simp at hp, rfl, ⟨[], by simp⟩, Nat.le_refl _, fun i => ⟨i.aon, i.ing, i.egr, i.mem⟩⟩

theorem State.onStr_within (f : Streams → Streams) (s : State) : s.Within [.str] (s.onStr f) :=
  ⟨fun p hp => by cases p <;> first | rfl | simp at hp, rfl, ⟨[], by simp⟩, Nat.le_refl _, fun i => ⟨i.aon, i.ing, i.egr, i.mem⟩⟩

theorem State.onSch_within (f : Sched → Sched) (s : State) : s.Within [.sch] (s.onSch f) :=
  ⟨fun p hp => by cases p <;> first | rfl | simp at hp, rfl, ⟨[], by simp⟩, Nat.le_refl _, fun i => ⟨i.aon, i.ing, i.egr, i.mem⟩⟩

theorem State.onSto_within (f : Stores → Stores) (s : State) : s.Within [.sto] (s.onSto f) :=
  ⟨fun p hp => by cases p <;> first | rfl | simp at hp, rfl, ⟨[], by simp⟩, Nat.le_refl _, fun i => ⟨i.aon, i.ing, i.egr, i.mem⟩⟩

theorem State.onBer_within (f : Beryl → Beryl) (s : State) : s.Within [.ber] (s.onBer f) :=
  ⟨fun p hp => by cases p <;> first | rfl | simp at hp, rfl, ⟨[], by simp⟩, Nat.le_refl _, fun i => ⟨i.aon, i.ing, i.egr, i.mem⟩⟩

theorem State.onCas_within (f : Casc → Casc) (s : State) : s.Within [.cas] (s.onCas f) :=
  ⟨fun p hp => by cases p <;> first | rfl | simp at hp, rfl, ⟨[], by simp⟩, Nat.le_refl _, fun i => ⟨i.aon, i.ing, i.egr, i.mem⟩⟩

theorem State.onAon_within {f : Aon → Aon} {s : State} (hf : ∀ a : Aon, a.ok → (f a).ok) : s.Within [.aon] (s.onAon f) :=
  ⟨fun p hp => by cases p <;> first | rfl | simp at hp, rfl, ⟨[], by simp⟩, Nat.le_refl _, fun i => ⟨hf _ i.aon, i.ing, i.egr, i.mem⟩⟩

theorem State.onIng_within {f : Ingress → Ingress} {s : State} (hf : ∀ g : Ingress, g.ok → (f g).ok) : s.Within [.ing] (s.onIng f) :=
  ⟨fun p hp => by cases p <;> first | rfl | simp at hp, rfl, ⟨[], by simp⟩, Nat.le_refl _, fun i => ⟨i.aon, hf _ i.ing, i.egr, i.mem⟩⟩

theorem State.onEgr_within {f : Egress → Egress} {s : State} (hf : ∀ e : Egress, e.ok → (f e).ok) : s.Within [.egr] (s.onEgr f) :=
  ⟨fun p hp => by cases p <;> first | rfl | simp at hp, rfl, ⟨[], by simp⟩, Nat.le_refl _, fun i => ⟨i.aon, i.ing, hf _ i.egr, i.mem⟩⟩

theorem State.onMem_within {f : Mem → Mem} {s : State} (hf : ∀ m : Mem, m.ok → (f m).ok) : s.Within [.mem] (s.onMem f) :=
  ⟨fun p hp => by cases p <;> first | rfl | simp at hp, rfl, ⟨[], by simp⟩, Nat.le_refl _, fun i => ⟨i.aon, i.ing, i.egr, hf _ i.mem⟩⟩

theorem State.emit_within (o : Out) (s : State) : s.Within [.out] (s.emit o) :=
  ⟨fun p hp => by cases p <;> first | rfl | simp at hp, rfl, ⟨[o], rfl⟩, Nat.le_refl _, fun i => ⟨i.aon, i.ing, i.egr, i.mem⟩⟩

theorem State.emits_within (l : List Out) (s : State) : s.Within [.out] (s.emits l) :=
  ⟨fun p hp => by cases p <;> first | rfl | simp at hp, rfl, ⟨l, rfl⟩, Nat.le_refl _, fun i => ⟨i.aon, i.ing, i.egr, i.mem⟩⟩

theorem State.drawn_within (s : State) : s.Within [.freeCtr] s.drawn :=
  ⟨fun p hp => by cases p <;> first | rfl | simp at hp, rfl, ⟨[], by simp⟩, Nat.le_succ _, fun i => ⟨i.aon, i.ing, i.egr, i.mem⟩⟩

theorem State.draws_within (k : Nat) (s : State) : s.Within [.freeCtr] { s with freeCtr := s.freeCtr + k } :=
  ⟨fun p hp => by cases p <;> first | rfl | simp at hp, rfl, ⟨[], by simp⟩, Nat.le_add_right _ _, fun i => ⟨i.aon, i.ing, i.egr, i.mem⟩⟩

theorem State.clocked_length (s : State) : s.clocked.length = s.aon.domains.length := by simp [State.clocked]

theorem State.elapse_within (dt : Nat) (s : State) : s.Within [.aon] (s.elapse dt) := by
  refine ⟨fun p hp => by cases p <;> first | rfl | simp at hp, rfl, ⟨[], by simp⟩, Nat.le_refl _, fun i => ⟨?_, i.ing, i.egr, i.mem⟩⟩
  have h := i.aon
  refine ⟨h.sensors, ?_, h.counters, h.vset, h.thresh, h.causes⟩
  show (if (0 < dt && s.start.phase == .run) = true then s.clocked else s.aon.domains).length = 7
  split
  · rw [State.clocked_length]
    exact h.domains
  · exact h.domains

end Sys2Proof.Machine
end

