-- ==== Sys2Proof/Laws/Sent.lean ====
section
/-! SUPPORT. What the shared operations of every meaning can do: completing packets, raising causes, pages, chunks, builds, issue. -/
set_option linter.unusedTactic false
set_option linter.unreachableTactic false
set_option linter.unusedSimpArgs false
set_option linter.unusedVariables false
namespace Sys2Proof.Machine
open Sys2Proof

theorem State.onPfx_within (n : Nat) (f : PfxRec → PfxRec) (s : State) : s.Within [.sto] (State.onPfx n f s) := by
  unfold State.onPfx
  repeat' first
    | with_reducible apply State.Within.refl
    | (with_reducible apply State.Within.step (State.onSto_within ..)) <;> try decide
    | (with_reducible apply State.Within.foldl) <;> try intro _ _
    | with_reducible apply State.Within.ite
    | dsimp only
    | split

theorem State.releaseSummary_within (h : Nat) (s : State) : s.Within [.sch] (State.releaseSummary h s) := by
  unfold State.releaseSummary
  repeat' first
    | with_reducible apply State.Within.refl
    | (with_reducible apply State.Within.step (State.onSch_within ..)) <;> try decide
    | (with_reducible apply State.Within.foldl) <;> try intro _ _
    | with_reducible apply State.Within.ite
    | dsimp only
    | split

theorem State.freePages_within (pages : List Nat) (s : State) : s.Within [.sto] (State.freePages pages s) := by
  unfold State.freePages
  repeat' first
    | with_reducible apply State.Within.refl
    | (with_reducible apply State.Within.step (State.onSto_within ..)) <;> try decide
    | (with_reducible apply State.Within.foldl) <;> try intro _ _
    | with_reducible apply State.Within.ite
    | dsimp only
    | split

theorem State.bankCount_within (b : Nat) (k : Nat) (n : Nat) (s : State) : s.Within [.ber] (State.bankCount b k n s) := by
  unfold State.bankCount
  repeat' first
    | with_reducible apply State.Within.refl
    | (with_reducible apply State.Within.step (State.onBer_within ..)) <;> try decide
    | (with_reducible apply State.Within.foldl) <;> try intro _ _
    | with_reducible apply State.Within.ite
    | dsimp only
    | split

theorem State.logicalCount_within (n : Nat) (k : Nat) (m : Nat) (s : State) : s.Within [.ber] (State.logicalCount n k m s) := by
  unfold State.logicalCount
  repeat' first
    | with_reducible apply State.Within.refl
    | (with_reducible apply State.Within.step (State.bankCount_within ..)) <;> try decide
    | (with_reducible apply State.Within.foldl) <;> try intro _ _
    | with_reducible apply State.Within.ite
    | dsimp only
    | split

theorem State.waitIn_within (c : Nat) (n : Nat) (u : BerylUpdate) (s : State) : s.Within [.ber] (State.waitIn c n u s) := by
  unfold State.waitIn
  repeat' first
    | with_reducible apply State.Within.refl
    | (with_reducible apply State.Within.step (State.logicalCount_within ..)) <;> try decide
    | (with_reducible apply State.Within.step (State.onBer_within ..)) <;> try decide
    | (with_reducible apply State.Within.foldl) <;> try intro _ _
    | with_reducible apply State.Within.ite
    | dsimp only
    | split

theorem State.steal_within (n : Nat) (s : State) : s.Within [.ber] (State.steal n s) := by
  unfold State.steal
  repeat' first
    | with_reducible apply State.Within.refl
    | (with_reducible apply State.Within.step (State.logicalCount_within ..)) <;> try decide
    | (with_reducible apply State.Within.step (State.onBer_within ..)) <;> try decide
    | (with_reducible apply State.Within.foldl) <;> try intro _ _
    | with_reducible apply State.Within.ite
    | dsimp only
    | split

theorem State.took_within (c : Nat) (n : Nat) (s : State) : s.Within [.ber] (State.took c n s) := by
  unfold State.took
  repeat' first
    | with_reducible apply State.Within.refl
    | (with_reducible apply State.Within.step (State.steal_within ..)) <;> try decide
    | (with_reducible apply State.Within.foldl) <;> try intro _ _
    | with_reducible apply State.Within.ite
    | dsimp only
    | split

theorem State.writeRow_within (n : Nat) (row : Nat) (v : Nat) (s : State) : s.Within [.ber] (State.writeRow n row v s) := by
  unfold State.writeRow
  repeat' first
    | with_reducible apply State.Within.refl
    | (with_reducible apply State.Within.step (State.onBer_within ..)) <;> try decide
    | (with_reducible apply State.Within.foldl) <;> try intro _ _
    | with_reducible apply State.Within.ite
    | dsimp only
    | split

theorem State.clearEntry_within (n : Nat) (i : Nat) (s : State) : s.Within [.ber] (State.clearEntry n i s) := by
  unfold State.clearEntry
  repeat' first
    | with_reducible apply State.Within.refl
    | (with_reducible apply State.Within.step (State.writeRow_within ..)) <;> try decide
    | (with_reducible apply State.Within.foldl) <;> try intro _ _
    | with_reducible apply State.Within.ite
    | dsimp only
    | split

theorem State.eraseIn_within (c : Nat) (n : Nat) (key : List Nat) (tag : Nat) (s : State) : s.Within [.ber] (State.eraseIn c n key tag s) := by
  unfold State.eraseIn
  repeat' first
    | with_reducible apply State.Within.refl
    | (with_reducible apply State.Within.step (State.waitIn_within ..)) <;> try decide
    | (with_reducible apply State.Within.step (State.took_within ..)) <;> try decide
    | (with_reducible apply State.Within.step (State.clearEntry_within ..)) <;> try decide
    | (with_reducible apply State.Within.foldl) <;> try intro _ _
    | with_reducible apply State.Within.ite
    | dsimp only
    | split

theorem State.removeUse_within (c : Nat) (use : Nat) (key : List Nat) (s : State) : s.Within [.ber] (State.removeUse c use key s) := by
  unfold State.removeUse
  repeat' first
    | with_reducible apply State.Within.refl
    | (with_reducible apply State.Within.step (State.eraseIn_within ..)) <;> try decide
    | (with_reducible apply State.Within.step (State.onBer_within ..)) <;> try decide
    | (with_reducible apply State.Within.foldl) <;> try intro _ _
    | with_reducible apply State.Within.ite
    | dsimp only
    | split

theorem State.freeRecord_within (k n : Nat) (s : State) : s.Within [.sch, .sto, .ber] (State.freeRecord k n s) := by
  induction k generalizing n s with
  | zero => exact .refl _ _
  | succ k ih =>
    unfold State.freeRecord
    repeat' first
      | with_reducible exact .refl _ _
      | with_reducible refine .step (ih ..) (by decide) ?_
      | with_reducible refine .step (State.onSto_within ..) (by decide) ?_
      | with_reducible refine .step (State.onPfx_within ..) (by decide) ?_
      | with_reducible refine .step (State.releaseSummary_within ..) (by decide) ?_
      | with_reducible refine .step (State.removeUse_within ..) (by decide) ?_
      | with_reducible refine .step (State.freePages_within ..) (by decide) ?_
      | split
      | dsimp only

theorem State.onStream_within (slot : Nat) (f : Stream → Stream) (s : State) : s.Within [.str] (State.onStream slot f s) := by
  unfold State.onStream
  repeat' first
    | with_reducible apply State.Within.refl
    | (with_reducible apply State.Within.step (State.onStr_within ..)) <;> try decide
    | (with_reducible apply State.Within.foldl) <;> try intro _ _
    | with_reducible apply State.Within.ite
    | dsimp only
    | split

theorem State.setChain_within (st : PageState) (pages : List Nat) (s : State) : s.Within [.sto] (State.setChain st pages s) := by
  unfold State.setChain
  repeat' first
    | with_reducible apply State.Within.refl
    | (with_reducible apply State.Within.step (State.onSto_within ..)) <;> try decide
    | (with_reducible apply State.Within.foldl) <;> try intro _ _
    | with_reducible apply State.Within.ite
    | dsimp only
    | split

theorem State.send_within (dest : Nat) (m : GMsg) (s : State) : s.Within [.out] (State.send dest m s) := by
  unfold State.send
  repeat' first
    | with_reducible apply State.Within.refl
    | (with_reducible apply State.Within.step (State.emit_within ..)) <;> try decide
    | (with_reducible apply State.Within.foldl) <;> try intro _ _
    | with_reducible apply State.Within.ite
    | dsimp only
    | split

theorem State.finish_within (p : Pkt) (s : State) : s.Within [.ing, .mem] (State.finish p s) := by
  unfold State.finish
  repeat' first
    | with_reducible apply State.Within.refl
    | (with_reducible apply State.Within.step (State.onMem_within ?_)) <;> try decide
    | exact fun _ h => ⟨h.units, h.arrays, h.patrol, h.counts, h.bound⟩
    | exact fun _ h => ⟨by simp [h.units], by simp [h.arrays], by simp [h.patrol], h.counts, h.bound⟩
    | (with_reducible apply State.Within.step (State.onIng_within ?_)) <;> try decide
    | exact fun _ h => ⟨h.count, h.counters⟩
    | (with_reducible apply State.Within.foldl) <;> try intro _ _
    | with_reducible apply State.Within.ite
    | dsimp only
    | split

/-- A ring's change keeps the invariant when nothing comes to wait for a disabled ring and EVENTS is not set. -/
theorem State.onRing_within (n : Nat) {f : Ring → Ring} {s : State}
    (hw : ((s.ring n).enabled = false → (s.ring n).waiting = []) → (f (s.ring n)).enabled = false → (f (s.ring n)).waiting = [])
    (he : (f (s.ring n)).events = true → (s.ring n).events = true) : s.Within [.egr] (s.onRing n f) := by
  refine ⟨fun p hp => by cases p <;> first | rfl | simp at hp, rfl, ⟨[], by simp [State.onRing]⟩, Nat.le_refl _, fun i => ?_⟩
  refine ⟨i.aon, i.ing, ⟨by simpa [State.onRing] using i.egr.count, fun g hg => ?_, ?_, i.egr.staged⟩, i.mem⟩
  · rcases mem_modifyAt {} hg with h | ⟨h, rfl⟩
    · exact i.egr.idle g h
    · refine hw (i.egr.idle _ ?_)
      simp only [State.ring, List.getD_eq_getElem?_getD, h, List.getElem?_eq_getElem, Option.getD_some, List.getElem_mem]
  · exact Nat.le_trans (filter_modifyAt_le _ n f _ {} (fun _ => he)) i.egr.events

theorem State.count_within (i k : Nat) (s : State) : s.Within [.mem] (s.count i k) := by
  refine State.onMem_within fun m h => ⟨h.units, h.arrays, h.patrol, by simpa using h.counts, fun c hc => ?_⟩
  rcases mem_modifyAt 0 hc with h' | ⟨_, rfl⟩
  · exact h.bound c h'
  · exact satAdd_lt ..

theorem State.lose_within (n : Nat) (s : State) : s.Within [.egr, .mem] (s.lose n) :=
  .step (State.count_within ..) (by decide) ((State.onRing_within n (fun h => h) id).mono (by decide))

theorem State.signalRing_within (n : Nat) (s : State) : s.Within [.out, .egr] (s.signalRing n) :=
  .step (State.emit_within ..) (by decide) ((State.onRing_within n (fun h => h) id).mono (by decide))

theorem State.put_within (n : Nat) (r : Rec) (s : State) : s.Within [.out, .egr] (s.put n r) := by
  unfold State.put
  dsimp only
  have h1 (k : Nat) : s.Within [.out, .egr] (s.onRing n (fun g => { g with tail := k })) :=
    (State.onRing_within n (fun h => h) id).mono (by decide)
  split
  · exact .step (State.emits_within ..) (by decide) (h1 _)
  · split
    · exact .step (State.signalRing_within ..) (by decide) (.step (State.emits_within ..) (by decide) (h1 _))
    · exact .step (State.onRing_within n (fun h => h) id) (by decide) (.step (State.emits_within ..) (by decide) (h1 _))

theorem State.onHandle_within (h : Nat) (f : Stream → Stream) (s : State) : s.Within [.str] (State.onHandle h f s) := by
  unfold State.onHandle
  repeat' first
    | with_reducible apply State.Within.refl
    | (with_reducible apply State.Within.step (State.onStr_within ..)) <;> try decide
    | (with_reducible apply State.Within.foldl) <;> try intro _ _
    | with_reducible apply State.Within.ite
    | dsimp only
    | split

/-- Only an enabled ring may come to hold a record. -/
theorem State.hold_within {n : Nat} {who : Option Nat} {r : Rec} {s : State} (h : (s.ring n).enabled = true) :
    s.Within [.egr, .str] (s.hold n who r) := by
  have h1 : s.Within [.egr, .str]
      (s.onRing n (fun g => { g with waiting := g.waiting ++ [(who, r)], waitSince := some (g.waitSince.getD s.aon.time) })) :=
    (State.onRing_within n (fun _ he => by simp [h] at he) id).mono (by decide)
  unfold State.hold
  dsimp only
  split
  · exact h1
  · exact .step (State.onHandle_within ..) (by decide) h1

theorem State.place_within (n : Nat) (who : Option Nat) (r : Rec) (s : State) :
    s.Within [.out, .egr, .str, .mem] (s.place n who r) := by
  unfold State.place
  dsimp only
  split
  · exact (State.lose_within ..).mono (by decide)
  · rename_i h
    exact .ite ((State.put_within ..).mono (by decide)) ((State.hold_within (by simpa using h)).mono (by decide))

theorem State.flushCoal_within (n : Nat) (s : State) : s.Within [.out, .egr, .str, .mem] (State.flushCoal n s) := by
  unfold State.flushCoal
  repeat' first
    | with_reducible apply State.Within.refl
    | (with_reducible apply State.Within.step (State.place_within ..)) <;> try decide
    | (with_reducible apply State.Within.step (State.onRing_within _ ?_ ?_)) <;> try decide
    | exact fun h => h
    | exact fun _ _ => rfl
    | (with_reducible apply State.Within.foldl) <;> try intro _ _
    | with_reducible apply State.Within.ite
    | dsimp only
    | split

theorem State.egressFor_within (n : Nat) (who : Option Nat) (r : Rec) (s : State) : s.Within [.out, .egr, .str, .mem] (State.egressFor n who r s) := by
  unfold State.egressFor
  repeat' first
    | with_reducible apply State.Within.refl
    | (with_reducible apply State.Within.step (State.flushCoal_within ..)) <;> try decide
    | (with_reducible apply State.Within.step (State.place_within ..)) <;> try decide
    | (with_reducible apply State.Within.foldl) <;> try intro _ _
    | with_reducible apply State.Within.ite
    | dsimp only
    | split

theorem State.egressCmp_within (n : Nat) (who : Option Nat) (p : Pkt) (c : CmpRec) (s : State) : s.Within [.out, .freeCtr, .egr, .str, .mem] (State.egressCmp n who p c s) := by
  unfold State.egressCmp
  repeat' first
    | with_reducible apply State.Within.refl
    | (with_reducible apply State.Within.step (State.onRing_within _ ?_ ?_)) <;> try decide
    | exact fun h => h
    | exact fun _ _ => rfl
    | (with_reducible apply State.Within.step (State.egressFor_within ..)) <;> try decide
    | (with_reducible apply State.Within.step (State.drawn_within ..)) <;> try decide
    | (with_reducible apply State.Within.foldl) <;> try intro _ _
    | with_reducible apply State.Within.ite
    | dsimp only
    | split

theorem State.flushCmp_within (n : Nat) (s : State) : s.Within [.out, .freeCtr, .ing, .egr, .str, .mem] (State.flushCmp n s) := by
  induction n generalizing s with
  | zero => exact .refl _ _
  | succ n ih =>
    unfold State.flushCmp
    split
    · exact .refl _ _
    · exact .step (ih _) (by decide) (.step (State.egressCmp_within ..) (by decide)
        (.mono (State.onIng_within fun _ h => ⟨h.count, h.counters⟩) (by decide)))

theorem State.cmpFull_within (p : Pkt) (shown : Nat) (named : Option Nat) (status : Nat) (info : Nat) (r0 : BitVec 64) (r1 : BitVec 64) (r2 : BitVec 64) (s : State) : s.Within [.out, .freeCtr, .ing, .egr, .str, .mem] (State.cmpFull p shown named status info r0 r1 r2 s) := by
  unfold State.cmpFull
  repeat' first
    | with_reducible apply State.Within.refl
    | (with_reducible apply State.Within.step (State.finish_within ..)) <;> try decide
    | (with_reducible apply State.Within.step (State.onIng_within ?_)) <;> try decide
    | exact fun _ h => ⟨h.count, h.counters⟩
    | (with_reducible apply State.Within.step (State.egressCmp_within ..)) <;> try decide
    | (with_reducible apply State.Within.step (State.flushCmp_within ..)) <;> try decide
    | (with_reducible apply State.Within.foldl) <;> try intro _ _
    | with_reducible apply State.Within.ite
    | dsimp only
    | split

theorem State.cmp_within (p : Pkt) (status info : Nat) (r0 r1 r2 : Option Nat) (s : State) :
    s.Within [.out, .freeCtr, .ing, .egr, .str, .mem] (s.cmp p status info r0 r1 r2) :=
  .step (State.cmpFull_within ..) (by decide) ((State.draws_within 3 s).mono (by decide))

theorem State.refuse_within (p : Pkt) (status : Nat) (s : State) : s.Within [.out, .freeCtr, .ing, .egr, .str, .mem] (State.refuse p status s) := by
  unfold State.refuse
  repeat' first
    | with_reducible apply State.Within.refl
    | (with_reducible apply State.Within.step (State.cmp_within ..)) <;> try decide
    | (with_reducible apply State.Within.foldl) <;> try intro _ _
    | with_reducible apply State.Within.ite
    | dsimp only
    | split

theorem State.dropCache_within (guid : Nat) (s : State) : s.Within [.str] (State.dropCache guid s) := by
  unfold State.dropCache
  repeat' first
    | with_reducible apply State.Within.refl
    | (with_reducible apply State.Within.step (State.onStr_within ..)) <;> try decide
    | (with_reducible apply State.Within.foldl) <;> try intro _ _
    | with_reducible apply State.Within.ite
    | dsimp only
    | split

theorem State.detach_within (n : Nat) (s : State) : s.Within [.sch, .sto, .ber] (State.detach n s) := by
  unfold State.detach
  repeat' first
    | with_reducible apply State.Within.refl
    | (with_reducible apply State.Within.step (State.onPfx_within ..)) <;> try decide
    | (with_reducible apply State.Within.step (State.freeRecord_within ..)) <;> try decide
    | (with_reducible apply State.Within.foldl) <;> try intro _ _
    | with_reducible apply State.Within.ite
    | dsimp only
    | split

theorem State.removeLiterals_within (tag : Nat) (s : State) : s.Within [.ber] (State.removeLiterals tag s) := by
  unfold State.removeLiterals
  repeat' first
    | with_reducible apply State.Within.refl
    | (with_reducible apply State.Within.step (State.eraseIn_within ..)) <;> try decide
    | (with_reducible apply State.Within.step (State.onBer_within ..)) <;> try decide
    | (with_reducible apply State.Within.foldl) <;> try intro _ _
    | with_reducible apply State.Within.ite
    | dsimp only
    | split

theorem State.egress_within (n : Nat) (r : Rec) (s : State) : s.Within [.out, .egr, .str, .mem] (State.egress n r s) := by
  unfold State.egress
  repeat' first
    | with_reducible apply State.Within.refl
    | (with_reducible apply State.Within.step (State.egressFor_within ..)) <;> try decide
    | (with_reducible apply State.Within.foldl) <;> try intro _ _
    | with_reducible apply State.Within.ite
    | dsimp only
    | split

theorem State.queued_within (s : State) : s.Within [.mem] (State.queued s) := by
  unfold State.queued
  repeat' first
    | with_reducible apply State.Within.refl
    | (with_reducible apply State.Within.step (State.onMem_within ?_)) <;> try decide
    | exact fun _ h => ⟨h.units, h.arrays, h.patrol, h.counts, h.bound⟩
    | exact fun _ h => ⟨by simp [h.units], by simp [h.arrays], by simp [h.patrol], h.counts, h.bound⟩
    | (with_reducible apply State.Within.foldl) <;> try intro _ _
    | with_reducible apply State.Within.ite
    | dsimp only
    | split

/-- An evt record staged below the limit of 4,096. -/
theorem State.stageEvent_within (e : EvtRec) (s : State) (h : s.egr.evStaged.length < 4096) :
    s.Within [.egr] (s.onEgr (fun g => { g with evStaged := g.evStaged ++ [e] })) :=
  ⟨fun p hp => by cases p <;> first | rfl | simp at hp, rfl, ⟨[], by simp⟩, Nat.le_refl _, fun i =>
    ⟨i.aon, i.ing, ⟨i.egr.count, i.egr.idle, i.egr.events, by simp; omega⟩, i.mem⟩⟩

theorem State.eventFull_within (code stream unit a0 a1 a2 : Nat) (s : State) :
    s.Within [.out, .egr, .str, .mem] (s.eventFull code stream unit a0 a1 a2) := by
  have h1 : s.Within [.out, .egr, .str, .mem] s.queued := (State.queued_within s).mono (by decide)
  unfold State.eventFull
  dsimp only
  split
  · exact .step (State.egress_within ..) (by decide) h1
  · split
    · rename_i h
      exact .step (State.stageEvent_within _ _ h) (by decide) h1
    · exact .step (State.count_within ..) (by decide)
        (.step (State.onEgr_within fun _ h => ⟨h.count, h.idle, h.events, h.staged⟩) (by decide) h1)

theorem State.event_within (code : Nat) (a0 : Nat) (a1 : Nat) (a2 : Nat) (s : State) : s.Within [.out, .egr, .str, .mem] (State.event code a0 a1 a2 s) := by
  unfold State.event
  repeat' first
    | with_reducible apply State.Within.refl
    | (with_reducible apply State.Within.step (State.eventFull_within ..)) <;> try decide
    | (with_reducible apply State.Within.foldl) <;> try intro _ _
    | with_reducible apply State.Within.ite
    | dsimp only
    | split

theorem State.done_within (p : Pkt) (info : Nat) (r0 : Option Nat) (r1 : Option Nat) (r2 : Option Nat) (s : State) : s.Within [.out, .freeCtr, .ing, .egr, .str, .mem] (State.done p info r0 r1 r2 s) := by
  unfold State.done
  repeat' first
    | with_reducible apply State.Within.refl
    | (with_reducible apply State.Within.step (State.cmp_within ..)) <;> try decide
    | (with_reducible apply State.Within.foldl) <;> try intro _ _
    | with_reducible apply State.Within.ite
    | dsimp only
    | split

theorem State.rollback_within (pages : List Nat) (s : State) : s.Within [.sto] (State.rollback pages s) := by
  unfold State.rollback
  repeat' first
    | with_reducible apply State.Within.refl
    | (with_reducible apply State.Within.step (State.onSto_within ..)) <;> try decide
    | (with_reducible apply State.Within.foldl) <;> try intro _ _
    | with_reducible apply State.Within.ite
    | dsimp only
    | split

theorem State.stow_within (slot : Nat) (s : State) : s.Within [.str] (State.stow slot s) := by
  unfold State.stow
  repeat' first
    | with_reducible apply State.Within.refl
    | (with_reducible apply State.Within.step (State.onStream_within ..)) <;> try decide
    | (with_reducible apply State.Within.foldl) <;> try intro _ _
    | with_reducible apply State.Within.ite
    | dsimp only
    | split

theorem State.queueBackground_within (slot : Nat) (s : State) : s.Within [.str] (State.queueBackground slot s) := by
  unfold State.queueBackground
  repeat' first
    | with_reducible apply State.Within.refl
    | (with_reducible apply State.Within.step (State.onStream_within ..)) <;> try decide
    | (with_reducible apply State.Within.step (State.onStr_within ..)) <;> try decide
    | (with_reducible apply State.Within.foldl) <;> try intro _ _
    | with_reducible apply State.Within.ite
    | dsimp only
    | split

theorem State.renewShutter_within (slot : Nat) (s : State) : s.Within [.str] (State.renewShutter slot s) := by
  unfold State.renewShutter
  repeat' first
    | with_reducible apply State.Within.refl
    | (with_reducible apply State.Within.step (State.onStream_within ..)) <;> try decide
    | (with_reducible apply State.Within.step (State.queueBackground_within ..)) <;> try decide
    | (with_reducible apply State.Within.foldl) <;> try intro _ _
    | with_reducible apply State.Within.ite
    | dsimp only
    | split

theorem State.dropBuilds_within (slot : Nat) (s : State) : s.Within [.str] (State.dropBuilds slot s) := by
  unfold State.dropBuilds
  repeat' first
    | with_reducible apply State.Within.refl
    | (with_reducible apply State.Within.step (State.onStr_within ..)) <;> try decide
    | (with_reducible apply State.Within.foldl) <;> try intro _ _
    | with_reducible apply State.Within.ite
    | dsimp only
    | split

theorem State.holdStream_within (slot : Nat) (s : State) : s.Within [.out, .egr, .str, .mem] (State.holdStream slot s) := by
  unfold State.holdStream
  repeat' first
    | with_reducible apply State.Within.refl
    | (with_reducible apply State.Within.step (State.onStream_within ..)) <;> try decide
    | (with_reducible apply State.Within.step (State.event_within ..)) <;> try decide
    | (with_reducible apply State.Within.foldl) <;> try intro _ _
    | with_reducible apply State.Within.ite
    | dsimp only
    | split

theorem State.unholdTenant_within (tenant : Nat) (s : State) : s.Within [.out, .egr, .str, .mem] (State.unholdTenant tenant s) := by
  unfold State.unholdTenant
  repeat' first
    | with_reducible apply State.Within.refl
    | (with_reducible apply State.Within.step (State.onStr_within ..)) <;> try decide
    | (with_reducible apply State.Within.step (State.event_within ..)) <;> try decide
    | (with_reducible apply State.Within.foldl) <;> try intro _ _
    | with_reducible apply State.Within.ite
    | dsimp only
    | split

theorem State.admissibleBy_within (slot : Nat) (s : State) : s.Within [.out, .egr, .str, .mem] (State.admissibleBy slot s).1 := by
  unfold State.admissibleBy
  repeat' first
    | with_reducible apply State.Within.refl
    | (with_reducible apply State.Within.step (State.holdStream_within ..)) <;> try decide
    | (with_reducible apply State.Within.step (State.unholdTenant_within ..)) <;> try decide
    | (with_reducible apply State.Within.foldl) <;> try intro _ _
    | with_reducible apply State.Within.ite
    | dsimp only
    | split

theorem State.admissibleBy_of {slot : Nat} {s : State} {r} (h : State.admissibleBy slot s = r) : s.Within [.out, .egr, .str, .mem] r.1 := h ▸ State.admissibleBy_within slot s

theorem State.repairAdd_within (e : Repair) (s : State) : s.Within [.mem] (State.repairAdd e s) := by
  unfold State.repairAdd
  repeat' first
    | with_reducible apply State.Within.refl
    | (with_reducible apply State.Within.step (State.onMem_within ?_)) <;> try decide
    | exact fun _ h => ⟨h.units, h.arrays, h.patrol, h.counts, h.bound⟩
    | exact fun _ h => ⟨by simp [h.units], by simp [h.arrays], by simp [h.patrol], h.counts, h.bound⟩
    | (with_reducible apply State.Within.foldl) <;> try intro _ _
    | with_reducible apply State.Within.ite
    | dsimp only
    | split

theorem State.mapEntry_within (n : Nat) (q : Option Nat) (source : Nat) (s : State) : s.Within [.mem] (State.mapEntry n q source s) := by
  unfold State.mapEntry
  repeat' first
    | with_reducible apply State.Within.refl
    | (with_reducible apply State.Within.step (State.onMem_within ?_)) <;> try decide
    | exact fun _ h => ⟨h.units, h.arrays, h.patrol, h.counts, h.bound⟩
    | exact fun _ h => ⟨by simp [h.units], by simp [h.arrays], by simp [h.patrol], h.counts, h.bound⟩
    | (with_reducible apply State.Within.step (State.repairAdd_within ..)) <;> try decide
    | (with_reducible apply State.Within.foldl) <;> try intro _ _
    | with_reducible apply State.Within.ite
    | dsimp only
    | split

theorem State.attach_within (n : Nat) (s : State) : s.Within [.sto] (State.attach n s) := by
  unfold State.attach
  repeat' first
    | with_reducible apply State.Within.refl
    | (with_reducible apply State.Within.step (State.onPfx_within ..)) <;> try decide
    | (with_reducible apply State.Within.foldl) <;> try intro _ _
    | with_reducible apply State.Within.ite
    | dsimp only
    | split

theorem State.takePages_within {n : Nat} {s u : State} {ps : List Nat} (h : State.takePages n s = some (ps, u)) :
    s.Within [.sto] u := by
  unfold State.takePages at h
  split at h
  · dsimp only at h
    split at h
    · cases h
      exact .refl _ _
    · cases h
      exact State.onSto_within ..
  · cases h

theorem State.sendJoin_within (s : State) : s.Within [.out, .cas] (State.sendJoin s) := by
  unfold State.sendJoin
  repeat' first
    | with_reducible apply State.Within.refl
    | (with_reducible apply State.Within.step (State.onCas_within ..)) <;> try decide
    | (with_reducible apply State.Within.step (State.emits_within ..)) <;> try decide
    | (with_reducible apply State.Within.foldl) <;> try intro _ _
    | with_reducible apply State.Within.ite
    | dsimp only
    | split

theorem State.evict_within (k : Nat) (entry : Bool) (n : Nat) (s : State) : s.Within [.str] (State.evict k entry n s) := by
  induction n generalizing s with
  | zero => exact .refl _ _
  | succ n ih =>
    unfold State.evict
    split
    · exact .refl _ _
    · split
      · exact .refl _ _
      · exact .step (ih _) (by decide) (State.onStr_within ..)

theorem State.privInsert_within (bits : List Bool) (s : State) : s.Within [.str] (State.privInsert bits s).1 := by
  unfold State.privInsert
  repeat' first
    | with_reducible apply State.Within.refl
    | (with_reducible apply State.Within.step (State.evict_within ..)) <;> try decide
    | (with_reducible apply State.Within.foldl) <;> try intro _ _
    | with_reducible apply State.Within.ite
    | dsimp only
    | split

theorem State.privInsert_of {bits : List Bool} {s : State} {r} (h : State.privInsert bits s = r) : s.Within [.str] r.1 := h ▸ State.privInsert_within bits s

theorem State.setNode_within (slot : Nat) (node : Nat) (ps : Parse) (d : Shutter) (s : State) : s.Within [.str] (State.setNode slot node ps d s) := by
  unfold State.setNode
  repeat' first
    | with_reducible apply State.Within.refl
    | (with_reducible apply State.Within.step (State.onStream_within ..)) <;> try decide
    | (with_reducible apply State.Within.foldl) <;> try intro _ _
    | with_reducible apply State.Within.ite
    | dsimp only
    | split

theorem State.copyEntry_within (n : Nat) (i : Nat) (j : Nat) (s : State) : s.Within [.ber] (State.copyEntry n i j s) := by
  unfold State.copyEntry
  repeat' first
    | with_reducible apply State.Within.refl
    | (with_reducible apply State.Within.step (State.writeRow_within ..)) <;> try decide
    | (with_reducible apply State.Within.foldl) <;> try intro _ _
    | with_reducible apply State.Within.ite
    | dsimp only
    | split

theorem State.moveRun_within (n : Nat) (lo : Nat) (hi : Nat) (down : Bool) (s : State) : s.Within [.ber] (State.moveRun n lo hi down s) := by
  unfold State.moveRun
  repeat' first
    | with_reducible apply State.Within.refl
    | (with_reducible apply State.Within.step (State.copyEntry_within ..)) <;> try decide
    | (with_reducible apply State.Within.step (State.logicalCount_within ..)) <;> try decide
    | (with_reducible apply State.Within.foldl) <;> try intro _ _
    | with_reducible apply State.Within.ite
    | dsimp only
    | split

theorem State.writeEntry_within (n : Nat) (i : Nat) (e : BerylEntry) (s : State) : s.Within [.ber] (State.writeEntry n i e s) := by
  unfold State.writeEntry
  repeat' first
    | with_reducible apply State.Within.refl
    | (with_reducible apply State.Within.step (State.writeRow_within ..)) <;> try decide
    | (with_reducible apply State.Within.foldl) <;> try intro _ _
    | with_reducible apply State.Within.ite
    | dsimp only
    | split

theorem State.insertInto_within {n : Nat} {e : BerylEntry} {s u : State} (h : State.insertInto n e s = some u) :
    s.Within [.ber] u := by
  unfold State.insertInto at h
  split at h
  · cases h
  · dsimp only at h
    cases h
    refine .step (State.writeEntry_within ..) (by decide) ?_
    split
    · exact State.moveRun_within ..
    · exact .refl _ _

theorem State.placeIn_within (c : Nat) (n : Nat) (e : BerylEntry) (s : State) : s.Within [.ber] (State.placeIn c n e s) := by
  unfold State.placeIn
  repeat' first
    | with_reducible apply State.Within.refl
    | (with_reducible apply State.Within.step (State.waitIn_within ..)) <;> try decide
    | (with_reducible apply State.Within.step (State.took_within ..)) <;> try decide
    | (with_reducible apply State.Within.step (State.insertInto_within (by assumption))) <;> try decide
    | (with_reducible apply State.Within.foldl) <;> try intro _ _
    | with_reducible apply State.Within.ite
    | dsimp only
    | split

theorem State.insertUse_within {c k : Nat} {e : BerylEntry} {s u : State} (h : State.insertUse c k e s = some u) :
    s.Within [.ber] u := by
  unfold State.insertUse at h
  simp only [Option.map_eq_some_iff] at h
  obtain ⟨n, _, rfl⟩ := h
  exact State.placeIn_within ..

theorem State.signalOwed_within (s : State) : s.Within [.out, .aon] (State.signalOwed s) := by
  unfold State.signalOwed
  repeat' first
    | with_reducible apply State.Within.refl
    | (with_reducible apply State.Within.step (State.emits_within ..)) <;> try decide
    | (with_reducible apply State.Within.step (State.onAon_within ?_)) <;> try decide
    | exact fun _ h => ⟨h.sensors, h.domains, h.counters, h.vset, h.thresh, h.causes⟩
    | exact fun _ h => ⟨by simp [h.sensors], by simp [h.domains], h.counters, h.vset, h.thresh, h.causes⟩
    | (with_reducible apply State.Within.foldl) <;> try intro _ _
    | with_reducible apply State.Within.ite
    | dsimp only
    | split

theorem State.fullWake_within (s : State) : s.Within [.out, .aon, .start, .ber, .mem, .cas] (State.fullWake s) := by
  unfold State.fullWake
  repeat' first
    | with_reducible apply State.Within.refl
    | (with_reducible apply State.Within.step (State.onMem_within ?_)) <;> try decide
    | exact fun _ h => ⟨h.units, h.arrays, h.patrol, h.counts, h.bound⟩
    | exact fun _ h => ⟨by simp [h.units], by simp [h.arrays], by simp [h.patrol], h.counts, h.bound⟩
    | (with_reducible apply State.Within.step (State.onStart_within ..)) <;> try decide
    | (with_reducible apply State.Within.step (State.signalOwed_within ..)) <;> try decide
    | (with_reducible apply State.Within.step (State.onCas_within ..)) <;> try decide
    | (with_reducible apply State.Within.step (State.sendJoin_within ..)) <;> try decide
    | (with_reducible apply State.Within.step (State.onAon_within ?_)) <;> try decide
    | exact fun _ h => ⟨h.sensors, h.domains, h.counters, h.vset, h.thresh, h.causes⟩
    | exact fun _ h => ⟨by simp [h.sensors], by simp [h.domains], h.counters, h.vset, h.thresh, h.causes⟩
    | (with_reducible apply State.Within.step (State.onBer_within ..)) <;> try decide
    | (with_reducible apply State.Within.step (State.emit_within ..)) <;> try decide
    | (with_reducible apply State.Within.foldl) <;> try intro _ _
    | with_reducible apply State.Within.ite
    | dsimp only
    | split

theorem State.wakeCause_within (s : State) : s.Within [.out, .aon, .start, .ber, .mem, .cas] (State.wakeCause s) := by
  unfold State.wakeCause
  repeat' first
    | with_reducible apply State.Within.refl
    | (with_reducible apply State.Within.step (State.fullWake_within ..)) <;> try decide
    | (with_reducible apply State.Within.foldl) <;> try intro _ _
    | with_reducible apply State.Within.ite
    | dsimp only
    | split

theorem State.aonCtl_within (vset : Nat) (autoGate sleep : Bool) (s : State) :
    s.Within [.out, .aon, .start, .ber, .mem, .cas] (s.aonCtl vset autoGate sleep) := by
  have h1 : s.Within [.out, .aon, .start, .ber, .mem, .cas] (s.onAon (fun a =>
      { a with vset := if vset < 31 then vset else a.vset, autoGate := autoGate, sleepReq := sleep })) :=
    .mono (State.onAon_within fun a h => ⟨h.sensors, h.domains, h.counters, by dsimp only; split <;> first | assumption | exact h.vset,
      h.thresh, h.causes⟩) (by decide)
  unfold State.aonCtl
  dsimp only
  split
  · exact .refl _ _
  · split
    · exact .step (State.wakeCause_within ..) (by decide) h1
    · exact h1

theorem State.beginBuild_within (slot : Nat) (node : Nat) (s : State) : s.Within [.str] (State.beginBuild slot node s) := by
  unfold State.beginBuild
  repeat' first
    | with_reducible apply State.Within.refl
    | (with_reducible apply State.Within.step (State.onStr_within ..)) <;> try decide
    | (with_reducible apply State.Within.step (State.setNode_within ..)) <;> try decide
    | (with_reducible apply State.Within.foldl) <;> try intro _ _
    | with_reducible apply State.Within.ite
    | dsimp only
    | split

theorem State.start__within (p : Pkt) (s : State) : s.Within [.ing, .mem] (State.start_ p s) := by
  unfold State.start_
  repeat' first
    | with_reducible apply State.Within.refl
    | (with_reducible apply State.Within.step (State.onMem_within ?_)) <;> try decide
    | exact fun _ h => ⟨h.units, h.arrays, h.patrol, h.counts, h.bound⟩
    | exact fun _ h => ⟨by simp [h.units], by simp [h.arrays], by simp [h.patrol], h.counts, h.bound⟩
    | (with_reducible apply State.Within.step (State.onIng_within ?_)) <;> try decide
    | exact fun _ h => ⟨h.count, h.counters⟩
    | (with_reducible apply State.Within.foldl) <;> try intro _ _
    | with_reducible apply State.Within.ite
    | dsimp only
    | split

theorem State.putResult_within (c : Nat) (r : BitVec 128) (s : State) : s.Within [.ber] (State.putResult c r s) := by
  unfold State.putResult
  repeat' first
    | with_reducible apply State.Within.refl
    | (with_reducible apply State.Within.step (State.onBer_within ..)) <;> try decide
    | (with_reducible apply State.Within.foldl) <;> try intro _ _
    | with_reducible apply State.Within.ite
    | dsimp only
    | split

theorem State.answer_within (q : HeldReq) (held : Bool) (win : Option (Nat × Nat)) (multi : Bool) (s : State) : s.Within [.ber] (State.answer q held win multi s) := by
  unfold State.answer
  repeat' first
    | with_reducible apply State.Within.refl
    | (with_reducible apply State.Within.step (State.putResult_within ..)) <;> try decide
    | (with_reducible apply State.Within.foldl) <;> try intro _ _
    | with_reducible apply State.Within.ite
    | dsimp only
    | split

theorem State.rewriteEntry_within (n : Nat) (e : Nat) (s : State) : s.Within [.ber] (State.rewriteEntry n e s) := by
  unfold State.rewriteEntry
  repeat' first
    | with_reducible apply State.Within.refl
    | (with_reducible apply State.Within.step (State.writeRow_within ..)) <;> try decide
    | (with_reducible apply State.Within.foldl) <;> try intro _ _
    | with_reducible apply State.Within.ite
    | dsimp only
    | split

theorem State.dropRecords_within (nums : List Nat) (s : State) : s.Within [.sch, .sto, .ber] (State.dropRecords nums s) := by
  unfold State.dropRecords
  repeat' first
    | with_reducible apply State.Within.refl
    | (with_reducible apply State.Within.step (State.onPfx_within ..)) <;> try decide
    | (with_reducible apply State.Within.step (State.freeRecord_within ..)) <;> try decide
    | (with_reducible apply State.Within.step (State.removeUse_within ..)) <;> try decide
    | (with_reducible apply State.Within.foldl) <;> try intro _ _
    | with_reducible apply State.Within.ite
    | dsimp only
    | split

theorem State.restoreUse_within (use n : Nat) (s : State) : s.Within [.sch, .sto, .ber] (State.restoreUse use n s) := by
  have hi {c k : Nat} {e : BerylEntry} (u : State) : u.Within [.sch, .sto, .ber] ((u.insertUse c k e).getD u) :=
    .getD (fun v hv => (State.insertUse_within hv).mono (by decide)) (.refl _ _)
  unfold State.restoreUse
  dsimp only
  refine .ite (.foldl (fun u x => .ite (.refl _ _) ((State.placeIn_within ..).mono (by decide))) _ (.refl _ _))
    (.ite (.foldl (fun u x => .ite (hi u) (.refl _ _)) _ (.refl _ _)) (.ite (.foldl (fun u x => .ite (hi u) (.refl _ _)) _ (.refl _ _))
      (.ite ((State.dropRecords_within ..).mono (by decide)) (.refl _ _))))

theorem State.distrust_within (n : Nat) (e : Nat) (s : State) : s.Within [.sch, .sto, .ber] (State.distrust n e s) := by
  unfold State.distrust
  repeat' first
    | with_reducible apply State.Within.refl
    | (with_reducible apply State.Within.step (State.restoreUse_within ..)) <;> try decide
    | (with_reducible apply State.Within.step (State.clearEntry_within ..)) <;> try decide
    | (with_reducible apply State.Within.foldl) <;> try intro _ _
    | with_reducible apply State.Within.ite
    | dsimp only
    | split

theorem State.emptyBank_within (n : Nat) (s : State) : s.Within [.ber] (State.emptyBank n s) := by
  unfold State.emptyBank
  repeat' first
    | with_reducible apply State.Within.refl
    | (with_reducible apply State.Within.step (State.onBer_within ..)) <;> try decide
    | (with_reducible apply State.Within.foldl) <;> try intro _ _
    | with_reducible apply State.Within.ite
    | dsimp only
    | split

theorem State.deadBank_within (n : Nat) (s : State) : s.Within [.ber, .mem] (State.deadBank n s) := by
  unfold State.deadBank
  repeat' first
    | with_reducible apply State.Within.refl
    | (with_reducible apply State.Within.step (State.emptyBank_within ..)) <;> try decide
    | (with_reducible apply State.Within.step (State.mapEntry_within ..)) <;> try decide
    | (with_reducible apply State.Within.step (State.onBer_within ..)) <;> try decide
    | (with_reducible apply State.Within.foldl) <;> try intro _ _
    | with_reducible apply State.Within.ite
    | dsimp only
    | split

theorem State.signalCause_within (s : State) : s.Within [.out, .aon] (State.signalCause s) := by
  unfold State.signalCause
  repeat' first
    | with_reducible apply State.Within.refl
    | (with_reducible apply State.Within.step (State.onAon_within ?_)) <;> try decide
    | exact fun _ h => ⟨h.sensors, h.domains, h.counters, h.vset, h.thresh, h.causes⟩
    | exact fun _ h => ⟨by simp [h.sensors], by simp [h.domains], h.counters, h.vset, h.thresh, h.causes⟩
    | (with_reducible apply State.Within.step (State.emit_within ..)) <;> try decide
    | (with_reducible apply State.Within.foldl) <;> try intro _ _
    | with_reducible apply State.Within.ite
    | dsimp only
    | split

theorem State.raise_within {n : Nat} (hn : n < 19) (s : State) : s.Within [.out, .aon] (s.raise n) := by
  have h1 : s.Within [.out, .aon] (s.onAon (fun a => { a with cause := a.cause ||| BitVec.ofNat 32 (2 ^ n) })) := by
    refine .mono (State.onAon_within fun a h => ⟨h.sensors, h.domains, h.counters, h.vset, h.thresh, ?_⟩) (by decide)
    have hp : 2 ^ n < 2 ^ 19 := Nat.pow_lt_pow_right (by decide) hn
    simp only [BitVec.toNat_or, BitVec.toNat_ofNat]
    exact Nat.or_lt_two_pow h.causes (Nat.lt_of_le_of_lt (Nat.mod_le _ _) hp)
  unfold State.raise
  split
  · exact .refl _ _
  · dsimp only
    split
    · exact .step (State.signalCause_within ..) (by decide) h1
    · exact h1

theorem State.bankFailed_within (b : Nat) (s : State) : s.Within [.out, .aon, .ber, .mem] (State.bankFailed b s) := by
  unfold State.bankFailed
  repeat' first
    | with_reducible apply State.Within.refl
    | (with_reducible apply State.Within.step (State.onMem_within ?_)) <;> try decide
    | exact fun _ h => ⟨h.units, h.arrays, h.patrol, h.counts, h.bound⟩
    | exact fun _ h => ⟨by simp [h.units], by simp [h.arrays], by simp [h.patrol], h.counts, h.bound⟩
    | (with_reducible apply State.Within.step (State.raise_within ..)) <;> try decide
    | (with_reducible apply State.Within.step (State.onBer_within ..)) <;> try decide
    | (with_reducible apply State.Within.foldl) <;> try intro _ _
    | with_reducible apply State.Within.ite
    | dsimp only
    | split

theorem State.remapLiteral_within (tag : Nat) (n : Nat) (m : Nat) (s : State) : s.Within [.img] (State.remapLiteral tag n m s) := by
  unfold State.remapLiteral
  repeat' first
    | with_reducible apply State.Within.refl
    | (with_reducible apply State.Within.step (State.onImg_within ..)) <;> try decide
    | (with_reducible apply State.Within.foldl) <;> try intro _ _
    | with_reducible apply State.Within.ite
    | dsimp only
    | split

theorem State.rehome_within (use : Nat) (n : Nat) (e : BerylEntry) (s : State) : s.Within [.img, .str, .ber] (State.rehome use n e s) := by
  unfold State.rehome
  repeat' first
    | with_reducible apply State.Within.refl
    | (with_reducible apply State.Within.step (State.onBer_within ..)) <;> try decide
    | (with_reducible apply State.Within.step (State.placeIn_within ..)) <;> try decide
    | (with_reducible apply State.Within.step (State.onStr_within ..)) <;> try decide
    | (with_reducible apply State.Within.step (State.remapLiteral_within ..)) <;> try decide
    | (with_reducible apply State.Within.foldl) <;> try intro _ _
    | with_reducible apply State.Within.ite
    | dsimp only
    | split

theorem State.scatter_within (n : Nat) (s : State) : s.Within [.out, .aon, .img, .str, .ber, .mem] (State.scatter n s) :=
  .foldl (fun _ _ => (State.rehome_within ..).mono (by decide)) _
    (.step (State.raise_within (by decide) _) (by decide) ((State.deadBank_within ..).mono (by decide)))

theorem State.failBank_within (b : Nat) (s : State) : s.Within [.out, .aon, .egr, .img, .str, .sch, .sto, .ber, .mem] (State.failBank b s) := by
  unfold State.failBank
  repeat' first
    | with_reducible apply State.Within.refl
    | (with_reducible apply State.Within.step (State.deadBank_within ..)) <;> try decide
    | (with_reducible apply State.Within.step (State.mapEntry_within ..)) <;> try decide
    | (with_reducible apply State.Within.step (State.eventFull_within ..)) <;> try decide
    | (with_reducible apply State.Within.step (State.dropRecords_within ..)) <;> try decide
    | (with_reducible apply State.Within.step (State.onBer_within ..)) <;> try decide
    | (with_reducible apply State.Within.step (State.bankFailed_within ..)) <;> try decide
    | (with_reducible apply State.Within.step (State.scatter_within ..)) <;> try decide
    | (with_reducible apply State.Within.foldl) <;> try intro _ _
    | with_reducible apply State.Within.ite
    | dsimp only
    | split

theorem State.useSlots_within (banks : List Nat) (c : Nat) (k : Nat) (s : State) : s.Within [.ber] (State.useSlots banks c k s) := by
  unfold State.useSlots
  repeat' first
    | with_reducible apply State.Within.refl
    | (with_reducible apply State.Within.step (State.bankCount_within ..)) <;> try decide
    | (with_reducible apply State.Within.step (State.onBer_within ..)) <;> try decide
    | (with_reducible apply State.Within.foldl) <;> try intro _ _
    | with_reducible apply State.Within.ite
    | dsimp only
    | split

theorem State.search_within (q : HeldReq) (held : Bool) (bad : Option Nat) (stuck : Bool) (s : State) : s.Within [.out, .aon, .egr, .img, .str, .sch, .sto, .ber, .mem] (State.search q held bad stuck s) := by
  unfold State.search
  repeat' first
    | with_reducible apply State.Within.refl
    | (with_reducible apply State.Within.step (State.answer_within ..)) <;> try decide
    | (with_reducible apply State.Within.step (State.rewriteEntry_within ..)) <;> try decide
    | (with_reducible apply State.Within.step (State.logicalCount_within ..)) <;> try decide
    | (with_reducible apply State.Within.step (State.distrust_within ..)) <;> try decide
    | (with_reducible apply State.Within.step (State.failBank_within ..)) <;> try decide
    | (with_reducible apply State.Within.step (State.onBer_within ..)) <;> try decide
    | (with_reducible apply State.Within.step (State.useSlots_within ..)) <;> try decide
    | (with_reducible apply State.Within.foldl) <;> try intro _ _
    | with_reducible apply State.Within.ite
    | dsimp only
    | split

theorem State.dbgSearch_within (s : State) : s.Within [.out, .aon, .egr, .img, .str, .sch, .sto, .ber, .mem] (State.dbgSearch s) := by
  unfold State.dbgSearch
  repeat' first
    | with_reducible apply State.Within.refl
    | (with_reducible apply State.Within.step (State.onBer_within ..)) <;> try decide
    | (with_reducible apply State.Within.step (State.search_within ..)) <;> try decide
    | (with_reducible apply State.Within.foldl) <;> try intro _ _
    | with_reducible apply State.Within.ite
    | dsimp only
    | split

theorem State.wakeDomain_within (d : Nat) (s : State) : s.Within [.aon] (State.wakeDomain d s) := by
  unfold State.wakeDomain
  repeat' first
    | with_reducible apply State.Within.refl
    | (with_reducible apply State.Within.step (State.onAon_within ?_)) <;> try decide
    | exact fun _ h => ⟨h.sensors, h.domains, h.counters, h.vset, h.thresh, h.causes⟩
    | exact fun _ h => ⟨by simp [h.sensors], by simp [h.domains], h.counters, h.vset, h.thresh, h.causes⟩
    | (with_reducible apply State.Within.foldl) <;> try intro _ _
    | with_reducible apply State.Within.ite
    | dsimp only
    | split

theorem State.workDone_within (kind : Nat) (w : FaultWork) (s : State) : s.Within [.mem] (State.workDone kind w s) := by
  unfold State.workDone
  repeat' first
    | with_reducible apply State.Within.refl
    | (with_reducible apply State.Within.step (State.onMem_within ?_)) <;> try decide
    | exact fun _ h => ⟨h.units, h.arrays, h.patrol, h.counts, h.bound⟩
    | exact fun _ h => ⟨by simp [h.units], by simp [h.arrays], by simp [h.patrol], h.counts, h.bound⟩
    | (with_reducible apply State.Within.foldl) <;> try intro _ _
    | with_reducible apply State.Within.ite
    | dsimp only
    | split

theorem State.putBudget_within (b : Budget) (s : State) : s.Within [.sto] (State.putBudget b s) := by
  unfold State.putBudget
  repeat' first
    | with_reducible apply State.Within.refl
    | (with_reducible apply State.Within.step (State.onSto_within ..)) <;> try decide
    | (with_reducible apply State.Within.foldl) <;> try intro _ _
    | with_reducible apply State.Within.ite
    | dsimp only
    | split

theorem State.granted_within (tenant : Nat) (units : Nat) (s : State) : s.Within [.sto] (State.granted tenant units s) := by
  unfold State.granted
  repeat' first
    | with_reducible apply State.Within.refl
    | (with_reducible apply State.Within.step (State.putBudget_within ..)) <;> try decide
    | (with_reducible apply State.Within.foldl) <;> try intro _ _
    | with_reducible apply State.Within.ite
    | dsimp only
    | split

theorem State.spillLow_within (n : Nat) (s : State) : s.Within [.str] (State.spillLow n s) := by
  induction n generalizing s with
  | zero => exact .refl _ _
  | succ n ih =>
    unfold State.spillLow
    split
    · split
      · exact .refl _ _
      · exact .step (ih _) (by decide) (State.onStream_within ..)
    · exact .refl _ _

theorem State.settleStack_within (slot : Nat) (s : State) : s.Within [.str] (State.settleStack slot s) := by
  unfold State.settleStack
  repeat' first
    | with_reducible apply State.Within.refl
    | (with_reducible apply State.Within.step (State.onStream_within ..)) <;> try decide
    | (with_reducible apply State.Within.step (State.spillLow_within ..)) <;> try decide
    | (with_reducible apply State.Within.foldl) <;> try intro _ _
    | with_reducible apply State.Within.ite
    | dsimp only
    | split

theorem State.mirrored_within {D : List Field} {now : State → State} (hd : [Field.out, Field.cas].all D.contains = true)
    (hn : ∀ u : State, u.Within D (now u)) (c : LedgerChange) (o : Owed) (s : State) : s.Within D (s.mirrored c o now) := by
  unfold State.mirrored
  split
  · exact .mono (.step (D := [.out, .cas]) (State.send_within ..) (by decide) ((State.onCas_within ..).mono (by decide))) hd
  · exact hn s

theorem State.askAgain_within (tenant : Nat) (s : State) : s.Within [.sto, .cas] (State.askAgain tenant s) := by
  unfold State.askAgain
  repeat' first
    | with_reducible apply State.Within.refl
    | (with_reducible apply State.Within.step (State.onCas_within ..)) <;> try decide
    | (with_reducible apply State.Within.step (State.putBudget_within ..)) <;> try decide
    | with_reducible apply State.Within.ite
    | dsimp only
    | split

theorem State.sendGrant_within (dest : Nat) (tenant : Nat) (units : Nat) (s : State) : s.Within [.out, .sto, .cas] (State.sendGrant dest tenant units s) := by
  unfold State.sendGrant
  repeat' first
    | with_reducible apply State.Within.refl
    | (with_reducible apply State.Within.step (State.askAgain_within ..)) <;> try decide
    | (with_reducible apply State.Within.step (State.granted_within ..)) <;> try decide
    | (with_reducible apply State.Within.step (State.send_within ..)) <;> try decide
    | (with_reducible apply State.Within.foldl) <;> try intro _ _
    | with_reducible apply State.Within.ite
    | dsimp only
    | split

theorem State.masterGrant_within (dest tenant units : Nat) (s : State) :
    s.Within [.out, .sto, .cas] (s.masterGrant dest tenant units) := by
  unfold State.masterGrant
  split
  · exact .refl _ _
  · dsimp only
    split
    · exact (State.onCas_within ..).mono (by decide)
    · exact .step (State.mirrored_within (D := [.out, .sto, .cas]) (by decide)
        (fun u => (State.sendGrant_within ..).mono (by decide)) ..) (by decide) ((State.onCas_within ..).mono (by decide))

theorem State.askGrant_within (tenant : Nat) (s : State) : s.Within [.out, .sto, .cas] (State.askGrant tenant s) := by
  unfold State.askGrant
  repeat' first
    | with_reducible apply State.Within.refl
    | (with_reducible apply State.Within.step (State.putBudget_within ..)) <;> try decide
    | (with_reducible apply State.Within.step (State.masterGrant_within ..)) <;> try decide
    | (with_reducible apply State.Within.step (State.send_within ..)) <;> try decide
    | (with_reducible apply State.Within.foldl) <;> try intro _ _
    | with_reducible apply State.Within.ite
    | dsimp only
    | split

theorem State.askSpent_within (tenant : Nat) (s : State) : s.Within [.out, .sto, .cas] (State.askSpent tenant s) := by
  unfold State.askSpent
  repeat' first
    | with_reducible apply State.Within.refl
    | (with_reducible apply State.Within.step (State.askGrant_within ..)) <;> try decide
    | with_reducible apply State.Within.ite
    | dsimp only
    | split

theorem State.settleOwn_within (tenant : Nat) (s : State) : s.Within [.out, .egr, .str, .sto, .mem, .cas] (State.settleOwn tenant s) := by
  unfold State.settleOwn
  repeat' first
    | with_reducible apply State.Within.refl
    | (with_reducible apply State.Within.step (State.unholdTenant_within ..)) <;> try decide
    | (with_reducible apply State.Within.step (State.askSpent_within ..)) <;> try decide
    | with_reducible apply State.Within.ite
    | dsimp only
    | split

theorem State.charge_within (tenant : Nat) (units : Budget → Nat) (s : State) : s.Within [.out, .sto, .cas] (State.charge tenant units s) := by
  unfold State.charge
  repeat' first
    | with_reducible apply State.Within.refl
    | (with_reducible apply State.Within.step (State.putBudget_within ..)) <;> try decide
    | (with_reducible apply State.Within.step (State.askGrant_within ..)) <;> try decide
    | (with_reducible apply State.Within.foldl) <;> try intro _ _
    | with_reducible apply State.Within.ite
    | dsimp only
    | split

theorem State.unholdAll_within (s : State) : s.Within [.out, .egr, .str, .mem] (State.unholdAll s) := by
  unfold State.unholdAll
  repeat' first
    | with_reducible apply State.Within.refl
    | (with_reducible apply State.Within.step (State.unholdTenant_within ..)) <;> try decide
    | (with_reducible apply State.Within.foldl) <;> try intro _ _
    | with_reducible apply State.Within.ite
    | dsimp only
    | split

theorem State.mirrorPut_within (b : BudSet) (level : Int) (s : State) : s.Within [.cas] (State.mirrorPut b level s) := by
  unfold State.mirrorPut
  repeat' first
    | with_reducible apply State.Within.refl
    | (with_reducible apply State.Within.step (State.onCas_within ..)) <;> try decide
    | (with_reducible apply State.Within.foldl) <;> try intro _ _
    | with_reducible apply State.Within.ite
    | dsimp only
    | split

theorem State.setGroup_within {r : BudSet} {s u : State} {l : Int} (h : State.setGroup r s = some (u, l)) :
    s.Within [.cas] u := by
  unfold State.setGroup at h
  split at h
  · dsimp only at h
    split at h
    · cases h
      exact State.onCas_within ..
    · cases h
      exact State.onCas_within ..
  · split at h
    · cases h
      exact .refl _ _
    · split at h
      · cases h
      · cases h
        exact State.onCas_within ..

theorem State.lookup_within (c : Nat) (use : Nat) (key : List Nat) (s : State) : s.Within [.ber] (State.lookup c use key s) := by
  unfold State.lookup
  repeat' first
    | with_reducible apply State.Within.refl
    | (with_reducible apply State.Within.step (State.rewriteEntry_within ..)) <;> try decide
    | (with_reducible apply State.Within.step (State.logicalCount_within ..)) <;> try decide
    | (with_reducible apply State.Within.step (State.useSlots_within ..)) <;> try decide
    | (with_reducible apply State.Within.foldl) <;> try intro _ _
    | with_reducible apply State.Within.ite
    | dsimp only
    | split

theorem State.setLocal_within {c : Nat} {r : BudSet} {s u : State} {l : Int} (h : State.setLocal c r s = some (u, l)) :
    s.Within [.sto, .ber] u := by
  have h1 : s.Within [.sto, .ber] (s.lookup c 3 [r.tenant]) := (State.lookup_within ..).mono (by decide)
  unfold State.setLocal at h
  dsimp only at h
  split at h
  · split at h
    · simp only [Option.some.injEq, Prod.mk.injEq] at h
      obtain ⟨rfl, -⟩ := h
      exact .step (State.removeUse_within ..) (by decide) (.step (State.onSto_within ..) (by decide) h1)
    · simp only [Option.some.injEq, Prod.mk.injEq] at h
      obtain ⟨rfl, -⟩ := h
      exact .step (State.putBudget_within ..) (by decide) h1
  · split at h
    · cases h
      exact h1
    · split at h
      · cases h
      · split at h
        · cases h
        · rename_i hs
          cases h
          exact .step (State.putBudget_within ..) (by decide) (.step (State.insertUse_within hs) (by decide) h1)

theorem State.followLedger_within (r : BudSet) (s : State) : s.Within [.sto, .ber] (s.followLedger r) := by
  unfold State.followLedger
  split
  · rename_i h
    exact State.setLocal_within h
  · exact .refl _ _

theorem State.tellMembers_within (r : BudSet) (s : State) : s.Within [.out, .sto, .ber] (State.tellMembers r s) := by
  unfold State.tellMembers
  repeat' first
    | with_reducible apply State.Within.refl
    | (with_reducible apply State.Within.step (State.followLedger_within ..)) <;> try decide
    | (with_reducible apply State.Within.step (State.send_within ..)) <;> try decide
    | (with_reducible apply State.Within.foldl) <;> try intro _ _
    | with_reducible apply State.Within.ite
    | dsimp only
    | split

theorem State.masterSet_within {D : List Field} {now : Int → State → State} {full : State → State}
    (hd : [Field.out, .egr, .str, .sto, .ber, .mem, .cas].all D.contains = true) (hn : ∀ (l : Int) (u : State), u.Within D (now l u))
    (hf : ∀ u : State, u.Within D (full u)) (r : BudSet) (owed : Int → Owed) (s : State) :
    s.Within D (s.masterSet r owed now full) := by
  have h2 : [Field.out, Field.cas].all D.contains = true := by simp at hd ⊢; simp [hd]
  have h3 : [Field.cas].all D.contains = true := by simp at hd ⊢; simp [hd]
  have h4 : [Field.out, Field.sto, Field.ber].all D.contains = true := by simp at hd ⊢; simp [hd]
  have h5 : [Field.out, .egr, .str, .sto, .mem, .cas].all D.contains = true := by simp at hd ⊢; simp [hd]
  unfold State.masterSet
  split
  · exact hf s
  · rename_i hs
    dsimp only
    exact .step (State.settleOwn_within ..) h5 (.step (State.mirrored_within h2 (hn _) ..) (by simp [List.all_eq_true])
      (.step (State.tellMembers_within ..) h4 ((State.setGroup_within hs).mono h3)))

theorem State.payOwed_within (o : Owed) (s : State) : s.Within [.out, .freeCtr, .ing, .egr, .str, .sto, .mem, .cas] (State.payOwed o s) := by
  unfold State.payOwed
  repeat' first
    | with_reducible apply State.Within.refl
    | (with_reducible apply State.Within.step (State.unholdTenant_within ..)) <;> try decide
    | (with_reducible apply State.Within.step (State.sendGrant_within ..)) <;> try decide
    | (with_reducible apply State.Within.step (State.done_within ..)) <;> try decide
    | (with_reducible apply State.Within.step (State.send_within ..)) <;> try decide
    | (with_reducible apply State.Within.foldl) <;> try intro _ _
    | with_reducible apply State.Within.ite
    | dsimp only
    | split

theorem State.egressAll_within (n : Nat) (who : Option Nat) (l : List Rec) (s : State) : s.Within [.out, .egr, .str, .mem] (State.egressAll n who l s) := by
  unfold State.egressAll
  repeat' first
    | with_reducible apply State.Within.refl
    | (with_reducible apply State.Within.step (State.egressFor_within ..)) <;> try decide
    | (with_reducible apply State.Within.foldl) <;> try intro _ _
    | with_reducible apply State.Within.ite
    | dsimp only
    | split

theorem decTokWork_within (p : Pkt) (s : State) : s.Within [.out, .freeCtr, .ing, .egr, .str, .mem] (decTokWork p s) := by
  unfold decTokWork
  repeat' first
    | with_reducible apply State.Within.refl
    | (with_reducible apply State.Within.step (State.refuse_within ..)) <;> try decide
    | (with_reducible apply State.Within.step (State.done_within ..)) <;> try decide
    | (with_reducible apply State.Within.step (State.egressAll_within ..)) <;> try decide
    | (with_reducible apply State.Within.foldl) <;> try intro _ _
    | with_reducible apply State.Within.ite
    | dsimp only
    | split

theorem State.releaseRing_within (s : State) : s.Within [.str] (State.releaseRing s) := by
  unfold State.releaseRing
  repeat' first
    | with_reducible apply State.Within.refl
    | (with_reducible apply State.Within.step (State.onStr_within ..)) <;> try decide
    | (with_reducible apply State.Within.foldl) <;> try intro _ _
    | with_reducible apply State.Within.ite
    | dsimp only
    | split

theorem State.takeStack_within {slot : Nat} {s u : State} (h : State.takeStack slot s = some u) : s.Within [.str] u := by
  unfold State.takeStack at h
  split at h
  · cases h
  · split at h
    · cases h
      exact State.onStream_within ..
    · dsimp only at h
      split at h
      · cases h
      · cases h
        exact .step (State.spillLow_within ..) (by decide) (.step (State.onStream_within ..) (by decide)
          (.step (State.onStream_within ..) (by decide) (State.spillLow_within ..)))

theorem State.settleNew_within (slot : Nat) (s : State) : s.Within [.str] (State.settleNew slot s) := by
  unfold State.settleNew
  split
  · rename_i h
    exact State.takeStack_within h
  · exact State.onStream_within ..

theorem State.latchRows_within (slot : Nat) (node : Nat) (s : State) : s.Within [.sch] (State.latchRows slot node s) := by
  unfold State.latchRows
  repeat' first
    | with_reducible apply State.Within.refl
    | (with_reducible apply State.Within.step (State.onSch_within ..)) <;> try decide
    | (with_reducible apply State.Within.foldl) <;> try intro _ _
    | with_reducible apply State.Within.ite
    | dsimp only
    | split

theorem State.arrives_within {D : List Field} {act : State → State}
    (hd : [Field.out, .aon, .start, .ber, .mem, .cas].all D.contains = true) (ha : ∀ u : State, u.Within D (act u)) (hdr : MsgHdr)
    (checked : Bool) (s : State) : s.Within D (s.arrives hdr checked act) := by
  have h1 : s.Within D s.wakeCause := (State.wakeCause_within s).mono hd
  have h2 : [Field.mem].all D.contains = true := by simp at hd ⊢; simp [hd]
  unfold State.arrives
  dsimp only
  exact .ite h1 (.ite (.step (State.count_within ..) h2 h1) (.step (ha _) (by simp [List.all_eq_true]) h1))

theorem State.hear_within {D : List Field} {act : State → State}
    (hd : [Field.out, .aon, .start, .ber, .mem, .cas].all D.contains = true) (ha : ∀ u : State, u.Within D (act u)) (hdr : MsgHdr)
    (checked : Bool) (s : State) : s.Within D (s.hear hdr checked act) :=
  State.arrives_within hd (fun u => .ite (.refl _ _) (ha u)) ..

theorem State.onAp_within {n : Nat} {f : Aperture → Aperture} {s : State}
    (hf : ∀ a : Aperture, (a.discarded < 2 ^ 16 ∧ a.reads < 2 ^ 16) → (f a).discarded < 2 ^ 16 ∧ (f a).reads < 2 ^ 16) :
    s.Within [.ing] (s.onAp n f) := by
  refine State.onIng_within fun g h => ⟨by simp [h.count], fun a ha => ?_⟩
  rcases mem_modifyAt {} ha with ha | ⟨hn, rfl⟩
  · exact h.counters a ha
  · refine hf _ (h.counters _ ?_)
    simp only [List.getD_eq_getElem?_getD, hn, List.getElem?_eq_getElem, Option.getD_some, List.getElem_mem]

theorem State.writeCredit_within (n : Nat) (s : State) : s.Within [.out, .ing] (State.writeCredit n s) := by
  unfold State.writeCredit
  repeat' first
    | with_reducible apply State.Within.refl
    | (with_reducible apply State.Within.step (State.onAp_within ?_)) <;> try decide
    | exact fun _ h => h
    | exact fun _ h => ⟨satInc_lt .., h.2⟩
    | exact fun _ h => ⟨h.1, satInc_lt ..⟩
    | (with_reducible apply State.Within.step (State.emit_within ..)) <;> try decide
    | (with_reducible apply State.Within.foldl) <;> try intro _ _
    | with_reducible apply State.Within.ite
    | dsimp only
    | split

theorem State.creditStep_within (n : Nat) (s : State) : s.Within [.out, .ing] (State.creditStep n s) := by
  unfold State.creditStep
  repeat' first
    | with_reducible apply State.Within.refl
    | (with_reducible apply State.Within.step (State.writeCredit_within ..)) <;> try decide
    | (with_reducible apply State.Within.foldl) <;> try intro _ _
    | with_reducible apply State.Within.ite
    | dsimp only
    | split

theorem helloWork_within (p : Pkt) (s : State) : s.Within [.out, .freeCtr, .ing, .egr, .str, .mem] (helloWork p s) := by
  unfold helloWork
  repeat' first
    | with_reducible apply State.Within.refl
    | (with_reducible apply State.Within.step (State.onAp_within ?_)) <;> try decide
    | exact fun _ h => h
    | exact fun _ h => ⟨satInc_lt .., h.2⟩
    | exact fun _ h => ⟨h.1, satInc_lt ..⟩
    | (with_reducible apply State.Within.step (State.creditStep_within ..)) <;> try decide
    | (with_reducible apply State.Within.step (State.done_within ..)) <;> try decide
    | (with_reducible apply State.Within.foldl) <;> try intro _ _
    | with_reducible apply State.Within.ite
    | dsimp only
    | split

theorem State.setState_within (slot : Nat) (st : SState) (s : State) : s.Within [.str] (State.setState slot st s) := by
  unfold State.setState
  repeat' first
    | with_reducible apply State.Within.refl
    | (with_reducible apply State.Within.step (State.onStream_within ..)) <;> try decide
    | (with_reducible apply State.Within.foldl) <;> try intro _ _
    | with_reducible apply State.Within.ite
    | dsimp only
    | split

theorem State.resetAp_within (n : Nat) (s : State) : s.Within [.out, .ing] (State.resetAp n s) := by
  unfold State.resetAp
  repeat' first
    | with_reducible apply State.Within.refl
    | (with_reducible apply State.Within.step (State.onAp_within ?_)) <;> try decide
    | exact fun _ h => h
    | exact fun _ h => ⟨satInc_lt .., h.2⟩
    | exact fun _ h => ⟨h.1, satInc_lt ..⟩
    | (with_reducible apply State.Within.step (State.creditStep_within ..)) <;> try decide
    | (with_reducible apply State.Within.foldl) <;> try intro _ _
    | with_reducible apply State.Within.ite
    | dsimp only
    | split

theorem helloResetWork_within (p : Pkt) (s : State) : s.Within [.out, .freeCtr, .ing, .egr, .str, .mem] (helloResetWork p s) := by
  unfold helloResetWork
  repeat' first
    | with_reducible apply State.Within.refl
    | (with_reducible apply State.Within.step (State.onAp_within ?_)) <;> try decide
    | exact fun _ h => h
    | exact fun _ h => ⟨satInc_lt .., h.2⟩
    | exact fun _ h => ⟨h.1, satInc_lt ..⟩
    | (with_reducible apply State.Within.step (State.writeCredit_within ..)) <;> try decide
    | (with_reducible apply State.Within.step (State.done_within ..)) <;> try decide
    | (with_reducible apply State.Within.step (State.resetAp_within ..)) <;> try decide
    | (with_reducible apply State.Within.foldl) <;> try intro _ _
    | with_reducible apply State.Within.ite
    | dsimp only
    | split

theorem State.setDomain_within (d : Nat) (x : DomState) (s : State) : s.Within [.aon] (State.setDomain d x s) := by
  unfold State.setDomain
  repeat' first
    | with_reducible apply State.Within.refl
    | (with_reducible apply State.Within.step (State.onAon_within ?_)) <;> try decide
    | exact fun _ h => ⟨h.sensors, h.domains, h.counters, h.vset, h.thresh, h.causes⟩
    | exact fun _ h => ⟨by simp [h.sensors], by simp [h.domains], h.counters, h.vset, h.thresh, h.causes⟩
    | (with_reducible apply State.Within.foldl) <;> try intro _ _
    | with_reducible apply State.Within.ite
    | dsimp only
    | split

theorem State.halt_within (n : Nat) (pos : Nat) (reason : Nat) (s : State) : s.Within [.out, .ing, .egr, .str, .mem] (State.halt n pos reason s) := by
  unfold State.halt
  repeat' first
    | with_reducible apply State.Within.refl
    | (with_reducible apply State.Within.step (State.onAp_within ?_)) <;> try decide
    | exact fun _ h => h
    | exact fun _ h => ⟨satInc_lt .., h.2⟩
    | exact fun _ h => ⟨h.1, satInc_lt ..⟩
    | (with_reducible apply State.Within.step (State.event_within ..)) <;> try decide
    | (with_reducible apply State.Within.foldl) <;> try intro _ _
    | with_reducible apply State.Within.ite
    | dsimp only
    | split

theorem Aperture.recordAll_counts (l : List Dword) (pos : Nat) (a : Aperture) :
    (a.recordAll pos l).discarded = a.discarded ∧ (a.recordAll pos l).reads = a.reads := by
  induction l generalizing pos a with
  | nil => exact ⟨rfl, rfl⟩
  | cons d ds ih =>
    unfold Aperture.recordAll
    have h := ih (pos + 4) (if pos < a.consumed then a else a.record pos d)
    split at h <;> rename_i hc <;> simp only [hc, if_true, if_false] <;> exact h

theorem State.writeAp_within (n : Nat) (port : Bool) (off : Nat) (data : List Dword) (s : State) :
    s.Within [.out, .aon, .ing, .egr, .str, .mem] (s.writeAp n port off data) := by
  have h0 {f : Aperture → Aperture} (u : State) (hf : ∀ a : Aperture, a.discarded < 2 ^ 16 ∧ a.reads < 2 ^ 16 →
      (f a).discarded < 2 ^ 16 ∧ (f a).reads < 2 ^ 16) : u.Within [.out, .aon, .ing, .egr, .str, .mem] (u.onAp n f) := (State.onAp_within hf).mono (by decide)
  have h1 (u : State) : u.Within [.out, .aon, .ing, .egr, .str, .mem] (u.onAp n Aperture.discard) := h0 u fun _ h => ⟨satInc_lt .., h.2⟩
  have h2 : s.Within [.out, .aon, .ing, .egr, .str, .mem] (s.onAp n (fun a => { a with boundTo := some port })) := h0 s fun _ h => h
  unfold State.writeAp
  dsimp only
  refine .ite (h1 _) (.ite ?_ (.ite ?_ (.ite (.step (h1 _) (by decide) h2) ?_)))
  · exact .step (State.raise_within (by decide) _) (by decide) (h0 _ fun _ h => ⟨satInc_lt .., h.2⟩)
  · have h3 (u : State) : u.Within [.out, .aon, .ing, .egr, .str, .mem] ((u.onAp n (fun a => { a.discard with creditViol := true })).raise cAptCredit) :=
      .step (State.raise_within (by decide) _) (by decide) (h0 _ fun _ h => ⟨satInc_lt .., h.2⟩)
    exact .ite (.step (h3 _) (by decide) h2) (.step (State.halt_within ..) (by decide) (.step (h3 _) (by decide) h2))
  · refine .step (h0 _ fun a h => ?_) (by decide) h2
    rw [(Aperture.recordAll_counts ..).1, (Aperture.recordAll_counts ..).2]
    exact h

theorem State.writeRegion_within (port : Bool) (off : Nat) (data : List Dword) (s : State) : s.Within [.out, .aon, .ing, .egr, .str, .mem] (State.writeRegion port off data s) := by
  unfold State.writeRegion
  repeat' first
    | with_reducible apply State.Within.refl
    | (with_reducible apply State.Within.step (State.writeAp_within ..)) <;> try decide
    | (with_reducible apply State.Within.foldl) <;> try intro _ _
    | with_reducible apply State.Within.ite
    | dsimp only
    | split

theorem State.flushEvents_within (n : Nat) (s : State) : s.Within [.out, .egr, .str, .mem] (s.flushEvents n) := by
  refine .step (State.event_within ..) (by decide) (.step (State.onEgr_within fun _ h => ⟨h.count, h.idle, h.events, h.staged⟩) (by decide)
    (.foldl (fun _ _ => (State.egress_within ..).mono (by decide)) _ (.mono (State.onEgr_within fun _ h => ⟨h.count, h.idle, h.events, ?_⟩) (by decide))))
  simp

theorem ringEnableWork_within (p : Pkt) (s : State) : s.Within [.out, .freeCtr, .ing, .egr, .str, .mem] (ringEnableWork p s) := by
  unfold ringEnableWork
  split
  · exact (State.refuse_within ..).mono (by decide)
  · rename_i r _
    refine .ite ((State.refuse_within ..).mono (by decide)) ?_
    extract_lets s1 s2
    have h1 : s.Within [.egr] s1 ∧ (r.events = true → s1.egr.rings.filter (·.events) = []) := by
      unfold s1
      split
      · refine ⟨State.onEgr_within fun e h => ⟨by simp [h.count], fun g hg => ?_, ?_, h.staged⟩, fun _ => by simp [List.filter_eq_nil_iff]⟩
        · obtain ⟨g0, hg0, rfl⟩ := List.mem_map.mp hg
          exact h.idle g0 hg0
        · have : (e.rings.map (fun g => { g with events := false })).filter (·.events) = [] := by simp [List.filter_eq_nil_iff]
          rw [this]
          exact Nat.zero_le _
      · exact ⟨.refl _ _, fun h => absurd h (by assumption)⟩
    have h2 : s.Within [.out, .freeCtr, .ing, .egr, .str, .mem] s2 := by
      cases he : r.events with
      | false => exact .step (State.onRing_within _ (fun _ _ => rfl) (fun h => by simp [he] at h)) (by decide) (h1.1.mono (by decide))
      | true =>
        have h3 : s1.Within [.egr] s2 := ?_
        exact .step h3 (by decide) (h1.1.mono (by decide))
        refine ⟨fun p hp => by cases p <;> first | rfl | simp at hp, rfl, ⟨[], by simp [s2, State.onRing]⟩, Nat.le_refl _, fun i => ?_⟩
        refine ⟨i.aon, i.ing, ⟨?_, fun g hg => ?_, filter_events_one _ _ _ (h1.2 he), i.egr.staged⟩, i.mem⟩
        · simpa [s2, State.onRing] using i.egr.count
        · rcases mem_modifyAt {} hg with hg | ⟨_, rfl⟩
          · exact i.egr.idle g hg
          · exact fun _ => rfl
    exact .step (State.done_within ..) (by decide) (.ite (.step (State.flushEvents_within ..) (by decide) h2) h2)

theorem State.recordCorrection_within (b : Nat) (row : Nat) (use : Nat) (last : Nat) (s : State) : s.Within [.ber] (State.recordCorrection b row use last s) := by
  unfold State.recordCorrection
  repeat' first
    | with_reducible apply State.Within.refl
    | (with_reducible apply State.Within.step (State.onBer_within ..)) <;> try decide
    | (with_reducible apply State.Within.foldl) <;> try intro _ _
    | with_reducible apply State.Within.ite
    | dsimp only
    | split

theorem budSetWork_within (p : Pkt) (s : State) : s.Within [.out, .freeCtr, .ing, .egr, .str, .sto, .ber, .mem, .cas] (budSetWork p s) := by
  have hr (st : Nat) (u : State) : u.Within [.out, .freeCtr, .ing, .egr, .str, .sto, .ber, .mem, .cas] (u.refuse p st) := (State.refuse_within ..).mono (by decide)
  have hf (f : Casc → Casc) (d : Nat) (m : GMsg) : s.Within [.out, .freeCtr, .ing, .egr, .str, .sto, .ber, .mem, .cas] ((s.onCas f).send d m) :=
    .step (State.send_within ..) (by decide) ((State.onCas_within ..).mono (by decide))
  unfold budSetWork
  split
  · exact hr _ _
  · split
    · exact hr _ _
    · exact hr _ _
    · exact hf _ _ _
    · exact hf _ _ _
    · exact (State.masterSet_within (D := [.out, .freeCtr, .ing, .egr, .str, .sto, .ber, .mem, .cas]) (by decide) (fun _ _ => (State.done_within ..).mono (by decide)) (fun _ => hr _ _) ..)
    · split
      · exact hr _ _
      · rename_i h
        exact .step (State.done_within ..) (by decide) (.step (State.unholdTenant_within ..) (by decide) ((State.setLocal_within h).mono (by decide)))

theorem State.readRowNow_within (s : State) : s.Within [.ber] (State.readRowNow s) := by
  unfold State.readRowNow
  repeat' first
    | with_reducible apply State.Within.refl
    | (with_reducible apply State.Within.step (State.onBer_within ..)) <;> try decide
    | (with_reducible apply State.Within.foldl) <;> try intro _ _
    | with_reducible apply State.Within.ite
    | dsimp only
    | split

theorem State.finishDebug_within (s : State) : s.Within [.ber] (State.finishDebug s) := by
  unfold State.finishDebug
  repeat' first
    | with_reducible apply State.Within.refl
    | (with_reducible apply State.Within.step (State.readRowNow_within ..)) <;> try decide
    | (with_reducible apply State.Within.foldl) <;> try intro _ _
    | with_reducible apply State.Within.ite
    | dsimp only
    | split

theorem State.runHeld_within (s : State) : s.Within [.out, .aon, .egr, .img, .str, .sch, .sto, .ber, .mem] (State.runHeld s) := by
  unfold State.runHeld
  repeat' first
    | with_reducible apply State.Within.refl
    | (with_reducible apply State.Within.step (State.onBer_within ..)) <;> try decide
    | (with_reducible apply State.Within.step (State.search_within ..)) <;> try decide
    | (with_reducible apply State.Within.foldl) <;> try intro _ _
    | with_reducible apply State.Within.ite
    | dsimp only
    | split

theorem State.beginMove_within (c : Nat) (n : Nat) (e : BerylEntry) (pl : Place) (lo : Nat) (hi : Nat) (down : Bool) (s : State) : s.Within [.ber] (State.beginMove c n e pl lo hi down s) := by
  unfold State.beginMove
  repeat' first
    | with_reducible apply State.Within.refl
    | (with_reducible apply State.Within.step (State.onBer_within ..)) <;> try decide
    | (with_reducible apply State.Within.foldl) <;> try intro _ _
    | with_reducible apply State.Within.ite
    | dsimp only
    | split

theorem State.update_within (c : Nat) (n : Nat) (u : BerylUpdate) (s : State) : s.Within [.ber] (State.update c n u s) := by
  unfold State.update
  repeat' first
    | with_reducible apply State.Within.refl
    | (with_reducible apply State.Within.step (State.took_within ..)) <;> try decide
    | (with_reducible apply State.Within.step (State.writeEntry_within ..)) <;> try decide
    | (with_reducible apply State.Within.step (State.clearEntry_within ..)) <;> try decide
    | (with_reducible apply State.Within.step (State.beginMove_within ..)) <;> try decide
    | (with_reducible apply State.Within.foldl) <;> try intro _ _
    | with_reducible apply State.Within.ite
    | dsimp only
    | split

theorem State.finishMove_within (m : Move) (s : State) : s.Within [.ber] (State.finishMove m s) := by
  unfold State.finishMove
  repeat' first
    | with_reducible apply State.Within.refl
    | (with_reducible apply State.Within.step (State.took_within ..)) <;> try decide
    | (with_reducible apply State.Within.step (State.writeEntry_within ..)) <;> try decide
    | (with_reducible apply State.Within.step (State.onBer_within ..)) <;> try decide
    | (with_reducible apply State.Within.foldl) <;> try intro _ _
    | with_reducible apply State.Within.ite
    | dsimp only
    | split

theorem State.drainBank_within (n k : Nat) (s : State) : s.Within [.ber] (State.drainBank n k s) := by
  induction k generalizing s with
  | zero => exact .refl _ _
  | succ k ih =>
    have h1 (f : Beryl → Beryl) (u : State) : u.Within [.ber] ((u.logicalCount n 2 1).onBer f) :=
      .step (State.onBer_within ..) (by decide) (State.logicalCount_within ..)
    unfold State.drainBank
    split
    · exact .ite (.refl _ _) (.ite (.ite (.refl _ _) (h1 _ _)) (.step (ih _) (by decide) (State.finishMove_within ..)))
    · refine .ite (.refl _ _) ?_
      split
      · exact .refl _ _
      · exact .ite (.ite (.refl _ _) (h1 _ _)) (.step (ih _) (by decide) (.step (State.update_within ..) (by decide) (State.onBer_within ..)))

theorem State.drainBeryl_within (s : State) : s.Within [.out, .aon, .egr, .img, .str, .sch, .sto, .ber, .mem] (State.drainBeryl s) := by
  unfold State.drainBeryl
  repeat' first
    | with_reducible apply State.Within.refl
    | (with_reducible apply State.Within.step (State.finishDebug_within ..)) <;> try decide
    | (with_reducible apply State.Within.step (State.runHeld_within ..)) <;> try decide
    | (with_reducible apply State.Within.step (State.drainBank_within ..)) <;> try decide
    | (with_reducible apply State.Within.foldl) <;> try intro _ _
    | with_reducible apply State.Within.ite
    | dsimp only
    | split

theorem State.settleBeryl_within (s : State) : s.Within [.out, .aon, .egr, .img, .str, .sch, .sto, .ber, .mem] (State.settleBeryl s) := by
  unfold State.settleBeryl
  repeat' first
    | with_reducible apply State.Within.refl
    | (with_reducible apply State.Within.step (State.drainBeryl_within ..)) <;> try decide
    | (with_reducible apply State.Within.foldl) <;> try intro _ _
    | with_reducible apply State.Within.ite
    | dsimp only
    | split

theorem State.found_within (s : State) (i : Instr) : s.Within [.out, .aon, .egr, .img, .str, .sch, .sto, .ber, .mem] (s.found i) := by
  unfold State.found
  split
  · exact .step (State.settleBeryl_within ..) (by decide) ((State.elapse_within ..).mono (by decide))
  · exact (State.elapse_within ..).mono (by decide)

theorem State.atWork_within (s : State) (i : Instr) (p : Pkt) :
    s.Within [.out, .aon, .ing, .egr, .img, .str, .sch, .sto, .ber, .mem] (State.atWork s i p) :=
  .step (State.start__within ..) (by decide) ((State.found_within ..).mono (by decide))

theorem State.refuseMoved_within (p : Pkt) (dest : Nat) (h : Nat) (s : State) : s.Within [.out, .freeCtr, .ing, .egr, .str, .mem] (State.refuseMoved p dest h s) := by
  unfold State.refuseMoved
  repeat' first
    | with_reducible apply State.Within.refl
    | (with_reducible apply State.Within.step (State.cmp_within ..)) <;> try decide
    | (with_reducible apply State.Within.foldl) <;> try intro _ _
    | with_reducible apply State.Within.ite
    | dsimp only
    | split

theorem State.runPacket_within {D : List Field} {work : Pkt → State → State}
    (hd : [Field.out, .freeCtr, .ing, .egr, .str, .mem].all D.contains = true) (hw : ∀ (p : Pkt) (u : State), u.Within D (work p u))
    (form : Pkt → Bool) (ap pos : Nat) (s : State) : s.Within D (s.runPacket form ap pos work) := by
  have h1 (p : Pkt) : s.Within D (s.start_ p) := (State.start__within p s).mono (by simp at hd ⊢; simp [hd])
  have h2 : [Field.str].all D.contains = true := by simp at hd ⊢; simp [hd]
  unfold State.runPacket
  split
  · exact .refl _ _
  · dsimp only
    refine .ite (.ite (.step (State.refuse_within ..) hd (h1 _)) (.ite (.step (State.refuse_within ..) hd
      (.step (State.onStr_within ..) h2 (h1 _))) ?_)) (.refl _ _)
    split
    · exact .step (hw ..) (by simp [List.all_eq_true]) (h1 _)
    · exact .step (State.refuse_within ..) hd (h1 _)
    · exact .step (State.refuseMoved_within ..) hd (h1 _)

theorem State.runBeryl_within {D : List Field} {work : Pkt → State → State}
    (hd : ([.out, .freeCtr, .aon, .ing, .egr, .img, .str, .sch, .sto, .ber, .mem] : List Field).all D.contains = true) (hw : ∀ (p : Pkt) (u : State), u.Within D (work p u))
    (form : Pkt → Bool) (uses : Pkt → List Nat) (ap pos : Nat) (s : State) : s.Within D (s.runBeryl form uses ap pos work) := by
  have h1 : ([.out, .aon, .egr, .img, .str, .sch, .sto, .ber, .mem] : List Field).all D.contains = true := by simp at hd ⊢; simp [hd]
  have h2 : ([.out, .freeCtr, .ing, .egr, .str, .mem] : List Field).all D.contains = true := by simp at hd ⊢; simp [hd]
  exact .step (State.runPacket_within h2 hw ..) (by simp [List.all_eq_true]) ((State.settleBeryl_within ..).mono h1)

theorem State.followPut_within (r : BudSet) (s : State) : s.Within [.out, .egr, .str, .sto, .ber, .mem, .cas] (State.followPut r s) := by
  unfold State.followPut
  repeat' first
    | with_reducible apply State.Within.refl
    | (with_reducible apply State.Within.step (State.followLedger_within ..)) <;> try decide
    | (with_reducible apply State.Within.step (State.settleOwn_within ..)) <;> try decide
    | (with_reducible apply State.Within.foldl) <;> try intro _ _
    | with_reducible apply State.Within.ite
    | dsimp only
    | split

theorem State.upset_within (l : List Upset) (s : State) : s.Within [.ber] (State.upset l s) := by
  unfold State.upset
  repeat' first
    | with_reducible apply State.Within.refl
    | (with_reducible apply State.Within.step (State.onBer_within ..)) <;> try decide
    | (with_reducible apply State.Within.foldl) <;> try intro _ _
    | with_reducible apply State.Within.ite
    | dsimp only
    | split

theorem State.touch_within (r : SResult) (s : State) : s.Within [.str] (State.touch r s) := by
  unfold State.touch
  repeat' first
    | with_reducible apply State.Within.refl
    | (with_reducible apply State.Within.step (State.onStr_within ..)) <;> try decide
    | (with_reducible apply State.Within.foldl) <;> try intro _ _
    | with_reducible apply State.Within.ite
    | dsimp only
    | split

theorem State.cacheInsert_within (guid : Nat) (config : Nat) (guard : Bool) (top : List Nat) (bits : List Bool) (s : State) : s.Within [.str] (State.cacheInsert guid config guard top bits s).1 := by
  unfold State.cacheInsert
  repeat' first
    | with_reducible apply State.Within.refl
    | (with_reducible apply State.Within.step (State.evict_within ..)) <;> try decide
    | (with_reducible apply State.Within.step (State.onStr_within ..)) <;> try decide
    | (with_reducible apply State.Within.foldl) <;> try intro _ _
    | with_reducible apply State.Within.ite
    | dsimp only
    | split

theorem State.cacheInsert_of {guid : Nat} {config : Nat} {guard : Bool} {top : List Nat} {bits : List Bool} {s : State} {r} (h : State.cacheInsert guid config guard top bits s = r) : s.Within [.str] r.1 := h ▸ State.cacheInsert_within guid config guard top bits s

theorem State.build_within (slot : Nat) (node : Nat) (s : State) : s.Within [.str] (State.build slot node s) := by
  unfold State.build
  repeat' first
    | with_reducible apply State.Within.refl
    | (with_reducible apply State.Within.step (State.touch_within ..)) <;> try decide
    | (with_reducible apply State.Within.step (State.privInsert_within ..)) <;> try decide
    | (with_reducible apply State.Within.step (State.privInsert_of (by assumption))) <;> try decide
    | (with_reducible apply State.Within.step (State.evict_within ..)) <;> try decide
    | (with_reducible apply State.Within.step (State.cacheInsert_within ..)) <;> try decide
    | (with_reducible apply State.Within.step (State.cacheInsert_of (by assumption))) <;> try decide
    | (with_reducible apply State.Within.step (State.setNode_within ..)) <;> try decide
    | (with_reducible apply State.Within.foldl) <;> try intro _ _
    | with_reducible apply State.Within.ite
    | dsimp only
    | split

theorem State.freeRollback_within (s : State) : s.Within [.sto] (State.freeRollback s) := by
  unfold State.freeRollback
  repeat' first
    | with_reducible apply State.Within.refl
    | (with_reducible apply State.Within.step (State.onSto_within ..)) <;> try decide
    | (with_reducible apply State.Within.foldl) <;> try intro _ _
    | with_reducible apply State.Within.ite
    | dsimp only
    | split

theorem State.updateOrWait_within (c : Nat) (n : Nat) (u : BerylUpdate) (s : State) : s.Within [.ber] (State.updateOrWait c n u s) := by
  unfold State.updateOrWait
  repeat' first
    | with_reducible apply State.Within.refl
    | (with_reducible apply State.Within.step (State.waitIn_within ..)) <;> try decide
    | (with_reducible apply State.Within.step (State.update_within ..)) <;> try decide
    | (with_reducible apply State.Within.foldl) <;> try intro _ _
    | with_reducible apply State.Within.ite
    | dsimp only
    | split

theorem State.lookups_within (c : Nat) (use : Nat) (keys : List (List Nat)) (s : State) : s.Within [.ber] (State.lookups c use keys s) := by
  unfold State.lookups
  repeat' first
    | with_reducible apply State.Within.refl
    | (with_reducible apply State.Within.step (State.useSlots_within ..)) <;> try decide
    | (with_reducible apply State.Within.foldl) <;> try intro _ _
    | with_reducible apply State.Within.ite
    | dsimp only
    | split

theorem State.disableRing_within (n : Nat) (s : State) : s.Within [.egr, .str, .mem] (State.disableRing n s) := by
  unfold State.disableRing
  repeat' first
    | with_reducible apply State.Within.refl
    | (with_reducible apply State.Within.step (State.releaseRing_within ..)) <;> try decide
    | (with_reducible apply State.Within.step (State.onRing_within _ ?_ ?_)) <;> try decide
    | exact fun h => h
    | exact fun _ _ => rfl
    | (with_reducible apply State.Within.step (State.count_within ..)) <;> try decide
    | (with_reducible apply State.Within.foldl) <;> try intro _ _
    | with_reducible apply State.Within.ite
    | dsimp only
    | split

theorem State.judge_within (p : Pkt) (b : Bytes) (whole : Bool) (s : State) : s.Within [.out, .freeCtr, .ing, .egr, .str, .mem] (State.judge p b whole s) := by
  unfold State.judge
  repeat' first
    | with_reducible apply State.Within.refl
    | (with_reducible apply State.Within.step (State.refuse_within ..)) <;> try decide
    | (with_reducible apply State.Within.step (State.onIng_within ?_)) <;> try decide
    | exact fun _ h => ⟨h.count, h.counters⟩
    | (with_reducible apply State.Within.foldl) <;> try intro _ _
    | with_reducible apply State.Within.ite
    | dsimp only
    | split

theorem State.consume_within (n : Nat) (s : State) : s.Within [.out, .freeCtr, .aon, .ing, .egr, .str, .mem] (State.consume n s) := by
  unfold State.consume
  repeat' first
    | with_reducible apply State.Within.refl
    | (with_reducible apply State.Within.step (State.wakeDomain_within ..)) <;> try decide
    | (with_reducible apply State.Within.step (State.halt_within ..)) <;> try decide
    | (with_reducible apply State.Within.step (State.onAp_within ?_)) <;> try decide
    | exact fun _ h => h
    | exact fun _ h => ⟨satInc_lt .., h.2⟩
    | exact fun _ h => ⟨h.1, satInc_lt ..⟩
    | (with_reducible apply State.Within.step (State.judge_within ..)) <;> try decide
    | (with_reducible apply State.Within.step (State.creditStep_within ..)) <;> try decide
    | (with_reducible apply State.Within.foldl) <;> try intro _ _
    | with_reducible apply State.Within.ite
    | dsimp only
    | split

theorem State.stepWindow_within (w : StepWin) (s : State) : s.Within [.ber] (State.stepWindow w s) := by
  unfold State.stepWindow
  repeat' first
    | with_reducible apply State.Within.refl
    | (with_reducible apply State.Within.step (State.onBer_within ..)) <;> try decide
    | (with_reducible apply State.Within.step (State.writeRow_within ..)) <;> try decide
    | (with_reducible apply State.Within.foldl) <;> try intro _ _
    | with_reducible apply State.Within.ite
    | dsimp only
    | split

theorem State.openWindow_within (c : Nat) (n : Nat) (u : BerylUpdate) (s : State) : s.Within [.ber] (State.openWindow c n u s) := by
  unfold State.openWindow
  repeat' first
    | with_reducible apply State.Within.refl
    | (with_reducible apply State.Within.step (State.update_within ..)) <;> try decide
    | (with_reducible apply State.Within.step (State.onBer_within ..)) <;> try decide
    | (with_reducible apply State.Within.step (State.clearEntry_within ..)) <;> try decide
    | (with_reducible apply State.Within.step (State.beginMove_within ..)) <;> try decide
    | (with_reducible apply State.Within.foldl) <;> try intro _ _
    | with_reducible apply State.Within.ite
    | dsimp only
    | split

theorem State.closeHole_within (n : Nat) (lo : Nat) (hi : Nat) (s : State) : s.Within [.ber] (State.closeHole n lo hi s) := by
  unfold State.closeHole
  repeat' first
    | with_reducible apply State.Within.refl
    | (with_reducible apply State.Within.step (State.moveRun_within ..)) <;> try decide
    | (with_reducible apply State.Within.step (State.clearEntry_within ..)) <;> try decide
    | (with_reducible apply State.Within.foldl) <;> try intro _ _
    | with_reducible apply State.Within.ite
    | dsimp only
    | split

theorem ringDisableWork_within (p : Pkt) (s : State) : s.Within [.out, .freeCtr, .ing, .egr, .str, .mem] (ringDisableWork p s) := by
  unfold ringDisableWork
  repeat' first
    | with_reducible apply State.Within.refl
    | (with_reducible apply State.Within.step (State.flushCoal_within ..)) <;> try decide
    | (with_reducible apply State.Within.step (State.refuse_within ..)) <;> try decide
    | (with_reducible apply State.Within.step (State.onRing_within _ ?_ ?_)) <;> try decide
    | exact fun h => h
    | exact fun _ _ => rfl
    | (with_reducible apply State.Within.step (State.done_within ..)) <;> try decide
    | (with_reducible apply State.Within.step (State.disableRing_within ..)) <;> try decide
    | (with_reducible apply State.Within.foldl) <;> try intro _ _
    | with_reducible apply State.Within.ite
    | dsimp only
    | split

theorem State.dbgReadRow_within (s : State) : s.Within [.ber] (State.dbgReadRow s) := by
  unfold State.dbgReadRow
  repeat' first
    | with_reducible apply State.Within.refl
    | (with_reducible apply State.Within.step (State.onBer_within ..)) <;> try decide
    | (with_reducible apply State.Within.step (State.readRowNow_within ..)) <;> try decide
    | (with_reducible apply State.Within.foldl) <;> try intro _ _
    | with_reducible apply State.Within.ite
    | dsimp only
    | split

theorem State.grantTrees_within (s : State) : s.Within [.str] (State.grantTrees s) := by
  unfold State.grantTrees
  repeat' first
    | with_reducible apply State.Within.refl
    | (with_reducible apply State.Within.step (State.beginBuild_within ..)) <;> try decide
    | (with_reducible apply State.Within.foldl) <;> try intro _ _
    | with_reducible apply State.Within.ite
    | dsimp only
    | split

theorem timeWork_within (p : Pkt) (s : State) : s.Within [.out, .freeCtr, .ing, .egr, .str, .mem] (timeWork p s) := by
  unfold timeWork
  repeat' first
    | with_reducible apply State.Within.refl
    | (with_reducible apply State.Within.step (State.done_within ..)) <;> try decide
    | (with_reducible apply State.Within.foldl) <;> try intro _ _
    | with_reducible apply State.Within.ite
    | dsimp only
    | split

theorem State.settleRing_within (n : Nat) (s : State) : s.Within [.egr, .str, .mem] (State.settleRing n s) := by
  unfold State.settleRing
  repeat' first
    | with_reducible apply State.Within.refl
    | (with_reducible apply State.Within.step (State.onRing_within _ ?_ ?_)) <;> try decide
    | exact fun h => h
    | exact fun _ _ => rfl
    | (with_reducible apply State.Within.step (State.disableRing_within ..)) <;> try decide
    | (with_reducible apply State.Within.foldl) <;> try intro _ _
    | with_reducible apply State.Within.ite
    | dsimp only
    | split

theorem State.buildDone_within (b : Build) (s : State) : s.Within [.str, .sch, .mem] (State.buildDone b s) := by
  unfold State.buildDone
  repeat' first
    | with_reducible apply State.Within.refl
    | (with_reducible apply State.Within.step (State.workDone_within ..)) <;> try decide
    | (with_reducible apply State.Within.step (State.grantTrees_within ..)) <;> try decide
    | (with_reducible apply State.Within.step (State.build_within ..)) <;> try decide
    | (with_reducible apply State.Within.step (State.onStr_within ..)) <;> try decide
    | (with_reducible apply State.Within.step (State.count_within ..)) <;> try decide
    | (with_reducible apply State.Within.step (State.latchRows_within ..)) <;> try decide
    | (with_reducible apply State.Within.foldl) <;> try intro _ _
    | with_reducible apply State.Within.ite
    | dsimp only
    | split

theorem State.shareDone_within (b : Build) (unit : Nat) (s : State) : s.Within [.str] (State.shareDone b unit s) := by
  unfold State.shareDone
  repeat' first
    | with_reducible apply State.Within.refl
    | (with_reducible apply State.Within.step (State.grantTrees_within ..)) <;> try decide
    | (with_reducible apply State.Within.step (State.onStr_within ..)) <;> try decide
    | (with_reducible apply State.Within.foldl) <;> try intro _ _
    | with_reducible apply State.Within.ite
    | dsimp only
    | split

theorem State.drain_within (n k : Nat) (s : State) : s.Within [.out, .egr] (State.drain n k s) := by
  induction k generalizing s with
  | zero => exact .refl _ _
  | succ k ih =>
    unfold State.drain
    split
    · exact .refl _ _
    · rename_i r rest hw
      refine .ite (.step (ih _) (by decide) (.step (State.put_within ..) (by decide) (.mono (State.onRing_within n (fun h he => ?_) id)
        (by decide)))) (.refl _ _)
      rw [h he] at hw
      cases hw

end Sys2Proof.Machine
end

