-- ==== Sys2Proof/Laws/Texts.lean ====
section
/-! SUPPORT. What the operations on streams, their text, choices and draft trees can do. -/
set_option linter.unusedTactic false
set_option linter.unreachableTactic false
set_option linter.unusedSimpArgs false
set_option linter.unusedVariables false
namespace Sys2Proof.Machine
open Sys2Proof

theorem State.onStep_within (n : Nat) (f : Step → Step) (s : State) : s.Within [.sch] (State.onStep n f s) := by
  unfold State.onStep
  repeat' first
    | with_reducible apply State.Within.refl
    | (with_reducible apply State.Within.step (State.onSch_within ..)) <;> try decide
    | (with_reducible apply State.Within.foldl) <;> try intro _ _
    | with_reducible apply State.Within.ite
    | dsimp only
    | split

theorem State.sweepGrams_within (s : State) : s.Within [.img, .str] (State.sweepGrams s) := by
  unfold State.sweepGrams
  repeat' first
    | with_reducible apply State.Within.refl
    | (with_reducible apply State.Within.step (State.onImg_within ..)) <;> try decide
    | (with_reducible apply State.Within.step (State.dropCache_within ..)) <;> try decide
    | (with_reducible apply State.Within.foldl) <;> try intro _ _
    | with_reducible apply State.Within.ite
    | dsimp only
    | split

theorem State.dropStop_within (i : Nat) (s : State) : s.Within [.img, .ber] (State.dropStop i s) := by
  unfold State.dropStop
  repeat' first
    | with_reducible apply State.Within.refl
    | (with_reducible apply State.Within.step (State.onImg_within ..)) <;> try decide
    | (with_reducible apply State.Within.step (State.removeUse_within ..)) <;> try decide
    | (with_reducible apply State.Within.foldl) <;> try intro _ _
    | with_reducible apply State.Within.ite
    | dsimp only
    | split

theorem State.sweepVersions_within (s : State) : s.Within [.out, .egr, .img, .str, .ber, .mem] (State.sweepVersions s) := by
  unfold State.sweepVersions
  repeat' first
    | with_reducible apply State.Within.refl
    | (with_reducible apply State.Within.step (State.onImg_within ..)) <;> try decide
    | (with_reducible apply State.Within.step (State.removeLiterals_within ..)) <;> try decide
    | (with_reducible apply State.Within.step (State.event_within ..)) <;> try decide
    | (with_reducible apply State.Within.foldl) <;> try intro _ _
    | with_reducible apply State.Within.ite
    | dsimp only
    | split

theorem State.freeSlot_within (slot : Nat) (s : State) : s.Within [.str, .mem] (State.freeSlot slot s) := by
  unfold State.freeSlot
  repeat' first
    | with_reducible apply State.Within.refl
    | (with_reducible apply State.Within.step (State.onStr_within ..)) <;> try decide
    | (with_reducible apply State.Within.step (State.queued_within ..)) <;> try decide
    | (with_reducible apply State.Within.foldl) <;> try intro _ _
    | with_reducible apply State.Within.ite
    | dsimp only
    | split

theorem State.dropTree_within (slot : Nat) (bump : Bool) (s : State) : s.Within [.str] (State.dropTree slot bump s) := by
  unfold State.dropTree
  repeat' first
    | with_reducible apply State.Within.refl
    | (with_reducible apply State.Within.step (State.onStream_within ..)) <;> try decide
    | (with_reducible apply State.Within.step (State.onStr_within ..)) <;> try decide
    | (with_reducible apply State.Within.foldl) <;> try intro _ _
    | with_reducible apply State.Within.ite
    | dsimp only
    | split

theorem State.releaseStream_within (slot : Nat) (s : State) : s.Within [.out, .egr, .img, .str, .sch, .sto, .ber, .mem] (State.releaseStream slot s) := by
  unfold State.releaseStream
  repeat' first
    | with_reducible apply State.Within.refl
    | (with_reducible apply State.Within.step (State.sweepGrams_within ..)) <;> try decide
    | (with_reducible apply State.Within.step (State.releaseSummary_within ..)) <;> try decide
    | (with_reducible apply State.Within.step (State.detach_within ..)) <;> try decide
    | (with_reducible apply State.Within.step (State.dropStop_within ..)) <;> try decide
    | (with_reducible apply State.Within.step (State.sweepVersions_within ..)) <;> try decide
    | (with_reducible apply State.Within.step (State.freePages_within ..)) <;> try decide
    | (with_reducible apply State.Within.step (State.freeSlot_within ..)) <;> try decide
    | (with_reducible apply State.Within.step (State.dropTree_within ..)) <;> try decide
    | (with_reducible apply State.Within.foldl) <;> try intro _ _
    | with_reducible apply State.Within.ite
    | dsimp only
    | split

theorem State.collide_within (slot : Nat) (clash : Option Nat) (s : State) : s.Within [.mem] (State.collide slot clash s) := by
  unfold State.collide
  repeat' first
    | with_reducible apply State.Within.refl
    | (with_reducible apply State.Within.step (State.onMem_within ?_)) <;> try decide
    | exact fun _ h => ⟨h.units, h.arrays, h.patrol, h.counts, h.bound⟩
    | exact fun _ h => ⟨by simp [h.units], by simp [h.arrays], by simp [h.patrol], h.counts, h.bound⟩
    | (with_reducible apply State.Within.foldl) <;> try intro _ _
    | with_reducible apply State.Within.ite
    | dsimp only
    | split

theorem pinWork_within (clash : Option Nat) (p : Pkt) (s0 : State) : s0.Within [.out, .freeCtr, .ing, .egr, .str, .mem] (pinWork clash p s0) := by
  unfold pinWork
  repeat' first
    | with_reducible apply State.Within.refl
    | (with_reducible apply State.Within.step (State.collide_within ..)) <;> try decide
    | (with_reducible apply State.Within.step (State.done_within ..)) <;> try decide
    | (with_reducible apply State.Within.step (State.onHandle_within ..)) <;> try decide
    | (with_reducible apply State.Within.foldl) <;> try intro _ _
    | with_reducible apply State.Within.ite
    | dsimp only
    | split

theorem State.enterReady_within (slot : Nat) (s : State) : s.Within [.str] (State.enterReady slot s) := by
  unfold State.enterReady
  repeat' first
    | with_reducible apply State.Within.refl
    | (with_reducible apply State.Within.step (State.onStream_within ..)) <;> try decide
    | (with_reducible apply State.Within.foldl) <;> try intro _ _
    | with_reducible apply State.Within.ite
    | dsimp only
    | split

theorem State.firstReady_within (slot : Nat) (s : State) : s.Within [.str] (State.firstReady slot s) := by
  unfold State.firstReady
  repeat' first
    | with_reducible apply State.Within.refl
    | (with_reducible apply State.Within.step (State.onStream_within ..)) <;> try decide
    | (with_reducible apply State.Within.step (State.enterReady_within ..)) <;> try decide
    | (with_reducible apply State.Within.foldl) <;> try intro _ _
    | with_reducible apply State.Within.ite
    | dsimp only
    | split

theorem State.leavePrompt_within (slot : Nat) (s : State) : s.Within [.str] (State.leavePrompt slot s) := by
  unfold State.leavePrompt
  repeat' first
    | with_reducible apply State.Within.refl
    | (with_reducible apply State.Within.step (State.onStream_within ..)) <;> try decide
    | (with_reducible apply State.Within.step (State.firstReady_within ..)) <;> try decide
    | (with_reducible apply State.Within.foldl) <;> try intro _ _
    | with_reducible apply State.Within.ite
    | dsimp only
    | split

theorem State.lintelPause_within (slot : Nat) (s : State) : s.Within [.str, .sch, .sto, .ber] (State.lintelPause slot s) := by
  unfold State.lintelPause
  repeat' first
    | with_reducible apply State.Within.refl
    | (with_reducible apply State.Within.step (State.stow_within ..)) <;> try decide
    | (with_reducible apply State.Within.step (State.dropBuilds_within ..)) <;> try decide
    | (with_reducible apply State.Within.step (State.onStream_within ..)) <;> try decide
    | (with_reducible apply State.Within.step (State.detach_within ..)) <;> try decide
    | (with_reducible apply State.Within.step (State.freePages_within ..)) <;> try decide
    | (with_reducible apply State.Within.step (State.dropTree_within ..)) <;> try decide
    | (with_reducible apply State.Within.foldl) <;> try intro _ _
    | with_reducible apply State.Within.ite
    | dsimp only
    | split

theorem State.pauseDeferred_within (slot : Nat) (s : State) : s.Within [.str, .sch, .sto, .ber] (State.pauseDeferred slot s) := by
  unfold State.pauseDeferred
  repeat' first
    | with_reducible apply State.Within.refl
    | (with_reducible apply State.Within.step (State.lintelPause_within ..)) <;> try decide
    | (with_reducible apply State.Within.foldl) <;> try intro _ _
    | with_reducible apply State.Within.ite
    | dsimp only
    | split

theorem State.heldBit_within (slot : Nat) (s : State) : s.Within [.out, .egr, .str, .mem] (State.heldBit slot s).1 := by
  unfold State.heldBit
  repeat' first
    | with_reducible apply State.Within.refl
    | (with_reducible apply State.Within.step (State.admissibleBy_within ..)) <;> try decide
    | (with_reducible apply State.Within.step (State.admissibleBy_of (by assumption))) <;> try decide
    | (with_reducible apply State.Within.foldl) <;> try intro _ _
    | with_reducible apply State.Within.ite
    | dsimp only
    | split

theorem State.heldBit_of {slot : Nat} {s : State} {r} (h : State.heldBit slot s = r) : s.Within [.out, .egr, .str, .mem] r.1 := h ▸ State.heldBit_within slot s

theorem State.startChain_within (p : Pkt) (handle : Nat) (tenant : Nat) (isOpen : Bool) (s : State) : s.Within [.out, .freeCtr, .ing, .egr, .str, .mem, .cas] (State.startChain p handle tenant isOpen s) := by
  unfold State.startChain
  repeat' first
    | with_reducible apply State.Within.refl
    | (with_reducible apply State.Within.step (State.refuse_within ..)) <;> try decide
    | (with_reducible apply State.Within.step (State.onCas_within ..)) <;> try decide
    | (with_reducible apply State.Within.step (State.send_within ..)) <;> try decide
    | (with_reducible apply State.Within.foldl) <;> try intro _ _
    | with_reducible apply State.Within.ite
    | dsimp only
    | split

theorem State.onWork_within (p : Pkt) (f : Work → Work) (s : State) : s.Within [.ing] (State.onWork p f s) := by
  unfold State.onWork
  repeat' first
    | with_reducible apply State.Within.refl
    | (with_reducible apply State.Within.step (State.onIng_within ?_)) <;> try decide
    | exact fun _ h => ⟨h.count, h.counters⟩
    | (with_reducible apply State.Within.foldl) <;> try intro _ _
    | with_reducible apply State.Within.ite
    | dsimp only
    | split

theorem State.beginSegment_within (w : Work) (v : Version) (s : State) : s.Within [.ing] (State.beginSegment w v s) := by
  unfold State.beginSegment
  repeat' first
    | with_reducible apply State.Within.refl
    | (with_reducible apply State.Within.step (State.onWork_within ..)) <;> try decide
    | (with_reducible apply State.Within.foldl) <;> try intro _ _
    | with_reducible apply State.Within.ite
    | dsimp only
    | split

theorem State.cancelPackets_within (h : Nat) (but : Option Pkt) (s : State) : s.Within [.out, .freeCtr, .ing, .egr, .str, .mem] (State.cancelPackets h but s) := by
  unfold State.cancelPackets
  repeat' first
    | with_reducible apply State.Within.refl
    | (with_reducible apply State.Within.step (State.refuse_within ..)) <;> try decide
    | (with_reducible apply State.Within.step (State.onIng_within ?_)) <;> try decide
    | exact fun _ h => ⟨h.count, h.counters⟩
    | (with_reducible apply State.Within.foldl) <;> try intro _ _
    | with_reducible apply State.Within.ite
    | dsimp only
    | split

theorem State.abandonCopy_within (slot : Nat) (status : Nat) (s : State) : s.Within [.out, .freeCtr, .ing, .egr, .str, .sch, .sto, .ber, .mem, .cas] (State.abandonCopy slot status s) := by
  unfold State.abandonCopy
  repeat' first
    | with_reducible apply State.Within.refl
    | (with_reducible apply State.Within.step (State.rollback_within ..)) <;> try decide
    | (with_reducible apply State.Within.step (State.refuse_within ..)) <;> try decide
    | (with_reducible apply State.Within.step (State.onCas_within ..)) <;> try decide
    | (with_reducible apply State.Within.step (State.onPfx_within ..)) <;> try decide
    | (with_reducible apply State.Within.step (State.freeRecord_within ..)) <;> try decide
    | (with_reducible apply State.Within.foldl) <;> try intro _ _
    | with_reducible apply State.Within.ite
    | dsimp only
    | split

theorem State.discardRows_within (slot : Nat) (s : State) : s.Within [.out, .sch] (State.discardRows slot s) := by
  unfold State.discardRows
  repeat' first
    | with_reducible apply State.Within.refl
    | (with_reducible apply State.Within.step (State.emits_within ..)) <;> try decide
    | (with_reducible apply State.Within.step (State.onSch_within ..)) <;> try decide
    | (with_reducible apply State.Within.foldl) <;> try intro _ _
    | with_reducible apply State.Within.ite
    | dsimp only
    | split

theorem State.closeStream_within (slot : Nat) (but : Option Pkt) (s : State) : s.Within [.out, .freeCtr, .ing, .egr, .str, .sch, .sto, .ber, .mem, .cas] (State.closeStream slot but s) := by
  unfold State.closeStream
  repeat' first
    | with_reducible apply State.Within.refl
    | (with_reducible apply State.Within.step (State.stow_within ..)) <;> try decide
    | (with_reducible apply State.Within.step (State.dropBuilds_within ..)) <;> try decide
    | (with_reducible apply State.Within.step (State.onStream_within ..)) <;> try decide
    | (with_reducible apply State.Within.step (State.cancelPackets_within ..)) <;> try decide
    | (with_reducible apply State.Within.step (State.abandonCopy_within ..)) <;> try decide
    | (with_reducible apply State.Within.step (State.discardRows_within ..)) <;> try decide
    | (with_reducible apply State.Within.step (State.onStr_within ..)) <;> try decide
    | (with_reducible apply State.Within.step (State.send_within ..)) <;> try decide
    | (with_reducible apply State.Within.foldl) <;> try intro _ _
    | with_reducible apply State.Within.ite
    | dsimp only
    | split

theorem State.memoise_within (v : Version) (items : List Item) (s : State) : s.Within [.img] (State.memoise v items s) := by
  unfold State.memoise
  repeat' first
    | with_reducible apply State.Within.refl
    | (with_reducible apply State.Within.step (State.onImg_within ..)) <;> try decide
    | (with_reducible apply State.Within.foldl) <;> try intro _ _
    | with_reducible apply State.Within.ite
    | dsimp only
    | split

theorem State.segmentEnd_within (w : Work) (v : Version) (t : Stream) (s : State) : s.Within [.out, .freeCtr, .ing, .egr, .img, .str, .mem] (State.segmentEnd w v t s) := by
  unfold State.segmentEnd
  repeat' first
    | with_reducible apply State.Within.refl
    | (with_reducible apply State.Within.step (State.stow_within ..)) <;> try decide
    | (with_reducible apply State.Within.step (State.memoise_within ..)) <;> try decide
    | (with_reducible apply State.Within.step (State.renewShutter_within ..)) <;> try decide
    | (with_reducible apply State.Within.step (State.onStream_within ..)) <;> try decide
    | (with_reducible apply State.Within.step (State.finish_within ..)) <;> try decide
    | (with_reducible apply State.Within.step (State.done_within ..)) <;> try decide
    | (with_reducible apply State.Within.step (State.leavePrompt_within ..)) <;> try decide
    | (with_reducible apply State.Within.step (State.heldBit_within ..)) <;> try decide
    | (with_reducible apply State.Within.step (State.heldBit_of (by assumption))) <;> try decide
    | (with_reducible apply State.Within.foldl) <;> try intro _ _
    | with_reducible apply State.Within.ite
    | dsimp only
    | split

theorem State.sliceCommit_within (slot : Nat) (s : State) : s.Within [.str] (State.sliceCommit slot s) := by
  unfold State.sliceCommit
  repeat' first
    | with_reducible apply State.Within.refl
    | (with_reducible apply State.Within.step (State.onStream_within ..)) <;> try decide
    | (with_reducible apply State.Within.foldl) <;> try intro _ _
    | with_reducible apply State.Within.ite
    | dsimp only
    | split

theorem State.nextShutter_within (slot : Nat) (s : State) : s.Within [.str] (State.nextShutter slot s) := by
  unfold State.nextShutter
  repeat' first
    | with_reducible apply State.Within.refl
    | (with_reducible apply State.Within.step (State.dropBuilds_within ..)) <;> try decide
    | (with_reducible apply State.Within.step (State.onStream_within ..)) <;> try decide
    | (with_reducible apply State.Within.step (State.beginBuild_within ..)) <;> try decide
    | (with_reducible apply State.Within.foldl) <;> try intro _ _
    | with_reducible apply State.Within.ite
    | dsimp only
    | split

theorem State.tokenCommit_within (slot : Nat) (pkt : Pkt) (toks : List Nat) (ps : Parse) (ended : Bool) (cut : Bool) (r0 : Nat) (waited : Nat) (s : State) : s.Within [.img, .str] (State.tokenCommit slot pkt toks ps ended cut r0 waited s) := by
  unfold State.tokenCommit
  repeat' first
    | with_reducible apply State.Within.refl
    | (with_reducible apply State.Within.step (State.stow_within ..)) <;> try decide
    | (with_reducible apply State.Within.step (State.onStream_within ..)) <;> try decide
    | (with_reducible apply State.Within.step (State.sweepGrams_within ..)) <;> try decide
    | (with_reducible apply State.Within.step (State.nextShutter_within ..)) <;> try decide
    | (with_reducible apply State.Within.step (State.onStr_within ..)) <;> try decide
    | (with_reducible apply State.Within.step (State.settleStack_within ..)) <;> try decide
    | (with_reducible apply State.Within.foldl) <;> try intro _ _
    | with_reducible apply State.Within.ite
    | dsimp only
    | split

theorem State.trimPages_within (slot : Nat) (s : State) : s.Within [.str, .sto] (State.trimPages slot s) := by
  unfold State.trimPages
  repeat' first
    | with_reducible apply State.Within.refl
    | (with_reducible apply State.Within.step (State.rollback_within ..)) <;> try decide
    | (with_reducible apply State.Within.step (State.onStream_within ..)) <;> try decide
    | (with_reducible apply State.Within.step (State.setChain_within ..)) <;> try decide
    | (with_reducible apply State.Within.foldl) <;> try intro _ _
    | with_reducible apply State.Within.ite
    | dsimp only
    | split

theorem State.commitReply_within (slot : Nat) (s : State) : s.Within [.out, .img, .str, .sto, .cas] (State.commitReply slot s) := by
  unfold State.commitReply
  repeat' first
    | with_reducible apply State.Within.refl
    | (with_reducible apply State.Within.step (State.onStream_within ..)) <;> try decide
    | (with_reducible apply State.Within.step (State.tokenCommit_within ..)) <;> try decide
    | (with_reducible apply State.Within.step (State.trimPages_within ..)) <;> try decide
    | (with_reducible apply State.Within.step (State.charge_within ..)) <;> try decide
    | (with_reducible apply State.Within.step (State.dropTree_within ..)) <;> try decide
    | (with_reducible apply State.Within.step (State.emit_within ..)) <;> try decide
    | (with_reducible apply State.Within.foldl) <;> try intro _ _
    | with_reducible apply State.Within.ite
    | dsimp only
    | split

theorem State.grantOrWait_within {D : List Field} {commit : Nat → State → State} (hd : [Field.str].all D.contains = true)
    (hc : ∀ (n : Nat) (u : State), u.Within D (commit n u)) (slot : Nat) (s : State) : s.Within D (s.grantOrWait commit slot) := by
  have h1 (f : Stream → Stream) : s.Within D (s.onStream slot f) := (State.onStream_within ..).mono hd
  unfold State.grantOrWait
  dsimp only
  split
  · exact .refl _ _
  · refine .ite (.refl _ _) (.ite (.step (hc ..) (by simp [List.all_eq_true]) (.ite (.refl _ _) (h1 _))) (.ite (.refl _ _) ?_))
    exact .step (State.onStr_within ..) hd (.ite (.refl _ _) (h1 _))

theorem State.commitChoice_within (slot : Nat) (s : State) : s.Within [.img, .str] (State.commitChoice slot s) := by
  unfold State.commitChoice
  repeat' first
    | with_reducible apply State.Within.refl
    | (with_reducible apply State.Within.step (State.tokenCommit_within ..)) <;> try decide
    | (with_reducible apply State.Within.foldl) <;> try intro _ _
    | with_reducible apply State.Within.ite
    | dsimp only
    | split

theorem State.commitHeld_within (slot : Nat) (s : State) : s.Within [.out, .img, .str, .sto, .cas] (State.commitHeld slot s) := by
  unfold State.commitHeld
  repeat' first
    | with_reducible apply State.Within.refl
    | (with_reducible apply State.Within.step (State.commitChoice_within ..)) <;> try decide
    | (with_reducible apply State.Within.step (State.commitReply_within ..)) <;> try decide
    | (with_reducible apply State.Within.foldl) <;> try intro _ _
    | with_reducible apply State.Within.ite
    | dsimp only
    | split

theorem replyWork_within (p : Pkt) (s : State) : s.Within [.out, .freeCtr, .ing, .egr, .img, .str, .sto, .mem, .cas] (replyWork p s) := by
  unfold replyWork
  repeat' first
    | with_reducible apply State.Within.refl
    | (with_reducible apply State.Within.step (State.grantOrWait_within (D := [.out, .freeCtr, .ing, .egr, .img, .str, .sto, .mem, .cas]) (by decide) ?_  ..)) <;> try decide
    | intro _
    | (with_reducible apply State.Within.step (State.onStream_within ..)) <;> try decide
    | (with_reducible apply State.Within.step (State.cmp_within ..)) <;> try decide
    | (with_reducible apply State.Within.step (State.refuse_within ..)) <;> try decide
    | (with_reducible apply State.Within.step (State.commitHeld_within ..)) <;> try decide
    | (with_reducible apply State.Within.foldl) <;> try intro _ _
    | with_reducible apply State.Within.ite
    | dsimp only
    | split

theorem State.useGram_within (uid : Nat) (s : State) : s.Within [.img] (State.useGram uid s) := by
  unfold State.useGram
  repeat' first
    | with_reducible apply State.Within.refl
    | (with_reducible apply State.Within.step (State.onImg_within ..)) <;> try decide
    | (with_reducible apply State.Within.foldl) <;> try intro _ _
    | with_reducible apply State.Within.ite
    | dsimp only
    | split

theorem State.takeSlot_within {s u : State} {n : Nat} (h : s.takeSlot = some (n, u)) : s.Within [.str] u := by
  unfold State.takeSlot at h
  dsimp only at h
  split at h
  · cases h
    exact State.onStr_within ..
  · split at h
    · cases h
    · cases h
      exact State.onStr_within ..

theorem State.takeStop_within {b : Bytes} {s u : State} {i : Nat} (h : State.takeStop b s = some (i, u)) :
    s.Within [.img, .ber] u := by
  unfold State.takeStop at h
  dsimp only at h
  split at h
  · split at h
    · cases h
    · cases h
      exact (State.onImg_within ..).mono (by decide)
  · split at h
    · cases h
    · split at h
      · simp only [Option.map_eq_some_iff, Prod.mk.injEq] at h
        obtain ⟨j, _, _, rfl⟩ := h
        exact (State.onImg_within ..).mono (by decide)
      · split at h
        · cases h
        · simp only [Option.map_eq_some_iff, Prod.mk.injEq] at h
          obtain ⟨v, hv, _, rfl⟩ := h
          exact .step (State.onImg_within ..) (by decide) ((State.insertUse_within hv).mono (by decide))

theorem State.takeStops_within {l : List StopEnt} {s u : State} {r : List (Nat × Nat)}
    (h : State.takeStops l s = some (r, u)) : s.Within [.img, .ber] u := by
  induction l generalizing s r with
  | nil =>
    cases h
    exact .refl _ _
  | cons e es ih =>
    unfold State.takeStops at h
    split at h
    · cases h
    · rename_i hs
      simp only [Option.map_eq_some_iff, Prod.mk.injEq] at h
      obtain ⟨⟨q, w⟩, hw, _, rfl⟩ := h
      exact .step (ih hw) (by decide) (State.takeStop_within hs)

theorem State.withNodes_within (slot : Nat) (record : Nat) (nodes : List TNode) (s : State) : s.Within [.str] (State.withNodes slot record nodes s) := by
  unfold State.withNodes
  repeat' first
    | with_reducible apply State.Within.refl
    | (with_reducible apply State.Within.step (State.onStream_within ..)) <;> try decide
    | (with_reducible apply State.Within.foldl) <;> try intro _ _
    | with_reducible apply State.Within.ite
    | dsimp only
    | split

theorem State.makeReplica_within {handle tenant num : Nat} {r : ChainRec} {pages : List Nat} {s u : State}
    (h : State.makeReplica handle tenant r s = some (num, pages, u)) : s.Within [.sto, .ber] u := by
  unfold State.makeReplica at h
  split at h
  · cases h
  · split at h
    · cases h
    · rename_i s1 h1
      split at h
      · cases h
      · rename_i h2
        cases h
        have h3 : s.Within [.sto, .ber] s1 := by
          split at h1
          · cases h1
            exact .refl _ _
          · exact (State.insertUse_within h1).mono (by decide)
        exact .step (State.setChain_within ..) (by decide) (.step (State.onSto_within ..) (by decide)
          (.step (State.takePages_within h2) (by decide) h3))

theorem State.buildEntry_within {p : Pkt} {o : OpenReq} {v : Version} {g : Option Gram} {s u : State} {n : Nat}
    (h : State.buildEntry p o v g s = some (n, u)) : s.Within [.img, .str, .ber] u := by
  unfold State.buildEntry at h
  split at h
  · cases h
  · rename_i ht
    split at h
    · cases h
    · split at h
      · cases h
      · rename_i hs
        dsimp only at h
        simp only [Option.some.injEq, Prod.mk.injEq] at h
        obtain ⟨_, rfl⟩ := h
        have h1 (f : Streams → Streams) (k : Nat) : s.Within [.img, .str, .ber] ((State.onStr f _).stow k) :=
          .step (State.stow_within ..) (by decide) (.step (State.onStr_within ..) (by decide)
            (.step (State.takeStops_within hs) (by decide) ((State.takeSlot_within ht).mono (by decide))))
        exact .ite (.step (State.settleNew_within ..) (by decide) (h1 _ _)) (h1 _ _)

theorem State.openChained_within (p : Pkt) (o : OpenReq) (v : Version) (g : Option Gram) (holder : Nat) (r : ChainRec) (s : State) : s.Within [.out, .freeCtr, .ing, .egr, .img, .str, .sto, .ber, .mem, .cas] (State.openChained p o v g holder r s) := by
  unfold State.openChained
  repeat' first
    | with_reducible apply State.Within.refl
    | (with_reducible apply State.Within.step (State.onStream_within ..)) <;> try decide
    | (with_reducible apply State.Within.step (State.refuse_within ..)) <;> try decide
    | (with_reducible apply State.Within.step (State.onCas_within ..)) <;> try decide
    | (with_reducible apply State.Within.step (State.makeReplica_within (by assumption))) <;> try decide
    | (with_reducible apply State.Within.step (State.buildEntry_within (by assumption))) <;> try decide
    | (with_reducible apply State.Within.step (State.send_within ..)) <;> try decide
    | (with_reducible apply State.Within.foldl) <;> try intro _ _
    | with_reducible apply State.Within.ite
    | dsimp only
    | split

theorem State.finishOpen_within (p : Pkt) (slot : Nat) (s : State) : s.Within [.out, .freeCtr, .ing, .egr, .str, .sch, .sto, .ber, .mem] (State.finishOpen p slot s) := by
  unfold State.finishOpen
  repeat' first
    | with_reducible apply State.Within.refl
    | (with_reducible apply State.Within.step (State.pauseDeferred_within ..)) <;> try decide
    | (with_reducible apply State.Within.step (State.cmpFull_within ..)) <;> try decide
    | (with_reducible apply State.Within.step (State.setState_within ..)) <;> try decide
    | (with_reducible apply State.Within.step (State.firstReady_within ..)) <;> try decide
    | (with_reducible apply State.Within.step (State.heldBit_within ..)) <;> try decide
    | (with_reducible apply State.Within.step (State.heldBit_of (by assumption))) <;> try decide
    | (with_reducible apply State.Within.step (State.queueBackground_within ..)) <;> try decide
    | (with_reducible apply State.Within.foldl) <;> try intro _ _
    | with_reducible apply State.Within.ite
    | dsimp only
    | split

theorem State.attachPrefix_within (slot : Nat) (num : Nat) (s : State) : s.Within [.str, .sto] (State.attachPrefix slot num s) := by
  unfold State.attachPrefix
  repeat' first
    | with_reducible apply State.Within.refl
    | (with_reducible apply State.Within.step (State.onStream_within ..)) <;> try decide
    | (with_reducible apply State.Within.step (State.attach_within ..)) <;> try decide
    | (with_reducible apply State.Within.foldl) <;> try intro _ _
    | with_reducible apply State.Within.ite
    | dsimp only
    | split

theorem State.openLocal_within (p : Pkt) (o : OpenReq) (v : Version) (g : Option Gram) (pfx : Option PfxRec) (s : State) : s.Within [.out, .freeCtr, .ing, .egr, .img, .str, .sch, .sto, .ber, .mem] (State.openLocal p o v g pfx s) := by
  unfold State.openLocal
  repeat' first
    | with_reducible apply State.Within.refl
    | (with_reducible apply State.Within.step (State.finishOpen_within ..)) <;> try decide
    | (with_reducible apply State.Within.step (State.refuse_within ..)) <;> try decide
    | (with_reducible apply State.Within.step (State.attachPrefix_within ..)) <;> try decide
    | (with_reducible apply State.Within.step (State.buildEntry_within (by assumption))) <;> try decide
    | (with_reducible apply State.Within.foldl) <;> try intro _ _
    | with_reducible apply State.Within.ite
    | dsimp only
    | split

theorem State.openWith_within (p : Pkt) (found : Option (Option (Nat × ChainRec))) (s0 : State) : s0.Within [.out, .freeCtr, .ing, .egr, .img, .str, .sch, .sto, .ber, .mem, .cas] (State.openWith p found s0) := by
  unfold State.openWith
  repeat' first
    | with_reducible apply State.Within.refl
    | (with_reducible apply State.Within.step (State.refuse_within ..)) <;> try decide
    | (with_reducible apply State.Within.step (State.openChained_within ..)) <;> try decide
    | (with_reducible apply State.Within.step (State.startChain_within ..)) <;> try decide
    | (with_reducible apply State.Within.step (State.openLocal_within ..)) <;> try decide
    | (with_reducible apply State.Within.step (State.lookup_within ..)) <;> try decide
    | (with_reducible apply State.Within.foldl) <;> try intro _ _
    | with_reducible apply State.Within.ite
    | dsimp only
    | split

theorem State.decideChain_within (c : Chain) (s : State) : s.Within [.out, .freeCtr, .ing, .egr, .img, .str, .sch, .sto, .ber, .mem, .cas] (State.decideChain c s) := by
  unfold State.decideChain
  repeat' first
    | with_reducible apply State.Within.refl
    | (with_reducible apply State.Within.step (State.refuse_within ..)) <;> try decide
    | (with_reducible apply State.Within.step (State.onCas_within ..)) <;> try decide
    | (with_reducible apply State.Within.step (State.openWith_within ..)) <;> try decide
    | (with_reducible apply State.Within.step (State.done_within ..)) <;> try decide
    | (with_reducible apply State.Within.foldl) <;> try intro _ _
    | with_reducible apply State.Within.ite
    | dsimp only
    | split

theorem closeWork_within (clash : Option Nat) (p : Pkt) (s0 : State) : s0.Within [.out, .freeCtr, .ing, .egr, .str, .sch, .sto, .ber, .mem, .cas] (closeWork clash p s0) := by
  unfold closeWork
  repeat' first
    | with_reducible apply State.Within.refl
    | (with_reducible apply State.Within.step (State.refuse_within ..)) <;> try decide
    | (with_reducible apply State.Within.step (State.collide_within ..)) <;> try decide
    | (with_reducible apply State.Within.step (State.closeStream_within ..)) <;> try decide
    | (with_reducible apply State.Within.step (State.done_within ..)) <;> try decide
    | (with_reducible apply State.Within.foldl) <;> try intro _ _
    | with_reducible apply State.Within.ite
    | dsimp only
    | split

theorem State.treeBuilds_within (slot : Nat) (s : State) : s.Within [.str] (State.treeBuilds slot s) := by
  unfold State.treeBuilds
  repeat' first
    | with_reducible apply State.Within.refl
    | (with_reducible apply State.Within.step (State.beginBuild_within ..)) <;> try decide
    | (with_reducible apply State.Within.step (State.onStr_within ..)) <;> try decide
    | (with_reducible apply State.Within.foldl) <;> try intro _ _
    | with_reducible apply State.Within.ite
    | dsimp only
    | split

theorem treeHeld_within (p : Pkt) (t : Stream) (record : Nat) (nodes : List TNode) (s : State) :
    s.Within [.out, .freeCtr, .ing, .egr, .str, .mem] (treeHeld p t record nodes s) :=
  .step (State.treeBuilds_within ..) (by decide) (.step (State.done_within ..) (by decide)
    (.step (State.onStream_within ..) (by decide) ((State.withNodes_within ..).mono (by decide))))

theorem treeForked_within (p : Pkt) (t : Stream) (record : Nat) (s : State) (f : Fork) :
    s.Within [.out, .freeCtr, .ing, .egr, .str, .mem] (treeForked p t record s f) := by
  cases f
  · exact (treeHeld_within ..).mono (by decide)
  · exact (State.cmp_within ..).mono (by decide)

theorem treePlaced_within (p : Pkt) (ns : List (Nat × Nat)) {s s0 : State} (h : s.Within [.out, .freeCtr, .ing, .egr, .str, .mem] s0) (t : Option Stream) (r : Option Nat) :
    s.Within [.out, .freeCtr, .ing, .egr, .str, .mem] (treePlaced p ns s s0 t r) := by
  have hr : s.Within [.out, .freeCtr, .ing, .egr, .str, .mem] (s.refuse p stNoSpace) := (State.refuse_within ..).mono (by decide)
  cases t with
  | none => exact hr
  | some t =>
    cases r with
    | none => exact hr
    | some r => exact .ite hr (.step (treeForked_within ..) (by decide) h)

theorem State.treeStart_within {t : Stream} {s u : State} (h : State.treeStart t s = some u) : s.Within [.str] u := by
  unfold State.treeStart at h
  simp only [Option.map_eq_some_iff] at h
  obtain ⟨v, hv, rfl⟩ := h
  exact .step (State.spillLow_within ..) (by decide) (State.takeStack_within hv)

theorem treeEntered_within (p : Pkt) (t : Stream) (ns : List (Nat × Nat)) (s : State) :
    s.Within [.out, .freeCtr, .ing, .egr, .str, .mem] (treeEntered p t ns s) := by
  unfold treeEntered
  split
  · exact (State.refuse_within ..).mono (by decide)
  · rename_i h
    exact (treePlaced_within p _ ((State.treeStart_within h).mono (by decide)) _ _).mono (by decide)

theorem treeWork_within (p : Pkt) (s : State) : s.Within [.out, .freeCtr, .ing, .egr, .str, .mem] (treeWork p s) := by
  have hr (st : Nat) : s.Within [.out, .freeCtr, .ing, .egr, .str, .mem] (s.refuse p st) := (State.refuse_within ..).mono (by decide)
  unfold treeWork
  split
  · exact hr _
  · exact .ite (hr _) (.ite (hr _) ((treeEntered_within ..).mono (by decide)))

theorem State.answerChain_within (source : Nat) (handle : Nat) (tenant : Nat) (request : Nat) (s0 : State) : s0.Within [.out, .ber] (State.answerChain source handle tenant request s0) := by
  unfold State.answerChain
  repeat' first
    | with_reducible apply State.Within.refl
    | (with_reducible apply State.Within.step (State.send_within ..)) <;> try decide
    | (with_reducible apply State.Within.step (State.lookup_within ..)) <;> try decide
    | (with_reducible apply State.Within.foldl) <;> try intro _ _
    | with_reducible apply State.Within.ite
    | dsimp only
    | split

theorem State.standaloneEnd_within (w : Work) (v : Version) (s : State) : s.Within [.out, .freeCtr, .ing, .egr, .img, .str, .ber, .mem] (State.standaloneEnd w v s) := by
  unfold State.standaloneEnd
  repeat' first
    | with_reducible apply State.Within.refl
    | (with_reducible apply State.Within.step (State.memoise_within ..)) <;> try decide
    | (with_reducible apply State.Within.step (State.done_within ..)) <;> try decide
    | (with_reducible apply State.Within.step (State.egressAll_within ..)) <;> try decide
    | (with_reducible apply State.Within.step (State.sweepVersions_within ..)) <;> try decide
    | (with_reducible apply State.Within.foldl) <;> try intro _ _
    | with_reducible apply State.Within.ite
    | dsimp only
    | split

theorem State.segmentLast_within (w : Work) (v : Version) (s : State) : s.Within [.out, .freeCtr, .ing, .egr, .img, .str, .ber, .mem] (State.segmentLast w v s) := by
  unfold State.segmentLast
  repeat' first
    | with_reducible apply State.Within.refl
    | (with_reducible apply State.Within.step (State.segmentEnd_within ..)) <;> try decide
    | (with_reducible apply State.Within.step (State.standaloneEnd_within ..)) <;> try decide
    | (with_reducible apply State.Within.foldl) <;> try intro _ _
    | with_reducible apply State.Within.ite
    | dsimp only
    | split

theorem tokChooseWork_within (p : Pkt) (s : State) : s.Within [.out, .freeCtr, .ing, .egr, .img, .str, .mem] (tokChooseWork p s) := by
  unfold tokChooseWork
  repeat' first
    | with_reducible apply State.Within.refl
    | (with_reducible apply State.Within.step (State.grantOrWait_within (D := [.out, .freeCtr, .ing, .egr, .img, .str, .mem]) (by decide) ?_  ..)) <;> try decide
    | intro _
    | (with_reducible apply State.Within.step (State.onStream_within ..)) <;> try decide
    | (with_reducible apply State.Within.step (State.cmp_within ..)) <;> try decide
    | (with_reducible apply State.Within.step (State.refuse_within ..)) <;> try decide
    | (with_reducible apply State.Within.step (State.commitChoice_within ..)) <;> try decide
    | (with_reducible apply State.Within.foldl) <;> try intro _ _
    | with_reducible apply State.Within.ite
    | dsimp only
    | split

theorem State.settleChain_within (request : Nat) (s : State) : s.Within [.out, .freeCtr, .ing, .egr, .img, .str, .sch, .sto, .ber, .mem, .cas] (State.settleChain request s) := by
  unfold State.settleChain
  repeat' first
    | with_reducible apply State.Within.refl
    | (with_reducible apply State.Within.step (State.decideChain_within ..)) <;> try decide
    | (with_reducible apply State.Within.foldl) <;> try intro _ _
    | with_reducible apply State.Within.ite
    | dsimp only
    | split

theorem State.stage9_within (slot : Nat) (c : Commit) (s : State) : s.Within [.out, .freeCtr, .ing, .egr, .str, .sch, .sto, .ber, .mem] (State.stage9 slot c s) := by
  unfold State.stage9
  repeat' first
    | with_reducible apply State.Within.refl
    | (with_reducible apply State.Within.step (State.onStream_within ..)) <;> try decide
    | (with_reducible apply State.Within.step (State.pauseDeferred_within ..)) <;> try decide
    | (with_reducible apply State.Within.step (State.lookups_within ..)) <;> try decide
    | (with_reducible apply State.Within.step (State.enterReady_within ..)) <;> try decide
    | (with_reducible apply State.Within.step (State.workDone_within ..)) <;> try decide
    | (with_reducible apply State.Within.step (State.done_within ..)) <;> try decide
    | (with_reducible apply State.Within.step (State.setState_within ..)) <;> try decide
    | (with_reducible apply State.Within.step (State.egressAll_within ..)) <;> try decide
    | (with_reducible apply State.Within.step (State.heldBit_within ..)) <;> try decide
    | (with_reducible apply State.Within.step (State.heldBit_of (by assumption))) <;> try decide
    | (with_reducible apply State.Within.step (State.count_within ..)) <;> try decide
    | (with_reducible apply State.Within.foldl) <;> try intro _ _
    | with_reducible apply State.Within.ite
    | dsimp only
    | split

theorem pfxBindWork_within (p : Pkt) (s : State) : s.Within [.out, .freeCtr, .ing, .egr, .str, .sto, .ber, .mem] (pfxBindWork p s) := by
  have hr (st : Nat) (u : State) : u.Within [.out, .freeCtr, .ing, .egr, .str, .sto, .ber, .mem] (u.refuse p st) := (State.refuse_within ..).mono (by decide)
  unfold pfxBindWork
  split
  · exact hr _ _
  · rename_i t _
    have h1 : s.Within [.out, .freeCtr, .ing, .egr, .str, .sto, .ber, .mem] (s.lookup 16 1 [p.arg, t.id.tenant]) := (State.lookup_within ..).mono (by decide)
    dsimp only
    refine .ite (.step (hr _ _) (by decide) h1) (.ite (.step (hr _ _) (by decide) h1) ?_)
    split
    · exact .step (hr _ _) (by decide) h1
    · rename_i hs
      exact .step (State.done_within ..) (by decide) (.ite
        (.step (State.setChain_within ..) (by decide) (.step (State.onSto_within ..) (by decide) (.step (State.insertUse_within hs) (by decide) h1)))
        (.step (State.setChain_within ..) (by decide) (.step (State.onStream_within ..) (by decide)
          (.step (State.setChain_within ..) (by decide) (.step (State.onSto_within ..) (by decide) (.step (State.insertUse_within hs) (by decide) h1))))))

theorem pfxFindWork_within (p : Pkt) (s0 : State) : s0.Within [.out, .freeCtr, .ing, .egr, .str, .ber, .mem, .cas] (pfxFindWork p s0) := by
  unfold pfxFindWork
  repeat' first
    | with_reducible apply State.Within.refl
    | (with_reducible apply State.Within.step (State.refuse_within ..)) <;> try decide
    | (with_reducible apply State.Within.step (State.done_within ..)) <;> try decide
    | (with_reducible apply State.Within.step (State.startChain_within ..)) <;> try decide
    | (with_reducible apply State.Within.step (State.lookup_within ..)) <;> try decide
    | (with_reducible apply State.Within.foldl) <;> try intro _ _
    | with_reducible apply State.Within.ite
    | dsimp only
    | split

theorem State.countLane_within (w : Work) (v : Version) (items : List Item) (s : State) : s.Within [.ber] (State.countLane w v items s) := by
  unfold State.countLane
  repeat' first
    | with_reducible apply State.Within.refl
    | (with_reducible apply State.Within.step (State.useSlots_within ..)) <;> try decide
    | (with_reducible apply State.Within.foldl) <;> try intro _ _
    | with_reducible apply State.Within.ite
    | dsimp only
    | split

theorem State.endHeal_within (slot : Nat) (s : State) : s.Within [.str] (State.endHeal slot s).1 := by
  unfold State.endHeal
  repeat' first
    | with_reducible apply State.Within.refl
    | (with_reducible apply State.Within.step (State.stow_within ..)) <;> try decide
    | (with_reducible apply State.Within.step (State.dropBuilds_within ..)) <;> try decide
    | (with_reducible apply State.Within.step (State.onStream_within ..)) <;> try decide
    | (with_reducible apply State.Within.foldl) <;> try intro _ _
    | with_reducible apply State.Within.ite
    | dsimp only
    | split

theorem State.endHeal_of {slot : Nat} {s : State} {r} (h : State.endHeal slot s = r) : s.Within [.str] r.1 := h ▸ State.endHeal_within slot s

theorem State.toPrompt_within (slot : Nat) (s : State) : s.Within [.str] (State.toPrompt slot s) := by
  unfold State.toPrompt
  repeat' first
    | with_reducible apply State.Within.refl
    | (with_reducible apply State.Within.step (State.onStream_within ..)) <;> try decide
    | (with_reducible apply State.Within.foldl) <;> try intro _ _
    | with_reducible apply State.Within.ite
    | dsimp only
    | split

theorem encTextWork_within (p : Pkt) (s : State) : s.Within [.out, .freeCtr, .ing, .egr, .str, .mem] (encTextWork p s) := by
  unfold encTextWork
  repeat' first
    | with_reducible apply State.Within.refl
    | (with_reducible apply State.Within.step (State.onWork_within ..)) <;> try decide
    | (with_reducible apply State.Within.step (State.onStream_within ..)) <;> try decide
    | (with_reducible apply State.Within.step (State.refuse_within ..)) <;> try decide
    | (with_reducible apply State.Within.step (State.endHeal_within ..)) <;> try decide
    | (with_reducible apply State.Within.step (State.endHeal_of (by assumption))) <;> try decide
    | (with_reducible apply State.Within.step (State.toPrompt_within ..)) <;> try decide
    | (with_reducible apply State.Within.foldl) <;> try intro _ _
    | with_reducible apply State.Within.ite
    | dsimp only
    | split

theorem encRawWork_within (p : Pkt) (s : State) : s.Within [.out, .freeCtr, .ing, .egr, .str, .mem] (encRawWork p s) := by
  unfold encRawWork
  repeat' first
    | with_reducible apply State.Within.refl
    | (with_reducible apply State.Within.step (State.stow_within ..)) <;> try decide
    | (with_reducible apply State.Within.step (State.onStream_within ..)) <;> try decide
    | (with_reducible apply State.Within.step (State.refuse_within ..)) <;> try decide
    | (with_reducible apply State.Within.step (State.done_within ..)) <;> try decide
    | (with_reducible apply State.Within.step (State.endHeal_within ..)) <;> try decide
    | (with_reducible apply State.Within.step (State.endHeal_of (by assumption))) <;> try decide
    | (with_reducible apply State.Within.step (State.toPrompt_within ..)) <;> try decide
    | (with_reducible apply State.Within.foldl) <;> try intro _ _
    | with_reducible apply State.Within.ite
    | dsimp only
    | split

theorem pfxDropWork_within (p : Pkt) (s0 : State) : s0.Within [.out, .freeCtr, .ing, .egr, .str, .sch, .sto, .ber, .mem] (pfxDropWork p s0) := by
  unfold pfxDropWork
  repeat' first
    | with_reducible apply State.Within.refl
    | (with_reducible apply State.Within.step (State.refuse_within ..)) <;> try decide
    | (with_reducible apply State.Within.step (State.dropRecords_within ..)) <;> try decide
    | (with_reducible apply State.Within.step (State.done_within ..)) <;> try decide
    | (with_reducible apply State.Within.step (State.lookup_within ..)) <;> try decide
    | (with_reducible apply State.Within.foldl) <;> try intro _ _
    | with_reducible apply State.Within.ite
    | dsimp only
    | split

theorem State.segmentPart_within (w : Work) (v : Version) (items : List Item) (s : State) : s.Within [.ing, .img, .str] (State.segmentPart w v items s) := by
  unfold State.segmentPart
  repeat' first
    | with_reducible apply State.Within.refl
    | (with_reducible apply State.Within.step (State.stow_within ..)) <;> try decide
    | (with_reducible apply State.Within.step (State.memoise_within ..)) <;> try decide
    | (with_reducible apply State.Within.step (State.onWork_within ..)) <;> try decide
    | (with_reducible apply State.Within.step (State.onStream_within ..)) <;> try decide
    | (with_reducible apply State.Within.step (State.beginSegment_within ..)) <;> try decide
    | (with_reducible apply State.Within.foldl) <;> try intro _ _
    | with_reducible apply State.Within.ite
    | dsimp only
    | split

end Sys2Proof.Machine
end

