-- ==== Sys2Proof/Laws/Moves.lean ====
section
/-! SUPPORT. What pausing, moving, staging, the lintel and scheduling can do. -/
set_option linter.unusedTactic false
set_option linter.unreachableTactic false
set_option linter.unusedSimpArgs false
set_option linter.unusedVariables false
namespace Sys2Proof.Machine
open Sys2Proof

theorem State.sealVerdict_within (step : Nat) (pass : Bool) (s : State) : s.Within [.out, .str, .sto] (State.sealVerdict step pass s) := by
  unfold State.sealVerdict
  repeat' first
    | with_reducible apply State.Within.refl
    | (with_reducible apply State.Within.step (State.onStream_within ..)) <;> try decide
    | (with_reducible apply State.Within.step (State.setChain_within ..)) <;> try decide
    | (with_reducible apply State.Within.step (State.send_within ..)) <;> try decide
    | (with_reducible apply State.Within.foldl) <;> try intro _ _
    | with_reducible apply State.Within.ite
    | dsimp only
    | split

theorem State.voidChoices_within (x : Step) (s : State) : s.Within [.out, .freeCtr, .ing, .egr, .str, .mem] (State.voidChoices x s) := by
  unfold State.voidChoices
  repeat' first
    | with_reducible apply State.Within.refl
    | (with_reducible apply State.Within.step (State.onStream_within ..)) <;> try decide
    | (with_reducible apply State.Within.step (State.refuse_within ..)) <;> try decide
    | (with_reducible apply State.Within.step (State.onStr_within ..)) <;> try decide
    | (with_reducible apply State.Within.foldl) <;> try intro _ _
    | with_reducible apply State.Within.ite
    | dsimp only
    | split

theorem State.voidStep_within (own : Bool) (step : Nat) (s : State) : s.Within [.out, .freeCtr, .ing, .egr, .str, .sch, .sto, .mem] (State.voidStep own step s) := by
  unfold State.voidStep
  repeat' first
    | with_reducible apply State.Within.refl
    | (with_reducible apply State.Within.step (State.onStep_within ..)) <;> try decide
    | (with_reducible apply State.Within.step (State.sealVerdict_within ..)) <;> try decide
    | (with_reducible apply State.Within.step (State.emits_within ..)) <;> try decide
    | (with_reducible apply State.Within.step (State.onSch_within ..)) <;> try decide
    | (with_reducible apply State.Within.step (State.voidChoices_within ..)) <;> try decide
    | (with_reducible apply State.Within.step (State.emit_within ..)) <;> try decide
    | (with_reducible apply State.Within.foldl) <;> try intro _ _
    | with_reducible apply State.Within.ite
    | dsimp only
    | split

theorem State.dropHeld_within (p : Sealed) (s : State) : s.Within [.cas] (State.dropHeld p s) := by
  unfold State.dropHeld
  repeat' first
    | with_reducible apply State.Within.refl
    | (with_reducible apply State.Within.step (State.onCas_within ..)) <;> try decide
    | (with_reducible apply State.Within.foldl) <;> try intro _ _
    | with_reducible apply State.Within.ite
    | dsimp only
    | split

theorem State.discardEntry_within (p : Sealed) (s : State) : s.Within [.img, .str, .sto, .ber, .cas] (State.discardEntry p s) := by
  unfold State.discardEntry
  repeat' first
    | with_reducible apply State.Within.refl
    | (with_reducible apply State.Within.step (State.rollback_within ..)) <;> try decide
    | (with_reducible apply State.Within.step (State.dropStop_within ..)) <;> try decide
    | (with_reducible apply State.Within.step (State.dropHeld_within ..)) <;> try decide
    | (with_reducible apply State.Within.step (State.onStr_within ..)) <;> try decide
    | (with_reducible apply State.Within.foldl) <;> try intro _ _
    | with_reducible apply State.Within.ite
    | dsimp only
    | split

theorem State.voidHeld_within (p : Sealed) (s : State) : s.Within [.img, .str, .sto, .ber, .cas] (State.voidHeld p s) := by
  unfold State.voidHeld
  repeat' first
    | with_reducible apply State.Within.refl
    | (with_reducible apply State.Within.step (State.discardEntry_within ..)) <;> try decide
    | (with_reducible apply State.Within.step (State.dropHeld_within ..)) <;> try decide
    | (with_reducible apply State.Within.foldl) <;> try intro _ _
    | with_reducible apply State.Within.ite
    | dsimp only
    | split

theorem State.discardFrom_within (member : Nat) (s : State) : s.Within [.img, .str, .sto, .ber, .cas] (State.discardFrom member s) := by
  unfold State.discardFrom
  repeat' first
    | with_reducible apply State.Within.refl
    | (with_reducible apply State.Within.step (State.voidHeld_within ..)) <;> try decide
    | (with_reducible apply State.Within.foldl) <;> try intro _ _
    | with_reducible apply State.Within.ite
    | dsimp only
    | split

theorem State.returnStream_within (slot : Nat) (s : State) : s.Within [.str] (State.returnStream slot s) := by
  unfold State.returnStream
  repeat' first
    | with_reducible apply State.Within.refl
    | (with_reducible apply State.Within.step (State.stow_within ..)) <;> try decide
    | (with_reducible apply State.Within.step (State.renewShutter_within ..)) <;> try decide
    | (with_reducible apply State.Within.step (State.onStream_within ..)) <;> try decide
    | (with_reducible apply State.Within.step (State.enterReady_within ..)) <;> try decide
    | (with_reducible apply State.Within.step (State.leavePrompt_within ..)) <;> try decide
    | (with_reducible apply State.Within.foldl) <;> try intro _ _
    | with_reducible apply State.Within.ite
    | dsimp only
    | split

theorem State.finishResume_within (slot : Nat) (p : Option Pkt) (s : State) : s.Within [.out, .freeCtr, .ing, .egr, .str, .sch, .sto, .ber, .mem] (State.finishResume slot p s) := by
  unfold State.finishResume
  repeat' first
    | with_reducible apply State.Within.refl
    | (with_reducible apply State.Within.step (State.returnStream_within ..)) <;> try decide
    | (with_reducible apply State.Within.step (State.pauseDeferred_within ..)) <;> try decide
    | (with_reducible apply State.Within.step (State.done_within ..)) <;> try decide
    | (with_reducible apply State.Within.step (State.heldBit_within ..)) <;> try decide
    | (with_reducible apply State.Within.step (State.heldBit_of (by assumption))) <;> try decide
    | (with_reducible apply State.Within.foldl) <;> try intro _ _
    | with_reducible apply State.Within.ite
    | dsimp only
    | split

theorem raiseWork_within (p : Pkt) (s : State) : s.Within [.out, .freeCtr, .ing, .egr, .str, .sch, .mem] (raiseWork p s) := by
  unfold raiseWork
  repeat' first
    | with_reducible apply State.Within.refl
    | (with_reducible apply State.Within.step (State.refuse_within ..)) <;> try decide
    | (with_reducible apply State.Within.step (State.onSch_within ..)) <;> try decide
    | (with_reducible apply State.Within.foldl) <;> try intro _ _
    | with_reducible apply State.Within.ite
    | dsimp only
    | split

theorem State.resumeHere_within {slot : Nat} {p : Option Pkt} {s u : State} (h : State.resumeHere slot p s = some u) :
    s.Within [.out, .freeCtr, .ing, .egr, .str, .sch, .sto, .ber, .mem] u := by
  unfold State.resumeHere at h
  split at h
  · cases h
  · split at h
    · cases h
    · split at h
      · cases h
      · split at h
        · cases h
          exact .step (State.finishResume_within ..) (by decide) ((State.onStream_within ..).mono (by decide))
        · split at h
          · cases h
          · rename_i pages s1 hp
            dsimp only at h
            cases h
            have h1 : s.Within [.out, .freeCtr, .ing, .egr, .str, .sch, .sto, .ber, .mem] s1 := by
              split at hp
              · cases hp
                exact .refl _ _
              · exact (State.takePages_within hp).mono (by decide)
            exact .step (State.emit_within ..) (by decide) (.step (State.setChain_within ..) (by decide)
              (.step (State.stow_within ..) (by decide) (.step (State.onStream_within ..) (by decide) h1)))

theorem resumeWork_within (p : Pkt) (s : State) : s.Within [.out, .freeCtr, .ing, .egr, .str, .sch, .sto, .ber, .mem] (resumeWork p s) := by
  unfold resumeWork
  repeat' first
    | with_reducible exact .refl _ _
    | with_reducible refine .step (State.onStream_within ..) (by decide) ?_
    | with_reducible refine .step (State.refuse_within ..) (by decide) ?_
    | split
    | dsimp only
  cases h : State.resumeHere _ (some p) s with
  | none => exact (State.refuse_within ..).mono (by decide)
  | some u => exact State.resumeHere_within h

theorem State.makePrivate_within (slot : Nat) (node : Nat) (bits : List Bool) (s : State) : s.Within [.str] (State.makePrivate slot node bits s) := by
  unfold State.makePrivate
  repeat' first
    | with_reducible apply State.Within.refl
    | (with_reducible apply State.Within.step (State.privInsert_within ..)) <;> try decide
    | (with_reducible apply State.Within.step (State.privInsert_of (by assumption))) <;> try decide
    | (with_reducible apply State.Within.step (State.setNode_within ..)) <;> try decide
    | (with_reducible apply State.Within.foldl) <;> try intro _ _
    | with_reducible apply State.Within.ite
    | dsimp only
    | split

theorem State.setSlot_within (n : Nat) (l : LoadSlot) (s : State) : s.Within [.img] (State.setSlot n l s) := by
  unfold State.setSlot
  repeat' first
    | with_reducible apply State.Within.refl
    | (with_reducible apply State.Within.step (State.onImg_within ..)) <;> try decide
    | (with_reducible apply State.Within.foldl) <;> try intro _ _
    | with_reducible apply State.Within.ite
    | dsimp only
    | split

theorem State.emptySlot_within (n : Nat) (s : State) : s.Within [.img] (State.emptySlot n s) := by
  unfold State.emptySlot
  repeat' first
    | with_reducible apply State.Within.refl
    | (with_reducible apply State.Within.step (State.setSlot_within ..)) <;> try decide
    | (with_reducible apply State.Within.foldl) <;> try intro _ _
    | with_reducible apply State.Within.ite
    | dsimp only
    | split

theorem State.chunkIn_within (p : Pkt) (slot : Nat) (old : Nat) (evicted : Nat) (s : State) : s.Within [.out, .freeCtr, .ing, .egr, .img, .str, .mem] (State.chunkIn p slot old evicted s) := by
  unfold State.chunkIn
  repeat' first
    | with_reducible apply State.Within.refl
    | (with_reducible apply State.Within.step (State.onWork_within ..)) <;> try decide
    | (with_reducible apply State.Within.step (State.emptySlot_within ..)) <;> try decide
    | (with_reducible apply State.Within.step (State.refuse_within ..)) <;> try decide
    | (with_reducible apply State.Within.step (State.setSlot_within ..)) <;> try decide
    | (with_reducible apply State.Within.step (State.done_within ..)) <;> try decide
    | (with_reducible apply State.Within.foldl) <;> try intro _ _
    | with_reducible apply State.Within.ite
    | dsimp only
    | split

theorem State.applyPolicy_within (slot : Nat) (s : State) : s.Within [.out, .freeCtr, .ing, .egr, .str, .sch, .sto, .ber, .mem, .cas] (State.applyPolicy slot s) := by
  unfold State.applyPolicy
  repeat' first
    | with_reducible apply State.Within.refl
    | (with_reducible apply State.Within.step (State.onStream_within ..)) <;> try decide
    | (with_reducible apply State.Within.step (State.closeStream_within ..)) <;> try decide
    | (with_reducible apply State.Within.step (State.eventFull_within ..)) <;> try decide
    | (with_reducible apply State.Within.foldl) <;> try intro _ _
    | with_reducible apply State.Within.ite
    | dsimp only
    | split

theorem State.unpark_within (step : Nat) (slot : Nat) (node : Nat) (s : State) : s.Within [.sch] (State.unpark step slot node s) := by
  unfold State.unpark
  repeat' first
    | with_reducible apply State.Within.refl
    | (with_reducible apply State.Within.step (State.onSch_within ..)) <;> try decide
    | (with_reducible apply State.Within.foldl) <;> try intro _ _
    | with_reducible apply State.Within.ite
    | dsimp only
    | split

theorem State.sweepSteps_within (s : State) : s.Within [.sch] (State.sweepSteps s) := by
  unfold State.sweepSteps
  repeat' first
    | with_reducible apply State.Within.refl
    | (with_reducible apply State.Within.step (State.onSch_within ..)) <;> try decide
    | (with_reducible apply State.Within.foldl) <;> try intro _ _
    | with_reducible apply State.Within.ite
    | dsimp only
    | split

theorem State.handOver_within (x : Step) (t : Stream) (r : Row) (sh : Shaped) (s : State) : s.Within [.out, .aon, .egr, .str, .sch, .mem] (State.handOver x t r sh s) := by
  unfold State.handOver
  repeat' first
    | with_reducible apply State.Within.refl
    | (with_reducible apply State.Within.step (State.wakeDomain_within ..)) <;> try decide
    | (with_reducible apply State.Within.step (State.onStream_within ..)) <;> try decide
    | (with_reducible apply State.Within.step (State.onStep_within ..)) <;> try decide
    | (with_reducible apply State.Within.step (State.unpark_within ..)) <;> try decide
    | (with_reducible apply State.Within.step (State.egressFor_within ..)) <;> try decide
    | (with_reducible apply State.Within.step (State.workDone_within ..)) <;> try decide
    | (with_reducible apply State.Within.step (State.sweepSteps_within ..)) <;> try decide
    | (with_reducible apply State.Within.step (State.onSch_within ..)) <;> try decide
    | (with_reducible apply State.Within.step (State.emit_within ..)) <;> try decide
    | (with_reducible apply State.Within.foldl) <;> try intro _ _
    | with_reducible apply State.Within.ite
    | dsimp only
    | split

theorem State.refusePending_within (slot : Nat) (s : State) : s.Within [.out, .freeCtr, .ing, .egr, .str, .mem] (State.refusePending slot s) := by
  unfold State.refusePending
  repeat' first
    | with_reducible apply State.Within.refl
    | (with_reducible apply State.Within.step (State.onStream_within ..)) <;> try decide
    | (with_reducible apply State.Within.step (State.refuse_within ..)) <;> try decide
    | (with_reducible apply State.Within.foldl) <;> try intro _ _
    | with_reducible apply State.Within.ite
    | dsimp only
    | split

theorem State.recordModel_within (r : LowerReq) (s : State) : s.Within [.sch] (State.recordModel r s) := by
  unfold State.recordModel
  repeat' first
    | with_reducible apply State.Within.refl
    | (with_reducible apply State.Within.step (State.onSch_within ..)) <;> try decide
    | (with_reducible apply State.Within.foldl) <;> try intro _ _
    | with_reducible apply State.Within.ite
    | dsimp only
    | split

theorem State.dropLintelSum_within (slot : Nat) (s : State) : s.Within [.str, .sch] (State.dropLintelSum slot s) := by
  unfold State.dropLintelSum
  repeat' first
    | with_reducible apply State.Within.refl
    | (with_reducible apply State.Within.step (State.onStream_within ..)) <;> try decide
    | (with_reducible apply State.Within.step (State.releaseSummary_within ..)) <;> try decide
    | (with_reducible apply State.Within.foldl) <;> try intro _ _
    | with_reducible apply State.Within.ite
    | dsimp only
    | split

theorem lowerNow_within (p : Pkt) (s : State) : s.Within [.out, .freeCtr, .ing, .egr, .str, .sch, .sto, .ber, .mem] (lowerNow p s) := by
  unfold lowerNow
  repeat' first
    | with_reducible apply State.Within.refl
    | (with_reducible apply State.Within.step (State.onStream_within ..)) <;> try decide
    | (with_reducible apply State.Within.step (State.refuse_within ..)) <;> try decide
    | (with_reducible apply State.Within.step (State.refusePending_within ..)) <;> try decide
    | (with_reducible apply State.Within.step (State.recordModel_within ..)) <;> try decide
    | (with_reducible apply State.Within.step (State.dropLintelSum_within ..)) <;> try decide
    | (with_reducible apply State.Within.step (State.done_within ..)) <;> try decide
    | (with_reducible apply State.Within.step (State.lintelPause_within ..)) <;> try decide
    | (with_reducible apply State.Within.step (State.onStr_within ..)) <;> try decide
    | (with_reducible apply State.Within.step (State.onSch_within ..)) <;> try decide
    | (with_reducible apply State.Within.step (State.event_within ..)) <;> try decide
    | (with_reducible apply State.Within.foldl) <;> try intro _ _
    | with_reducible apply State.Within.ite
    | dsimp only
    | split

theorem State.finishRaise_within (s : State) : s.Within [.out, .freeCtr, .ing, .egr, .str, .sch, .sto, .ber, .mem] (State.finishRaise s) := by
  unfold State.finishRaise
  repeat' first
    | with_reducible apply State.Within.refl
    | (with_reducible apply State.Within.step (lowerNow_within ..)) <;> try decide
    | (with_reducible apply State.Within.step (State.done_within ..)) <;> try decide
    | (with_reducible apply State.Within.step (State.onSch_within ..)) <;> try decide
    | (with_reducible apply State.Within.step (State.event_within ..)) <;> try decide
    | (with_reducible apply State.Within.foldl) <;> try intro _ _
    | with_reducible apply State.Within.ite
    | dsimp only
    | split

theorem State.starved_within (s : State) : s.Within [.out, .aon] (State.starved s) := by
  unfold State.starved
  repeat' first
    | with_reducible apply State.Within.refl
    | (with_reducible apply State.Within.step (State.raise_within ..)) <;> try decide
    | (with_reducible apply State.Within.foldl) <;> try intro _ _
    | with_reducible apply State.Within.ite
    | dsimp only
    | split

theorem State.reserve_within {slot : Nat} {s u : State} (h : State.reserve slot s = some u) : s.Within [.str, .sch] u := by
  unfold State.reserve at h
  split at h
  · cases h
  · rename_i t _
    have h1 : s.Within [.str, .sch] (if t.parse.gstate == .active then State.spillLow s.str.tab.length s else s) :=
      .ite ((State.spillLow_within ..).mono (by decide)) (.refl _ _)
    extract_lets s1 k at h
    split at h
    · simp at h
    · split at h
      · simp only [Option.some.injEq] at h
        exact h ▸ h1
      · split at h
        · simp at h
        · simp only [Option.some.injEq] at h
          exact h ▸ .step (State.onSch_within ..) (by decide) h1

theorem State.onSch_within' {D : List Field} {s : State} (f : Sched → Sched) (hd : [Field.sch].all D.contains = true) :
    s.Within D (s.onSch f) := (State.onSch_within f s).mono hd

theorem Issue.addEntry_within (slot kind feed : Nat) (row : Bool) (pages : List Nat) (a : Issue) {s t : State}
    (h : s.Within [.out, .freeCtr, .aon, .ing, .egr, .img, .str, .sch, .sto, .ber, .mem, .cas] t) (h0 : s.Within [.out, .freeCtr, .aon, .ing, .egr, .img, .str, .sch, .sto, .ber, .mem, .cas] a.s) : s.Within [.out, .freeCtr, .aon, .ing, .egr, .img, .str, .sch, .sto, .ber, .mem, .cas] (Issue.addEntry slot kind feed row pages a t).s := by
  unfold Issue.addEntry
  split
  · exact h0
  · dsimp only
    have h1 (f : Stream → Stream) (l : List Nat) : s.Within [.out, .freeCtr, .aon, .ing, .egr, .img, .str, .sch, .sto, .ber, .mem, .cas] (((t.setChain .stream l).onStream slot f).stow slot) :=
      .step (State.stow_within ..) (by decide) (.step (State.onStream_within ..) (by decide) (.step (State.setChain_within ..) (by decide) h))
    exact .ite (h1 ..) (.step (State.useGram_within ..) (by decide) (h1 ..))

theorem Issue.generation_within (entries tokens : Nat) (a : Issue) (slot : Nat) :
    a.s.Within [.out, .freeCtr, .aon, .ing, .egr, .img, .str, .sch, .sto, .ber, .mem, .cas] (Issue.generation entries tokens a slot).s := by
  unfold Issue.generation
  dsimp only
  repeat' split
  all_goals first
    | exact .refl _ _
    | exact (State.holdStream_within ..).mono (by decide)
    | exact (State.starved_within ..).mono (by decide)
    | (rename_i h1 _ _ h2 _
       exact Issue.addEntry_within _ _ _ _ _ _ (.step (State.charge_within ..) (by decide) (.step (State.reserve_within h2) (by decide)
         ((State.takePages_within h1).mono (by decide)))) (.refl _ _))
    | (rename_i h1 _ _ _ h2
       exact Issue.addEntry_within _ _ _ _ _ _ (.step (State.charge_within ..) (by decide) (.step (State.reserve_within h2) (by decide)
         ((State.takePages_within h1).mono (by decide)))) (.refl _ _))

theorem Issue.prompt_within (entries tokens : Nat) (a : Issue) (slot : Nat) : a.s.Within [.out, .freeCtr, .aon, .ing, .egr, .img, .str, .sch, .sto, .ber, .mem, .cas] (Issue.prompt entries tokens a slot).s := by
  unfold Issue.prompt
  dsimp only
  repeat' split
  all_goals first
    | exact .refl _ _
    | exact (State.holdStream_within ..).mono (by decide)
    | (rename_i h1
       exact Issue.addEntry_within _ _ _ _ _ _ (.step (State.charge_within ..) (by decide) ((State.takePages_within h1).mono (by decide))) (.refl _ _))

theorem Issue.summary_within (entries : Nat) (a : Issue) (slot : Nat) : a.s.Within [.out, .freeCtr, .aon, .ing, .egr, .img, .str, .sch, .sto, .ber, .mem, .cas] (Issue.summary entries a slot).s := by
  unfold Issue.summary
  dsimp only
  split
  · exact .refl _ _
  · split
    · (dsimp only; exact State.onSch_within' (D := [Field.out, .freeCtr, .aon, .ing, .egr, .img, .str, .sch, .sto, .ber, .mem, .cas]) (s := a.s) _ (by decide))
    · split
      · (dsimp only; exact State.onSch_within' (D := [Field.out, .freeCtr, .aon, .ing, .egr, .img, .str, .sch, .sto, .ber, .mem, .cas]) (s := a.s) _ (by decide))
      · exact .step (State.onStream_within ..) (by decide) (State.onSch_within' (D := [Field.out, .freeCtr, .aon, .ing, .egr, .img, .str, .sch, .sto, .ber, .mem, .cas]) (s := a.s) _ (by decide))

theorem Issue.release_within (entries : Nat) (a : Issue) (h : Nat) : a.s.Within [.out, .freeCtr, .aon, .ing, .egr, .img, .str, .sch, .sto, .ber, .mem, .cas] (Issue.release entries a h).s := by
  unfold Issue.release
  split
  · exact .refl _ _
  · (dsimp only; exact State.onSch_within' (D := [Field.out, .freeCtr, .aon, .ing, .egr, .img, .str, .sch, .sto, .ber, .mem, .cas]) (s := a.s) _ (by decide))

theorem Issue.send_within (a : Issue) : a.s.Within [.out, .aon, .sch] a.send := by
  unfold Issue.send
  dsimp only
  split
  · exact .refl _ _
  · refine .step (State.emit_within ..) (by decide) (.step (State.onSch_within ..) (by decide) (.step (State.onAon_within
      fun _ h => ⟨h.sensors, h.domains, h.counters, h.vset, h.thresh, h.causes⟩) (by decide) ?_))
    split
    · exact .refl _ _
    · exact (State.wakeDomain_within ..).mono (by decide)

theorem Issue.foldl_within {D : List Field} {f : Issue → Nat → Issue} (hf : ∀ (a : Issue) (n : Nat), a.s.Within D (f a n).s) (l : List Nat) (a : Issue) :
    a.s.Within D (l.foldl f a).s := by
  induction l generalizing a with
  | nil => exact .refl _ _
  | cons x xs ih => exact .step (ih (f a x)) (by simp [List.all_eq_true]) (hf a x)

theorem State.issue_within (entries tokens : Nat) (s : State) : s.Within [.out, .freeCtr, .aon, .ing, .egr, .img, .str, .sch, .sto, .ber, .mem, .cas] (s.issue entries tokens) := by
  unfold State.issue
  dsimp only
  split
  · exact .step (State.finishRaise_within ..) (by decide) (.step (Issue.send_within ..) (by decide)
      ((Issue.foldl_within (Issue.summary_within entries) s.sch.sumLintel { s := s, ents := [], toks := 0 }).mono (by decide)))
  · refine .step (Issue.send_within ..) (by decide) (.step (Issue.foldl_within (Issue.release_within entries) ..) (by decide)
      (.step (Issue.foldl_within (Issue.summary_within entries) ..) (by decide)
      (.step (Issue.foldl_within (Issue.prompt_within entries tokens) ..) (by decide) ?_)))
    split
    · exact .step (Issue.foldl_within (Issue.generation_within entries tokens) ..) (by decide) ((State.unholdAll_within _).mono (by decide))
    · exact (State.unholdAll_within _).mono (by decide)

theorem State.moveStream_within (uid : Nat) (t : Stream) (s : State) : s.Within [.str] (State.moveStream uid t s) := by
  unfold State.moveStream
  repeat' first
    | with_reducible apply State.Within.refl
    | (with_reducible apply State.Within.step (State.dropBuilds_within ..)) <;> try decide
    | (with_reducible apply State.Within.step (State.renewShutter_within ..)) <;> try decide
    | (with_reducible apply State.Within.step (State.onStream_within ..)) <;> try decide
    | (with_reducible apply State.Within.step (State.beginBuild_within ..)) <;> try decide
    | (with_reducible apply State.Within.step (State.dropTree_within ..)) <;> try decide
    | (with_reducible apply State.Within.foldl) <;> try intro _ _
    | with_reducible apply State.Within.ite
    | dsimp only
    | split

theorem State.discardCache_within (guid : Nat) (s : State) : s.Within [.str] (State.discardCache guid s) := by
  unfold State.discardCache
  repeat' first
    | with_reducible apply State.Within.refl
    | (with_reducible apply State.Within.step (State.makePrivate_within ..)) <;> try decide
    | (with_reducible apply State.Within.step (State.dropCache_within ..)) <;> try decide
    | (with_reducible apply State.Within.foldl) <;> try intro _ _
    | with_reducible apply State.Within.ite
    | dsimp only
    | split

theorem State.applyGram_within (l : LoadSlot) (id : Nat) (pool : Nat) (need : Nat) (crc : Nat) (body : GramBody) (s : State) : s.Within [.img, .str] (State.applyGram l id pool need crc body s) := by
  unfold State.applyGram
  repeat' first
    | with_reducible apply State.Within.refl
    | (with_reducible apply State.Within.step (State.onImg_within ..)) <;> try decide
    | (with_reducible apply State.Within.step (State.moveStream_within ..)) <;> try decide
    | (with_reducible apply State.Within.step (State.discardCache_within ..)) <;> try decide
    | (with_reducible apply State.Within.foldl) <;> try intro _ _
    | with_reducible apply State.Within.ite
    | dsimp only
    | split

theorem State.transit_within (slot : Nat) (s : State) : s.Within [.sto] (State.transit slot s) := by
  unfold State.transit
  repeat' first
    | with_reducible apply State.Within.refl
    | (with_reducible apply State.Within.step (State.setChain_within ..)) <;> try decide
    | (with_reducible apply State.Within.foldl) <;> try intro _ _
    | with_reducible apply State.Within.ite
    | dsimp only
    | split

theorem State.takePause_within (slot : Nat) (s : State) : s.Within [.out, .str, .sch, .sto] (State.takePause slot s) := by
  unfold State.takePause
  repeat' first
    | with_reducible apply State.Within.refl
    | (with_reducible apply State.Within.step (State.onStream_within ..)) <;> try decide
    | (with_reducible apply State.Within.step (State.transit_within ..)) <;> try decide
    | (with_reducible apply State.Within.step (State.onSch_within ..)) <;> try decide
    | (with_reducible apply State.Within.step (State.dropTree_within ..)) <;> try decide
    | (with_reducible apply State.Within.step (State.emit_within ..)) <;> try decide
    | (with_reducible apply State.Within.foldl) <;> try intro _ _
    | with_reducible apply State.Within.ite
    | dsimp only
    | split

theorem State.answerPackage_within (p : Sealed) (a : MigAnswer) (s : State) : s.Within [.out] (State.answerPackage p a s) := by
  unfold State.answerPackage
  repeat' first
    | with_reducible apply State.Within.refl
    | (with_reducible apply State.Within.step (State.send_within ..)) <;> try decide
    | (with_reducible apply State.Within.foldl) <;> try intro _ _
    | with_reducible apply State.Within.ite
    | dsimp only
    | split

theorem State.takeBody_within (p : Sealed) (s : State) : s.Within [.out, .freeCtr, .ing, .egr, .str, .sch, .sto, .ber, .mem, .cas] (State.takeBody p s) := by
  unfold State.takeBody
  extract_lets b slot st s1 s2 s3
  have h1 : s.Within [.out, .freeCtr, .ing, .egr, .str, .sch, .sto, .ber, .mem, .cas] s1 := .step (State.onStream_within ..) (by decide) (.step (State.setChain_within ..) (by decide)
    ((State.dropHeld_within ..).mono (by decide)))
  have h2 : s.Within [.out, .freeCtr, .ing, .egr, .str, .sch, .sto, .ber, .mem, .cas] s2 := .ite h1 (.step (State.renewShutter_within ..) (by decide) h1)
  have h3 : s.Within [.out, .freeCtr, .ing, .egr, .str, .sch, .sto, .ber, .mem, .cas] s3 := .ite (.step (State.enterReady_within ..) (by decide) h2) h2
  split
  · exact h3
  · extract_lets s4
    have h4 : s.Within [.out, .freeCtr, .ing, .egr, .str, .sch, .sto, .ber, .mem, .cas] s4 := .step (State.pauseDeferred_within ..) (by decide) (.step (State.leavePrompt_within ..) (by decide)
      (.step (State.answerPackage_within ..) (by decide) h3))
    exact .ite (.getD (fun v hv => .step (State.resumeHere_within hv) (by decide) h4) h4) h4

theorem State.settleHeld_within (p : Sealed) (s : State) : s.Within [.out, .freeCtr, .ing, .egr, .str, .sch, .sto, .ber, .mem, .cas] (State.settleHeld p s) := by
  unfold State.settleHeld
  repeat' first
    | with_reducible apply State.Within.refl
    | (with_reducible apply State.Within.step (State.answerPackage_within ..)) <;> try decide
    | (with_reducible apply State.Within.step (State.dropHeld_within ..)) <;> try decide
    | (with_reducible apply State.Within.step (State.takeBody_within ..)) <;> try decide
    | (with_reducible apply State.Within.foldl) <;> try intro _ _
    | with_reducible apply State.Within.ite
    | dsimp only
    | split

theorem State.fillEntry_within {b : PkgBody} {slot : Nat} {pages : List Nat} {s u : State}
    (h : State.fillEntry b slot pages s = .inr u) : s.Within [.img, .str, .ber] u := by
  unfold State.fillEntry at h
  split at h
  · split at h
    · cases h
    · split at h
      · cases h
      · split at h
        · cases h
        · rename_i hs
          dsimp only at h
          simp only [Sum.inr.injEq] at h
          subst h
          have h1 (f : Streams → Streams) : s.Within [.img, .str, .ber] ((State.onStr f _).stow slot) :=
            .step (State.stow_within ..) (by decide) (.step (State.onStr_within ..) (by decide) ((State.takeStops_within hs).mono (by decide)))
          exact .ite (h1 _) (.step (State.settleNew_within ..) (by decide) (h1 _))
  · cases h

theorem State.receivePackage_within (source : Nat) (b : PkgBody) (s : State) : s.Within [.out, .freeCtr, .ing, .egr, .img, .str, .sch, .sto, .ber, .mem, .cas] (State.receivePackage source b s) := by
  unfold State.receivePackage
  repeat' first
    | with_reducible apply State.Within.refl
    | (with_reducible apply State.Within.step (State.settleHeld_within ..)) <;> try decide
    | (with_reducible apply State.Within.step (State.onCas_within ..)) <;> try decide
    | (with_reducible apply State.Within.step (State.takePages_within (by assumption))) <;> try decide
    | (with_reducible apply State.Within.step (State.takeSlot_within (by assumption))) <;> try decide
    | (with_reducible apply State.Within.step (State.setChain_within ..)) <;> try decide
    | (with_reducible apply State.Within.step (State.onStr_within ..)) <;> try decide
    | (with_reducible apply State.Within.step (State.fillEntry_within (by assumption))) <;> try decide
    | (with_reducible apply State.Within.step (State.send_within ..)) <;> try decide
    | (with_reducible apply State.Within.foldl) <;> try intro _ _
    | with_reducible apply State.Within.ite
    | dsimp only
    | split

theorem State.enterLiteral_within {slot prof tag bank : Nat} {sp : Special} {s u : State}
    (h : State.enterLiteral slot prof tag bank sp s = some u) : s.Within [.img, .ber] u := by
  unfold State.enterLiteral at h
  split at h
  · cases h
    exact (State.placeIn_within ..).mono (by decide)
  · simp only [Option.map_eq_some_iff] at h
    obtain ⟨m, _, rfl⟩ := h
    exact .step (State.onImg_within ..) (by decide) ((State.placeIn_within ..).mono (by decide))

theorem State.enterSlot_within {slot : Nat} {s u : State} (h : State.enterSlot slot s = some u) : s.Within [.img, .ber] u := by
  unfold State.enterSlot at h
  simp only [Option.map_eq_some_iff] at h
  obtain ⟨v, hv, rfl⟩ := h
  refine .step (State.onImg_within ..) (by decide) ?_
  refine State.Within.foldlOption (fun acc x hacc => ?_) _ (fun w hw => by cases hw; exact .refl _ _) v hv
  intro w hw
  split at hw
  · exact State.Within.foldlOption (fun acc e hacc => fun w hw => by
      simp only [Option.bind_eq_some_iff] at hw
      obtain ⟨z, hz, hw⟩ := hw
      exact .step (State.enterLiteral_within hw) (by decide) (hacc z hz)) _ hacc w hw
  · exact hacc w hw

theorem State.dropGram_within (uid : Nat) (s : State) : s.Within [.img, .str] (State.dropGram uid s) := by
  unfold State.dropGram
  repeat' first
    | with_reducible apply State.Within.refl
    | (with_reducible apply State.Within.step (State.onImg_within ..)) <;> try decide
    | (with_reducible apply State.Within.step (State.dropCache_within ..)) <;> try decide
    | (with_reducible apply State.Within.foldl) <;> try intro _ _
    | with_reducible apply State.Within.ite
    | dsimp only
    | split

theorem State.makeRoom_within {need : Nat × Nat} {id : Bool} {l : List Gram} {n k : Nat} {s u : State}
    (h : State.makeRoom need id l n s = some (k, u)) : s.Within [.out, .egr, .img, .str, .mem] u := by
  induction l generalizing n s with
  | nil =>
    unfold State.makeRoom at h
    split at h
    · cases h
      exact .refl _ _
    · cases h
  | cons g rest ih =>
    unfold State.makeRoom at h
    split at h
    · cases h
      exact .refl _ _
    · exact .step (ih h) (by decide) (.step (State.event_within ..) (by decide) ((State.dropGram_within ..).mono (by decide)))

/-- What a reservation that succeeds is: room made in the pools, and the slot set. -/
theorem State.reserveImage_inr {slot ap k : Nat} {b : Bytes} {h : ImgHdr} {s u : State}
    (hr : State.reserveImage slot ap b h s = .inr (k, u)) : ∃ (need : Nat × Nat) (l : List Gram) (j : Nat) (s1 : State) (sl : LoadSlot) (f : Images → Images),
    State.makeRoom need h.additive l 0 s = some (j, s1) ∧ u = (s1.setSlot slot sl).onImg f := by
  have hn {c : Prop} [Decidable c] {st : Nat} {x : Nat ⊕ (Nat × State)} (hc : (if c then Sum.inl st else x) = .inr (k, u)) :
      x = .inr (k, u) := by
    split at hc
    · exact absurd hc (by simp)
    · exact hc
  unfold State.reserveImage at hr
  extract_lets base held lost at hr
  replace hr := hn (hn (hn (hn hr)))
  generalize s.reserveLiterals h = o at hr
  cases o with
  | none => exact absurd hr (by simp)
  | some lits =>
    generalize hm : State.makeRoom _ _ _ _ _ = m at hr
    cases m with
    | none => exact absurd hr (by simp)
    | some q =>
      obtain ⟨j, s1⟩ := q
      exact ⟨_, _, _, _, _, _, hm, ((Prod.mk.injEq ..).mp (Sum.inr.inj hr)).2.symm⟩

theorem State.reserveImage_within {slot ap k : Nat} {b : Bytes} {h : ImgHdr} {s u : State}
    (hr : State.reserveImage slot ap b h s = .inr (k, u)) : s.Within [.out, .egr, .img, .str, .mem] u := by
  obtain ⟨_, _, _, _, _, _, hm, rfl⟩ := State.reserveImage_inr hr
  exact .step (State.onImg_within ..) (by decide) (.step (State.setSlot_within ..) (by decide) ((State.makeRoom_within hm).mono (by decide)))

theorem State.applyVersion_within (l : LoadSlot) (n : Nat) (handle : Nat) (s : State) : s.Within [.img] (State.applyVersion l n handle s) := by
  unfold State.applyVersion
  repeat' first
    | with_reducible apply State.Within.refl
    | (with_reducible apply State.Within.step (State.onImg_within ..)) <;> try decide
    | (with_reducible apply State.Within.foldl) <;> try intro _ _
    | with_reducible apply State.Within.ite
    | dsimp only
    | split

theorem State.applyRemoves_within (l : LoadSlot) (s : State) : s.Within [.img] (State.applyRemoves l s) := by
  unfold State.applyRemoves
  repeat' first
    | with_reducible apply State.Within.refl
    | (with_reducible apply State.Within.step (State.onImg_within ..)) <;> try decide
    | (with_reducible apply State.Within.foldl) <;> try intro _ _
    | with_reducible apply State.Within.ite
    | dsimp only
    | split

theorem State.endLoans_within (s : State) : s.Within [.mem] (State.endLoans s) := by
  unfold State.endLoans
  repeat' first
    | with_reducible apply State.Within.refl
    | (with_reducible apply State.Within.step (State.onMem_within ?_)) <;> try decide
    | exact fun _ h => ⟨h.units, h.arrays, h.patrol, h.counts, h.bound⟩
    | exact fun _ h => ⟨by simp [h.units], by simp [h.arrays], by simp [h.patrol], h.counts, h.bound⟩
    | (with_reducible apply State.Within.foldl) <;> try intro _ _
    | with_reducible apply State.Within.ite
    | dsimp only
    | split

theorem State.install_within (slot : Nat) (l : LoadSlot) (s : State) : s.Within [.img, .str, .mem] (State.install slot l s) := by
  unfold State.install
  repeat' first
    | with_reducible apply State.Within.refl
    | (with_reducible apply State.Within.step (State.onImg_within ..)) <;> try decide
    | (with_reducible apply State.Within.step (State.applyGram_within ..)) <;> try decide
    | (with_reducible apply State.Within.step (State.emptySlot_within ..)) <;> try decide
    | (with_reducible apply State.Within.step (State.applyVersion_within ..)) <;> try decide
    | (with_reducible apply State.Within.step (State.applyRemoves_within ..)) <;> try decide
    | (with_reducible apply State.Within.step (State.endLoans_within ..)) <;> try decide
    | (with_reducible apply State.Within.foldl) <;> try intro _ _
    | with_reducible apply State.Within.ite
    | dsimp only
    | split

theorem State.shutLintel_within (s : State) : s.Within [.out, .freeCtr, .ing, .egr, .str, .sch, .sto, .ber, .mem] (State.shutLintel s) := by
  unfold State.shutLintel
  repeat' first
    | with_reducible apply State.Within.refl
    | (with_reducible apply State.Within.step (State.finishRaise_within ..)) <;> try decide
    | (with_reducible apply State.Within.step (State.onStr_within ..)) <;> try decide
    | (with_reducible apply State.Within.step (State.onSch_within ..)) <;> try decide
    | (with_reducible apply State.Within.foldl) <;> try intro _ _
    | with_reducible apply State.Within.ite
    | dsimp only
    | split

theorem State.beginRow_within (x : Step) (e : StepEntry) (t : Stream) (node : Nat) (s : State) : s.Within [.sch] (State.beginRow x e t node s).1 := by
  unfold State.beginRow
  repeat' first
    | with_reducible apply State.Within.refl
    | (with_reducible apply State.Within.step (State.unpark_within ..)) <;> try decide
    | (with_reducible apply State.Within.foldl) <;> try intro _ _
    | with_reducible apply State.Within.ite
    | dsimp only
    | split

theorem State.beginRow_of {x : Step} {e : StepEntry} {t : Stream} {node : Nat} {s : State} {r} (h : State.beginRow x e t node s = r) : s.Within [.sch] r.1 := h ▸ State.beginRow_within x e t node s

theorem State.rowFault_within (step : Nat) (slot : Nat) (node : Nat) (s : State) : s.Within [.out, .freeCtr, .aon, .ing, .egr, .str, .sch, .sto, .mem] (State.rowFault step slot node s) := by
  unfold State.rowFault
  repeat' first
    | with_reducible apply State.Within.refl
    | (with_reducible apply State.Within.step (State.voidStep_within ..)) <;> try decide
    | (with_reducible apply State.Within.step (State.raise_within ..)) <;> try decide
    | (with_reducible apply State.Within.step (State.onSch_within ..)) <;> try decide
    | (with_reducible apply State.Within.step (State.emit_within ..)) <;> try decide
    | (with_reducible apply State.Within.foldl) <;> try intro _ _
    | with_reducible apply State.Within.ite
    | dsimp only
    | split

theorem State.resultIn_within (step : Nat) (s : State) : s.Within [.sch] (State.resultIn step s) := by
  unfold State.resultIn
  repeat' first
    | with_reducible apply State.Within.refl
    | (with_reducible apply State.Within.step (State.onStep_within ..)) <;> try decide
    | (with_reducible apply State.Within.foldl) <;> try intro _ _
    | with_reducible apply State.Within.ite
    | dsimp only
    | split

theorem State.takeBurst_within (facet : Nat) (b : Burst) (t : Stream) (r : Row) (s : State) : s.Within [.out, .sch, .mem] (State.takeBurst facet b t r s) := by
  unfold State.takeBurst
  repeat' first
    | with_reducible apply State.Within.refl
    | (with_reducible apply State.Within.step (State.resultIn_within ..)) <;> try decide
    | (with_reducible apply State.Within.step (State.count_within ..)) <;> try decide
    | (with_reducible apply State.Within.step (State.onSch_within ..)) <;> try decide
    | (with_reducible apply State.Within.step (State.emit_within ..)) <;> try decide
    | (with_reducible apply State.Within.foldl) <;> try intro _ _
    | with_reducible apply State.Within.ite
    | dsimp only
    | split

theorem State.burst_within (facet : Nat) (b : Burst) (s : State) : s.Within [.out, .freeCtr, .aon, .ing, .egr, .str, .sch, .sto, .mem] (State.burst facet b s) := by
  unfold State.burst
  repeat' first
    | with_reducible apply State.Within.refl
    | (with_reducible apply State.Within.step (State.beginRow_within ..)) <;> try decide
    | (with_reducible apply State.Within.step (State.beginRow_of (by assumption))) <;> try decide
    | (with_reducible apply State.Within.step (State.rowFault_within ..)) <;> try decide
    | (with_reducible apply State.Within.step (State.resultIn_within ..)) <;> try decide
    | (with_reducible apply State.Within.step (State.takeBurst_within ..)) <;> try decide
    | (with_reducible apply State.Within.foldl) <;> try intro _ _
    | with_reducible apply State.Within.ite
    | dsimp only
    | split

theorem State.migRefused_within (slot : Nat) (status : Nat) (s : State) : s.Within [.out, .freeCtr, .ing, .egr, .str, .sch, .sto, .ber, .mem] (State.migRefused slot status s) := by
  unfold State.migRefused
  repeat' first
    | with_reducible apply State.Within.refl
    | (with_reducible apply State.Within.step (State.onStream_within ..)) <;> try decide
    | (with_reducible apply State.Within.step (State.pauseDeferred_within ..)) <;> try decide
    | (with_reducible apply State.Within.step (State.refuse_within ..)) <;> try decide
    | (with_reducible apply State.Within.step (State.setChain_within ..)) <;> try decide
    | (with_reducible apply State.Within.foldl) <;> try intro _ _
    | with_reducible apply State.Within.ite
    | dsimp only
    | split

theorem State.applyCommit_within (slot : Nat) (l : LoadSlot) (s : State) : s.Within [.out, .freeCtr, .ing, .egr, .img, .str, .ber, .mem] (State.applyCommit slot l s) := by
  unfold State.applyCommit
  repeat' first
    | with_reducible apply State.Within.refl
    | (with_reducible apply State.Within.step (State.sweepGrams_within ..)) <;> try decide
    | (with_reducible apply State.Within.step (State.install_within ..)) <;> try decide
    | (with_reducible apply State.Within.step (State.done_within ..)) <;> try decide
    | (with_reducible apply State.Within.step (State.sweepVersions_within ..)) <;> try decide
    | (with_reducible apply State.Within.step (State.event_within ..)) <;> try decide
    | (with_reducible apply State.Within.foldl) <;> try intro _ _
    | with_reducible apply State.Within.ite
    | dsimp only
    | split

theorem State.applyCommits_within (s : State) : s.Within [.out, .freeCtr, .ing, .egr, .img, .str, .ber, .mem] (State.applyCommits s) := by
  unfold State.applyCommits
  repeat' first
    | with_reducible apply State.Within.refl
    | (with_reducible apply State.Within.step (State.applyCommit_within ..)) <;> try decide
    | (with_reducible apply State.Within.foldl) <;> try intro _ _
    | with_reducible apply State.Within.ite
    | dsimp only
    | split

theorem State.boundary_within (s : State) : s.Within [.out, .freeCtr, .ing, .egr, .img, .str, .sch, .sto, .ber, .mem, .cas] (State.boundary s) := by
  unfold State.boundary
  repeat' first
    | with_reducible apply State.Within.refl
    | (with_reducible apply State.Within.step (State.shutLintel_within ..)) <;> try decide
    | (with_reducible apply State.Within.step (State.closeStream_within ..)) <;> try decide
    | (with_reducible apply State.Within.step (State.releaseStream_within ..)) <;> try decide
    | (with_reducible apply State.Within.step (State.applyPolicy_within ..)) <;> try decide
    | (with_reducible apply State.Within.step (State.freeRollback_within ..)) <;> try decide
    | (with_reducible apply State.Within.step (State.applyCommits_within ..)) <;> try decide
    | (with_reducible apply State.Within.foldl) <;> try intro _ _
    | with_reducible apply State.Within.ite
    | dsimp only
    | split

theorem State.memberGone_within (member : Nat) (s : State) : s.Within [.out, .freeCtr, .ing, .egr, .img, .str, .sch, .sto, .ber, .mem, .cas] (State.memberGone member s) := by
  unfold State.memberGone
  repeat' first
    | with_reducible apply State.Within.refl
    | (with_reducible apply State.Within.step (State.onCas_within ..)) <;> try decide
    | (with_reducible apply State.Within.step (State.abandonCopy_within ..)) <;> try decide
    | (with_reducible apply State.Within.step (State.closeStream_within ..)) <;> try decide
    | (with_reducible apply State.Within.step (State.migRefused_within ..)) <;> try decide
    | (with_reducible apply State.Within.step (State.detach_within ..)) <;> try decide
    | (with_reducible apply State.Within.step (State.discardFrom_within ..)) <;> try decide
    | (with_reducible apply State.Within.step (State.settleChain_within ..)) <;> try decide
    | (with_reducible apply State.Within.foldl) <;> try intro _ _
    | with_reducible apply State.Within.ite
    | dsimp only
    | split

theorem State.rescueAnswer_within (slot : Nat) (answer : MigAnswer) (s : State) : s.Within [.cas] (State.rescueAnswer slot answer s) := by
  unfold State.rescueAnswer
  repeat' first
    | with_reducible apply State.Within.refl
    | (with_reducible apply State.Within.step (State.onCas_within ..)) <;> try decide
    | (with_reducible apply State.Within.foldl) <;> try intro _ _
    | with_reducible apply State.Within.ite
    | dsimp only
    | split

theorem lowerWork_within (p : Pkt) (s : State) : s.Within [.out, .freeCtr, .ing, .egr, .str, .sch, .sto, .ber, .mem] (lowerWork p s) := by
  unfold lowerWork
  repeat' first
    | with_reducible apply State.Within.refl
    | (with_reducible apply State.Within.step (lowerNow_within ..)) <;> try decide
    | (with_reducible apply State.Within.step (State.onSch_within ..)) <;> try decide
    | (with_reducible apply State.Within.foldl) <;> try intro _ _
    | with_reducible apply State.Within.ite
    | dsimp only
    | split

theorem imgCommitWork_within (p : Pkt) (s : State) : s.Within [.out, .freeCtr, .ing, .egr, .img, .str, .mem] (imgCommitWork p s) := by
  unfold imgCommitWork
  repeat' first
    | with_reducible apply State.Within.refl
    | (with_reducible apply State.Within.step (State.onImg_within ..)) <;> try decide
    | (with_reducible apply State.Within.step (State.refuse_within ..)) <;> try decide
    | (with_reducible apply State.Within.step (State.setSlot_within ..)) <;> try decide
    | (with_reducible apply State.Within.foldl) <;> try intro _ _
    | with_reducible apply State.Within.ite
    | dsimp only
    | split

theorem imgQueryWork_within (p : Pkt) (s : State) : s.Within [.out, .freeCtr, .ing, .egr, .str, .mem] (imgQueryWork p s) := by
  unfold imgQueryWork
  repeat' first
    | with_reducible apply State.Within.refl
    | (with_reducible apply State.Within.step (State.refuse_within ..)) <;> try decide
    | (with_reducible apply State.Within.step (State.done_within ..)) <;> try decide
    | (with_reducible apply State.Within.foldl) <;> try intro _ _
    | with_reducible apply State.Within.ite
    | dsimp only
    | split

theorem State.leaveSlot_within (l : LoadSlot) (s : State) : s.Within [.ber] (State.leaveSlot l s) := by
  unfold State.leaveSlot
  repeat' first
    | with_reducible apply State.Within.refl
    | (with_reducible apply State.Within.step (State.removeLiterals_within ..)) <;> try decide
    | (with_reducible apply State.Within.foldl) <;> try intro _ _
    | with_reducible apply State.Within.ite
    | dsimp only
    | split

theorem dropSlotWork_within (p : Pkt) (s : State) : s.Within [.out, .freeCtr, .ing, .egr, .img, .str, .ber, .mem] (dropSlotWork p s) := by
  unfold dropSlotWork
  repeat' first
    | with_reducible apply State.Within.refl
    | (with_reducible apply State.Within.step (State.leaveSlot_within ..)) <;> try decide
    | (with_reducible apply State.Within.step (State.emptySlot_within ..)) <;> try decide
    | (with_reducible apply State.Within.step (State.refuse_within ..)) <;> try decide
    | (with_reducible apply State.Within.step (State.done_within ..)) <;> try decide
    | (with_reducible apply State.Within.step (State.event_within ..)) <;> try decide
    | (with_reducible apply State.Within.foldl) <;> try intro _ _
    | with_reducible apply State.Within.ite
    | dsimp only
    | split

theorem State.pauseDone_within (p : Option Pkt) (slot : Nat) (moved : Nat) (expiry : Nat) (s : State) : s.Within [.out, .freeCtr, .ing, .egr, .str, .mem] (State.pauseDone p slot moved expiry s) := by
  unfold State.pauseDone
  repeat' first
    | with_reducible apply State.Within.refl
    | (with_reducible apply State.Within.step (State.done_within ..)) <;> try decide
    | (with_reducible apply State.Within.foldl) <;> try intro _ _
    | with_reducible apply State.Within.ite
    | dsimp only
    | split

theorem State.setPaused_within (slot : Nat) (r : PauseRec) (s : State) : s.Within [.str] (State.setPaused slot r s) := by
  unfold State.setPaused
  repeat' first
    | with_reducible apply State.Within.refl
    | (with_reducible apply State.Within.step (State.stow_within ..)) <;> try decide
    | (with_reducible apply State.Within.step (State.dropBuilds_within ..)) <;> try decide
    | (with_reducible apply State.Within.step (State.onStream_within ..)) <;> try decide
    | (with_reducible apply State.Within.foldl) <;> try intro _ _
    | with_reducible apply State.Within.ite
    | dsimp only
    | split

theorem State.finishSummary_within (slot : Nat) (s : State) : s.Within [.out, .freeCtr, .ing, .egr, .str, .sch, .sto, .ber, .mem] (State.finishSummary slot s) := by
  unfold State.finishSummary
  repeat' first
    | with_reducible apply State.Within.refl
    | (with_reducible apply State.Within.step (State.onStream_within ..)) <;> try decide
    | (with_reducible apply State.Within.step (State.pauseDone_within ..)) <;> try decide
    | (with_reducible apply State.Within.step (State.setPaused_within ..)) <;> try decide
    | (with_reducible apply State.Within.step (State.detach_within ..)) <;> try decide
    | (with_reducible apply State.Within.step (State.freePages_within ..)) <;> try decide
    | (with_reducible apply State.Within.foldl) <;> try intro _ _
    | with_reducible apply State.Within.ite
    | dsimp only
    | split

theorem State.passEntry_within (s : State) (e : StepEntry) : s.Within [.out, .freeCtr, .ing, .egr, .str, .sch, .sto, .ber, .mem] (State.passEntry s e) := by
  unfold State.passEntry
  repeat' first
    | with_reducible apply State.Within.refl
    | (with_reducible apply State.Within.step (State.onStream_within ..)) <;> try decide
    | (with_reducible apply State.Within.step (State.finishSummary_within ..)) <;> try decide
    | (with_reducible apply State.Within.step (State.pauseDeferred_within ..)) <;> try decide
    | (with_reducible apply State.Within.step (State.releaseSummary_within ..)) <;> try decide
    | (with_reducible apply State.Within.step (State.leavePrompt_within ..)) <;> try decide
    | (with_reducible apply State.Within.foldl) <;> try intro _ _
    | with_reducible apply State.Within.ite
    | dsimp only
    | split

theorem dropGrammarWork_within (p : Pkt) (s : State) : s.Within [.out, .freeCtr, .ing, .egr, .img, .str, .mem] (dropGrammarWork p s) := by
  unfold dropGrammarWork
  repeat' first
    | with_reducible apply State.Within.refl
    | (with_reducible apply State.Within.step (State.refuse_within ..)) <;> try decide
    | (with_reducible apply State.Within.step (State.dropGram_within ..)) <;> try decide
    | (with_reducible apply State.Within.step (State.done_within ..)) <;> try decide
    | (with_reducible apply State.Within.step (State.event_within ..)) <;> try decide
    | (with_reducible apply State.Within.foldl) <;> try intro _ _
    | with_reducible apply State.Within.ite
    | dsimp only
    | split

theorem State.abandonHeld_within (source : Nat) (oldHandle : Nat) (s : State) : s.Within [.img, .str, .sto, .ber, .cas] (State.abandonHeld source oldHandle s) := by
  unfold State.abandonHeld
  repeat' first
    | with_reducible apply State.Within.refl
    | (with_reducible apply State.Within.step (State.voidHeld_within ..)) <;> try decide
    | (with_reducible apply State.Within.foldl) <;> try intro _ _
    | with_reducible apply State.Within.ite
    | dsimp only
    | split

theorem State.clearHeld_within (p : Sealed) (s : State) : s.Within [.out, .freeCtr, .ing, .egr, .img, .str, .sch, .sto, .ber, .mem, .cas] (State.clearHeld p s) := by
  unfold State.clearHeld
  repeat' first
    | with_reducible apply State.Within.refl
    | (with_reducible apply State.Within.step (State.discardEntry_within ..)) <;> try decide
    | (with_reducible apply State.Within.step (State.settleHeld_within ..)) <;> try decide
    | (with_reducible apply State.Within.step (State.answerPackage_within ..)) <;> try decide
    | (with_reducible apply State.Within.step (State.onCas_within ..)) <;> try decide
    | (with_reducible apply State.Within.step (State.fillEntry_within (by assumption))) <;> try decide
    | (with_reducible apply State.Within.foldl) <;> try intro _ _
    | with_reducible apply State.Within.ite
    | dsimp only
    | split

theorem migrateWork_within (clash : Option Nat) (p : Pkt) (s0 : State) : s0.Within [.out, .freeCtr, .ing, .egr, .str, .mem] (migrateWork clash p s0) := by
  unfold migrateWork
  repeat' first
    | with_reducible apply State.Within.refl
    | (with_reducible apply State.Within.step (State.onStream_within ..)) <;> try decide
    | (with_reducible apply State.Within.step (State.refuse_within ..)) <;> try decide
    | (with_reducible apply State.Within.step (State.collide_within ..)) <;> try decide
    | (with_reducible apply State.Within.foldl) <;> try intro _ _
    | with_reducible apply State.Within.ite
    | dsimp only
    | split

theorem State.sendPackage_within (slot : Nat) (dest : Nat) (isSealed : Bool) (resume : Bool) (wait : Wait) (s : State) : s.Within [.out, .str, .sto] (State.sendPackage slot dest isSealed resume wait s) := by
  unfold State.sendPackage
  repeat' first
    | with_reducible apply State.Within.refl
    | (with_reducible apply State.Within.step (State.onStream_within ..)) <;> try decide
    | (with_reducible apply State.Within.step (State.transit_within ..)) <;> try decide
    | (with_reducible apply State.Within.step (State.send_within ..)) <;> try decide
    | (with_reducible apply State.Within.step (State.dropTree_within ..)) <;> try decide
    | (with_reducible apply State.Within.step (State.emit_within ..)) <;> try decide
    | (with_reducible apply State.Within.foldl) <;> try intro _ _
    | with_reducible apply State.Within.ite
    | dsimp only
    | split

theorem State.migAccepted_within (slot : Nat) (newHandle : Nat) (s : State) : s.Within [.out, .freeCtr, .ing, .egr, .img, .str, .sch, .sto, .ber, .mem] (State.migAccepted slot newHandle s) := by
  unfold State.migAccepted
  repeat' first
    | with_reducible apply State.Within.refl
    | (with_reducible apply State.Within.step (State.done_within ..)) <;> try decide
    | (with_reducible apply State.Within.step (State.releaseStream_within ..)) <;> try decide
    | (with_reducible apply State.Within.step (State.onStr_within ..)) <;> try decide
    | (with_reducible apply State.Within.foldl) <;> try intro _ _
    | with_reducible apply State.Within.ite
    | dsimp only
    | split

theorem imgLoadWork_within (p : Pkt) (s : State) : s.Within [.out, .freeCtr, .ing, .egr, .img, .str, .mem] (imgLoadWork p s) := by
  unfold imgLoadWork
  dsimp only
  split
  · refine .ite (State.refuse_within .. |>.mono (by decide)) ?_
    split
    · exact (State.refuse_within ..).mono (by decide)
    · refine .ite ((State.refuse_within ..).mono (by decide)) ?_
      split
      · exact (State.refuse_within ..).mono (by decide)
      · rename_i h
        exact .step (State.chunkIn_within ..) (by decide) ((State.reserveImage_within h).mono (by decide))
  · exact .ite ((State.refuse_within ..).mono (by decide)) (.step (State.chunkIn_within ..) (by decide)
      ((State.setSlot_within ..).mono (by decide)))
  · exact (State.refuse_within ..).mono (by decide)

theorem pauseWork_within (areaOk : Bool) (clash : Option Nat) (p : Pkt) (s0 : State) : s0.Within [.out, .freeCtr, .ing, .egr, .str, .mem] (pauseWork areaOk clash p s0) := by
  unfold pauseWork
  repeat' first
    | with_reducible apply State.Within.refl
    | (with_reducible apply State.Within.step (State.onStream_within ..)) <;> try decide
    | (with_reducible apply State.Within.step (State.refuse_within ..)) <;> try decide
    | (with_reducible apply State.Within.step (State.collide_within ..)) <;> try decide
    | (with_reducible apply State.Within.foldl) <;> try intro _ _
    | with_reducible apply State.Within.ite
    | dsimp only
    | split

end Sys2Proof.Machine
end

