-- ==== Sys2Proof/Laws/Whole.lean ====
section
/-! SUPPORT. What the memory banks, faults, starting, the cascade and the registers can do. -/
set_option linter.unusedTactic false
set_option linter.unreachableTactic false
set_option linter.unusedSimpArgs false
set_option linter.unusedVariables false
namespace Sys2Proof.Machine
open Sys2Proof

theorem State.loseRow_within (step : Nat) (slot : Nat) (node : Nat) (s : State) : s.Within [.out, .freeCtr, .ing, .egr, .str, .sch, .sto, .mem] (State.loseRow step slot node s) := by
  unfold State.loseRow
  repeat' first
    | with_reducible apply State.Within.refl
    | (with_reducible apply State.Within.step (State.voidStep_within ..)) <;> try decide
    | (with_reducible apply State.Within.foldl) <;> try intro _ _
    | with_reducible apply State.Within.ite
    | dsimp only
    | split

theorem State.onUnit_within (kind : Nat) (inst : Nat) (f : FUnit → FUnit) (s : State) : s.Within [.mem] (State.onUnit kind inst f s) := by
  unfold State.onUnit
  repeat' first
    | with_reducible apply State.Within.refl
    | (with_reducible apply State.Within.step (State.onMem_within ?_)) <;> try decide
    | exact fun _ h => ⟨h.units, h.arrays, h.patrol, h.counts, h.bound⟩
    | exact fun _ h => ⟨by simp [h.units], by simp [h.arrays], by simp [h.patrol], h.counts, h.bound⟩
    | (with_reducible apply State.Within.foldl) <;> try intro _ _
    | with_reducible apply State.Within.ite
    | dsimp only
    | split

theorem State.mapBanks_within (s : State) : s.Within [.ber, .mem] (State.mapBanks s) := by
  unfold State.mapBanks
  repeat' first
    | with_reducible apply State.Within.refl
    | (with_reducible apply State.Within.step (State.mapEntry_within ..)) <;> try decide
    | (with_reducible apply State.Within.step (State.onBer_within ..)) <;> try decide
    | (with_reducible apply State.Within.foldl) <;> try intro _ _
    | with_reducible apply State.Within.ite
    | dsimp only
    | split

theorem State.loseLane_within (lane : Nat) (work : FaultWork) (s : State) : s.Within [.ing] (State.loseLane lane work s) := by
  unfold State.loseLane
  repeat' first
    | with_reducible apply State.Within.refl
    | (with_reducible apply State.Within.step (State.onWork_within ..)) <;> try decide
    | (with_reducible apply State.Within.step (State.beginSegment_within ..)) <;> try decide
    | (with_reducible apply State.Within.foldl) <;> try intro _ _
    | with_reducible apply State.Within.ite
    | dsimp only
    | split

theorem State.markCancelled_within (h : Nat) (s : State) : s.Within [.str] (State.markCancelled h s) := by
  unfold State.markCancelled
  repeat' first
    | with_reducible apply State.Within.refl
    | (with_reducible apply State.Within.step (State.onStr_within ..)) <;> try decide
    | (with_reducible apply State.Within.foldl) <;> try intro _ _
    | with_reducible apply State.Within.ite
    | dsimp only
    | split

theorem State.cancelNow_within (slot : Nat) (s : State) : s.Within [.out, .freeCtr, .ing, .egr, .str, .sch, .sto, .ber, .mem, .cas] (State.cancelNow slot s) := by
  unfold State.cancelNow
  repeat' first
    | with_reducible apply State.Within.refl
    | (with_reducible apply State.Within.step (State.closeStream_within ..)) <;> try decide
    | (with_reducible apply State.Within.step (State.markCancelled_within ..)) <;> try decide
    | (with_reducible apply State.Within.foldl) <;> try intro _ _
    | with_reducible apply State.Within.ite
    | dsimp only
    | split

theorem joinWork_within (p : Pkt) (s : State) : s.Within [.out, .freeCtr, .ing, .egr, .str, .mem, .cas] (joinWork p s) := by
  unfold joinWork
  repeat' first
    | with_reducible apply State.Within.refl
    | (with_reducible apply State.Within.step (State.refuse_within ..)) <;> try decide
    | (with_reducible apply State.Within.step (State.onCas_within ..)) <;> try decide
    | (with_reducible apply State.Within.step (State.done_within ..)) <;> try decide
    | (with_reducible apply State.Within.step (State.sendJoin_within ..)) <;> try decide
    | (with_reducible apply State.Within.foldl) <;> try intro _ _
    | with_reducible apply State.Within.ite
    | dsimp only
    | split

theorem State.rebuild_within (slot : Nat) (node : Nat) (s : State) : s.Within [.str, .mem] (State.rebuild slot node s) := by
  unfold State.rebuild
  repeat' first
    | with_reducible apply State.Within.refl
    | (with_reducible apply State.Within.step (State.beginBuild_within ..)) <;> try decide
    | (with_reducible apply State.Within.step (State.onStr_within ..)) <;> try decide
    | (with_reducible apply State.Within.step (State.count_within ..)) <;> try decide
    | (with_reducible apply State.Within.foldl) <;> try intro _ _
    | with_reducible apply State.Within.ite
    | dsimp only
    | split

theorem State.loseEntry_within (num : Nat) (s : State) : s.Within [.str, .mem] (State.loseEntry num s) := by
  unfold State.loseEntry
  repeat' first
    | with_reducible apply State.Within.refl
    | (with_reducible apply State.Within.step (State.rebuild_within ..)) <;> try decide
    | (with_reducible apply State.Within.step (State.onStr_within ..)) <;> try decide
    | (with_reducible apply State.Within.foldl) <;> try intro _ _
    | with_reducible apply State.Within.ite
    | dsimp only
    | split

theorem State.setLatch_within (port : Bool) (off : Nat) (v : Nat) (s : State) : s.Within [.mem] (State.setLatch port off v s) := by
  unfold State.setLatch
  repeat' first
    | with_reducible apply State.Within.refl
    | (with_reducible apply State.Within.step (State.onMem_within ?_)) <;> try decide
    | exact fun _ h => ⟨h.units, h.arrays, h.patrol, h.counts, h.bound⟩
    | exact fun _ h => ⟨by simp [h.units], by simp [h.arrays], by simp [h.patrol], h.counts, h.bound⟩
    | (with_reducible apply State.Within.foldl) <;> try intro _ _
    | with_reducible apply State.Within.ite
    | dsimp only
    | split

theorem State.takeSpare_within (array : Nat) (c : Cell) (s : State) : s.Within [.mem] (State.takeSpare array c s).1 := by
  unfold State.takeSpare
  repeat' first
    | with_reducible apply State.Within.refl
    | (with_reducible apply State.Within.step (State.repairAdd_within ..)) <;> try decide
    | (with_reducible apply State.Within.foldl) <;> try intro _ _
    | with_reducible apply State.Within.ite
    | dsimp only
    | split

theorem State.takeSpare_of {array : Nat} {c : Cell} {s : State} {r} (h : State.takeSpare array c s = r) : s.Within [.mem] r.1 := h ▸ State.takeSpare_within array c s

theorem State.writeMask_within (word : Word) (s : State) : s.Within [.out, .aon] (State.writeMask word s) := by
  unfold State.writeMask
  repeat' first
    | with_reducible apply State.Within.refl
    | (with_reducible apply State.Within.step (State.onAon_within ?_)) <;> try decide
    | exact fun _ h => ⟨h.sensors, h.domains, h.counters, h.vset, h.thresh, h.causes⟩
    | exact fun _ h => ⟨by simp [h.sensors], by simp [h.domains], h.counters, h.vset, h.thresh, h.causes⟩
    | (with_reducible apply State.Within.step (State.signalCause_within ..)) <;> try decide
    | (with_reducible apply State.Within.foldl) <;> try intro _ _
    | with_reducible apply State.Within.ite
    | dsimp only
    | split

theorem State.cancelLater_within (slot : Nat) (s : State) : s.Within [.str] (State.cancelLater slot s) := by
  unfold State.cancelLater
  repeat' first
    | with_reducible apply State.Within.refl
    | (with_reducible apply State.Within.step (State.onStream_within ..)) <;> try decide
    | (with_reducible apply State.Within.foldl) <;> try intro _ _
    | with_reducible apply State.Within.ite
    | dsimp only
    | split

theorem State.runFault_within (kind : Nat) (inst : Nat) (w : FaultWork) (s : State) : s.Within [.str, .mem] (State.runFault kind inst w s) := by
  unfold State.runFault
  repeat' first
    | with_reducible apply State.Within.refl
    | (with_reducible apply State.Within.step (State.cancelLater_within ..)) <;> try decide
    | (with_reducible apply State.Within.step (State.onMem_within ?_)) <;> try decide
    | exact fun _ h => ⟨h.units, h.arrays, h.patrol, h.counts, h.bound⟩
    | exact fun _ h => ⟨by simp [h.units], by simp [h.arrays], by simp [h.patrol], h.counts, h.bound⟩
    | (with_reducible apply State.Within.foldl) <;> try intro _ _
    | with_reducible apply State.Within.ite
    | dsimp only
    | split

theorem State.loseSlice_within (slice : Nat) (s : State) : s.Within [.str] (State.loseSlice slice s) := by
  unfold State.loseSlice
  repeat' first
    | with_reducible apply State.Within.refl
    | (with_reducible apply State.Within.step (State.sliceCommit_within ..)) <;> try decide
    | (with_reducible apply State.Within.foldl) <;> try intro _ _
    | with_reducible apply State.Within.ite
    | dsimp only
    | split

theorem State.moveRows_within (facet : Nat) (begun : Bool) (s : State) : s.Within [.out, .sch] (State.moveRows facet begun s) := by
  unfold State.moveRows
  repeat' first
    | with_reducible apply State.Within.refl
    | (with_reducible apply State.Within.step (State.onStep_within ..)) <;> try decide
    | (with_reducible apply State.Within.step (State.emits_within ..)) <;> try decide
    | (with_reducible apply State.Within.step (State.onSch_within ..)) <;> try decide
    | (with_reducible apply State.Within.foldl) <;> try intro _ _
    | with_reducible apply State.Within.ite
    | dsimp only
    | split

theorem State.moveBuilds_within (unit : Nat) (s : State) : s.Within [.str] (State.moveBuilds unit s) := by
  unfold State.moveBuilds
  repeat' first
    | with_reducible apply State.Within.refl
    | (with_reducible apply State.Within.step (State.onStr_within ..)) <;> try decide
    | (with_reducible apply State.Within.foldl) <;> try intro _ _
    | with_reducible apply State.Within.ite
    | dsimp only
    | split

theorem State.repeatWork_within (kind : Nat) (inst : Nat) (work : FaultWork) (s : State) : s.Within [.out, .ing, .str, .sch] (State.repeatWork kind inst work s) := by
  unfold State.repeatWork
  repeat' first
    | with_reducible apply State.Within.refl
    | (with_reducible apply State.Within.step (State.loseLane_within ..)) <;> try decide
    | (with_reducible apply State.Within.step (State.loseSlice_within ..)) <;> try decide
    | (with_reducible apply State.Within.step (State.onIng_within ?_)) <;> try decide
    | exact fun _ h => ⟨h.count, h.counters⟩
    | (with_reducible apply State.Within.step (State.moveRows_within ..)) <;> try decide
    | (with_reducible apply State.Within.step (State.moveBuilds_within ..)) <;> try decide
    | (with_reducible apply State.Within.foldl) <;> try intro _ _
    | with_reducible apply State.Within.ite
    | dsimp only
    | split

theorem State.capacity__within (kind : Nat) (inst : Nat) (out : Bool) (test : Bool) (s : State) : s.Within [.out, .egr, .str, .mem] (State.capacity_ kind inst out test s) := by
  unfold State.capacity_
  repeat' first
    | with_reducible apply State.Within.refl
    | (with_reducible apply State.Within.step (State.eventFull_within ..)) <;> try decide
    | (with_reducible apply State.Within.foldl) <;> try intro _ _
    | with_reducible apply State.Within.ite
    | dsimp only
    | split

theorem State.withdraw_within (kind : Nat) (inst : Nat) (test : Bool) (s : State) : s.Within [.out, .egr, .str, .mem] (State.withdraw kind inst test s) := by
  unfold State.withdraw
  repeat' first
    | with_reducible apply State.Within.refl
    | (with_reducible apply State.Within.step (State.onUnit_within ..)) <;> try decide
    | (with_reducible apply State.Within.step (State.capacity__within ..)) <;> try decide
    | (with_reducible apply State.Within.foldl) <;> try intro _ _
    | with_reducible apply State.Within.ite
    | dsimp only
    | split

theorem State.trimUnwritten_within (s : State) : s.Within [.mem] (State.trimUnwritten s) := by
  unfold State.trimUnwritten
  repeat' first
    | with_reducible apply State.Within.refl
    | (with_reducible apply State.Within.step (State.count_within ..)) <;> try decide
    | (with_reducible apply State.Within.step (State.onMem_within ?_)) <;> try decide
    | exact fun _ h => ⟨h.units, h.arrays, h.patrol, h.counts, h.bound⟩
    | with_reducible apply State.Within.ite
    | dsimp only
    | split

theorem State.noteUnit_within (i : Nat) (s : State) : s.Within [.mem] (State.noteUnit i s) := by
  unfold State.noteUnit
  repeat' first
    | with_reducible apply State.Within.refl
    | (with_reducible apply State.Within.step (State.trimUnwritten_within ..)) <;> try decide
    | (with_reducible apply State.Within.step (State.onMem_within ?_)) <;> try decide
    | exact fun _ h => ⟨h.units, h.arrays, h.patrol, h.counts, h.bound⟩
    | exact fun _ h => ⟨by simp [h.units], by simp [h.arrays], by simp [h.patrol], h.counts, h.bound⟩
    | (with_reducible apply State.Within.foldl) <;> try intro _ _
    | with_reducible apply State.Within.ite
    | dsimp only
    | split

theorem State.lendTo_within (kind : Nat) (profile : Nat) (s : State) : s.Within [.out, .aon, .mem] (State.lendTo kind profile s) := by
  unfold State.lendTo
  repeat' first
    | with_reducible apply State.Within.refl
    | (with_reducible apply State.Within.step (State.onMem_within ?_)) <;> try decide
    | exact fun _ h => ⟨h.units, h.arrays, h.patrol, h.counts, h.bound⟩
    | exact fun _ h => ⟨by simp [h.units], by simp [h.arrays], by simp [h.patrol], h.counts, h.bound⟩
    | (with_reducible apply State.Within.step (State.raise_within ..)) <;> try decide
    | (with_reducible apply State.Within.foldl) <;> try intro _ _
    | with_reducible apply State.Within.ite
    | dsimp only
    | split

theorem State.blockDown_within (s : State) : s.Within [.out, .freeCtr, .aon, .start, .ing, .egr, .str, .mem] (State.blockDown s) := by
  unfold State.blockDown
  repeat' first
    | with_reducible apply State.Within.refl
    | (with_reducible apply State.Within.step (State.refuse_within ..)) <;> try decide
    | (with_reducible apply State.Within.step (State.onStart_within ..)) <;> try decide
    | (with_reducible apply State.Within.step (State.onIng_within ?_)) <;> try decide
    | exact fun _ h => ⟨h.count, h.counters⟩
    | (with_reducible apply State.Within.step (State.raise_within ..)) <;> try decide
    | (with_reducible apply State.Within.step (State.send_within ..)) <;> try decide
    | (with_reducible apply State.Within.step (State.event_within ..)) <;> try decide
    | (with_reducible apply State.Within.foldl) <;> try intro _ _
    | with_reducible apply State.Within.ite
    | dsimp only
    | split

theorem State.afterLoss_within (kind : Nat) (s : State) : s.Within [.out, .freeCtr, .aon, .start, .ing, .egr, .str, .mem] (State.afterLoss kind s) := by
  unfold State.afterLoss
  repeat' first
    | with_reducible apply State.Within.refl
    | (with_reducible apply State.Within.step (State.lendTo_within ..)) <;> try decide
    | (with_reducible apply State.Within.step (State.blockDown_within ..)) <;> try decide
    | (with_reducible apply State.Within.foldl) <;> try intro _ _
    | with_reducible apply State.Within.ite
    | dsimp only
    | split

theorem State.makePermanent_within (kind : Nat) (inst : Nat) (s : State) : s.Within [.out, .freeCtr, .aon, .start, .ing, .egr, .str, .sch, .mem] (State.makePermanent kind inst s) := by
  unfold State.makePermanent
  repeat' first
    | with_reducible apply State.Within.refl
    | (with_reducible apply State.Within.step (State.onUnit_within ..)) <;> try decide
    | (with_reducible apply State.Within.step (State.noteUnit_within ..)) <;> try decide
    | (with_reducible apply State.Within.step (State.moveRows_within ..)) <;> try decide
    | (with_reducible apply State.Within.step (State.raise_within ..)) <;> try decide
    | (with_reducible apply State.Within.step (State.afterLoss_within ..)) <;> try decide
    | (with_reducible apply State.Within.foldl) <;> try intro _ _
    | with_reducible apply State.Within.ite
    | dsimp only
    | split

theorem State.unitFails_within (u : FUnit) (work : FaultWork) (s : State) : s.Within [.out, .freeCtr, .aon, .start, .ing, .egr, .str, .sch, .mem] (State.unitFails u work s) := by
  unfold State.unitFails
  repeat' first
    | with_reducible apply State.Within.refl
    | (with_reducible apply State.Within.step (State.onUnit_within ..)) <;> try decide
    | (with_reducible apply State.Within.step (State.runFault_within ..)) <;> try decide
    | (with_reducible apply State.Within.step (State.repeatWork_within ..)) <;> try decide
    | (with_reducible apply State.Within.step (State.withdraw_within ..)) <;> try decide
    | (with_reducible apply State.Within.step (State.makePermanent_within ..)) <;> try decide
    | (with_reducible apply State.Within.foldl) <;> try intro _ _
    | with_reducible apply State.Within.ite
    | dsimp only
    | split

theorem State.noteLoc_within (l : Loc) (s : State) : s.Within [.mem] (State.noteLoc l s) := by
  unfold State.noteLoc
  repeat' first
    | with_reducible apply State.Within.refl
    | (with_reducible apply State.Within.step (State.trimUnwritten_within ..)) <;> try decide
    | (with_reducible apply State.Within.step (State.onMem_within ?_)) <;> try decide
    | exact fun _ h => ⟨h.units, h.arrays, h.patrol, h.counts, h.bound⟩
    | exact fun _ h => ⟨by simp [h.units], by simp [h.arrays], by simp [h.patrol], h.counts, h.bound⟩
    | (with_reducible apply State.Within.step (State.count_within ..)) <;> try decide
    | (with_reducible apply State.Within.foldl) <;> try intro _ _
    | with_reducible apply State.Within.ite
    | dsimp only
    | split

theorem State.dropGrants_within (s : State) : s.Within [.sto] s.dropGrants := State.onSto_within ..

theorem leaveWork_within (p : Pkt) (s : State) : s.Within [.out, .freeCtr, .ing, .egr, .str, .sto, .mem, .cas] (leaveWork p s) := by
  unfold leaveWork
  repeat' first
    | with_reducible apply State.Within.refl
    | (with_reducible apply State.Within.step (State.dropGrants_within ..)) <;> try decide
    | (with_reducible apply State.Within.step (State.onSto_within ..)) <;> try decide
    | (with_reducible apply State.Within.step (State.refuse_within ..)) <;> try decide
    | (with_reducible apply State.Within.step (State.onCas_within ..)) <;> try decide
    | (with_reducible apply State.Within.step (State.done_within ..)) <;> try decide
    | (with_reducible apply State.Within.step (State.send_within ..)) <;> try decide
    | (with_reducible apply State.Within.foldl) <;> try intro _ _
    | with_reducible apply State.Within.ite
    | dsimp only
    | split

theorem State.stepTo_within (t : Nat) (s : State) : s.Within [.aon] (State.stepTo t s) := by
  unfold State.stepTo
  repeat' first
    | with_reducible apply State.Within.refl
    | (with_reducible apply State.Within.step (State.onAon_within ?_)) <;> try decide
    | exact fun _ h => ⟨h.sensors, h.domains, h.counters, h.vset, h.thresh, h.causes⟩
    | exact fun _ h => ⟨by simp [h.sensors], by simp [h.domains], h.counters, h.vset, h.thresh, h.causes⟩
    | (with_reducible apply State.Within.foldl) <;> try intro _ _
    | with_reducible apply State.Within.ite
    | dsimp only
    | split

theorem State.resend_within (s : State) : s.Within [.out, .freeCtr, .ing, .egr, .str, .sto, .ber, .mem, .cas] s.resend := by
  have h1 : s.Within [.out, .freeCtr, .ing, .egr, .str, .sto, .ber, .mem, .cas] ((s.sto.budgets.filter (·.requested)).foldl (fun s b =>
      if s.cas.st == .master then s.masterGrant s.groupNum b.tenant b.quantum
      else s.send s.cas.master (.grantReq b.tenant b.quantum)) s) := by
    refine .foldl (fun u b => ?_) _ (.refl _ _)
    exact .ite ((State.masterGrant_within ..).mono (by decide)) ((State.send_within ..).mono (by decide))
  have h2 {u : State} (h : s.Within [.out, .freeCtr, .ing, .egr, .str, .sto, .ber, .mem, .cas] u) :
      s.Within [.out, .freeCtr, .ing, .egr, .str, .sto, .ber, .mem, .cas] (s.sto.budgets.foldl (fun s b => s.askSpent b.tenant) u) :=
    .foldl (fun _ _ => (State.askSpent_within ..).mono (by decide)) _ h
  unfold State.resend
  dsimp only
  split
  · refine .foldl (fun u f => ?_) _ (.step (State.onCas_within ..) (by decide) (h2 h1))
    exact State.masterSet_within (by decide) (fun _ _ => (State.done_within ..).mono (by decide))
      (fun _ => (State.refuse_within ..).mono (by decide)) ..
  · exact .foldl (fun u f => (State.send_within ..).mono (by decide)) _ (h2 h1)

theorem State.followIndex_within (tenants : List BudSet) (s : State) : s.Within [.sto, .ber] (s.followIndex tenants) :=
  .foldl (fun _ _ => State.followLedger_within ..) _ (.foldl (fun _ _ => State.followLedger_within ..) _ (.refl _ _))

theorem State.groupEvent_within (s : State) : s.Within [.out, .egr, .str, .mem] (State.groupEvent s) := by
  unfold State.groupEvent
  repeat' first
    | with_reducible apply State.Within.refl
    | (with_reducible apply State.Within.step (State.event_within ..)) <;> try decide
    | (with_reducible apply State.Within.foldl) <;> try intro _ _
    | with_reducible apply State.Within.ite
    | dsimp only
    | split

theorem State.sendWelcome_within (n : Nat) (s : State) : s.Within [.out] (State.sendWelcome n s) := by
  unfold State.sendWelcome
  repeat' first
    | with_reducible apply State.Within.refl
    | (with_reducible apply State.Within.step (State.send_within ..)) <;> try decide
    | (with_reducible apply State.Within.foldl) <;> try intro _ _
    | with_reducible apply State.Within.ite
    | dsimp only
    | split

theorem State.syncLedger_within (s : State) : s.Within [.out, .freeCtr, .ing, .egr, .str, .sto, .mem, .cas] (State.syncLedger s) := by
  unfold State.syncLedger
  repeat' first
    | with_reducible apply State.Within.refl
    | (with_reducible apply State.Within.step (State.payOwed_within ..)) <;> try decide
    | (with_reducible apply State.Within.step (State.onCas_within ..)) <;> try decide
    | (with_reducible apply State.Within.step (State.send_within ..)) <;> try decide
    | (with_reducible apply State.Within.foldl) <;> try intro _ _
    | with_reducible apply State.Within.ite
    | dsimp only
    | split

theorem State.form_within (s : State) : s.Within [.out, .freeCtr, .aon, .ing, .egr, .str, .sto, .ber, .mem, .cas] (State.form s) := by
  unfold State.form
  repeat' first
    | with_reducible apply State.Within.refl
    | (with_reducible apply State.Within.step (State.stepTo_within ..)) <;> try decide
    | (with_reducible apply State.Within.step (State.resend_within ..)) <;> try decide
    | (with_reducible apply State.Within.step (State.onCas_within ..)) <;> try decide
    | (with_reducible apply State.Within.step (State.groupEvent_within ..)) <;> try decide
    | (with_reducible apply State.Within.step (State.sendWelcome_within ..)) <;> try decide
    | (with_reducible apply State.Within.step (State.syncLedger_within ..)) <;> try decide
    | (with_reducible apply State.Within.foldl) <;> try intro _ _
    | with_reducible apply State.Within.ite
    | dsimp only
    | split

theorem State.restore_within (kind : Nat) (inst : Nat) (test : Bool) (s : State) : s.Within [.out, .egr, .str, .mem] (State.restore kind inst test s) := by
  unfold State.restore
  repeat' first
    | with_reducible apply State.Within.refl
    | (with_reducible apply State.Within.step (State.onUnit_within ..)) <;> try decide
    | (with_reducible apply State.Within.step (State.capacity__within ..)) <;> try decide
    | (with_reducible apply State.Within.foldl) <;> try intro _ _
    | with_reducible apply State.Within.ite
    | dsimp only
    | split

theorem State.makeSuspect_within (kind : Nat) (inst : Nat) (s : State) : s.Within [.mem] (State.makeSuspect kind inst s) := by
  unfold State.makeSuspect
  repeat' first
    | with_reducible apply State.Within.refl
    | (with_reducible apply State.Within.step (State.onUnit_within ..)) <;> try decide
    | (with_reducible apply State.Within.step (State.noteUnit_within ..)) <;> try decide
    | (with_reducible apply State.Within.foldl) <;> try intro _ _
    | with_reducible apply State.Within.ite
    | dsimp only
    | split

theorem State.testDone_within (u : FUnit) (passed : Bool) (s : State) : s.Within [.out, .freeCtr, .ing, .egr, .str, .mem] (State.testDone u passed s) := by
  unfold State.testDone
  repeat' first
    | with_reducible apply State.Within.refl
    | (with_reducible apply State.Within.step (State.onUnit_within ..)) <;> try decide
    | (with_reducible apply State.Within.step (State.done_within ..)) <;> try decide
    | (with_reducible apply State.Within.foldl) <;> try intro _ _
    | with_reducible apply State.Within.ite
    | dsimp only
    | split

theorem State.endTest_within (u : FUnit) (passed : Bool) (agreed : Bool) (s : State) : s.Within [.out, .freeCtr, .aon, .start, .ing, .egr, .str, .sch, .mem] (State.endTest u passed agreed s) := by
  unfold State.endTest
  repeat' first
    | with_reducible apply State.Within.refl
    | (with_reducible apply State.Within.step (State.onUnit_within ..)) <;> try decide
    | (with_reducible apply State.Within.step (State.restore_within ..)) <;> try decide
    | (with_reducible apply State.Within.step (State.noteUnit_within ..)) <;> try decide
    | (with_reducible apply State.Within.step (State.makeSuspect_within ..)) <;> try decide
    | (with_reducible apply State.Within.step (State.moveRows_within ..)) <;> try decide
    | (with_reducible apply State.Within.step (State.makePermanent_within ..)) <;> try decide
    | (with_reducible apply State.Within.step (State.testDone_within ..)) <;> try decide
    | (with_reducible apply State.Within.foldl) <;> try intro _ _
    | with_reducible apply State.Within.ite
    | dsimp only
    | split

theorem State.ask_within (what : Nat) (s : State) : s.Within [.out] (State.ask what s) := by
  unfold State.ask
  repeat' first
    | with_reducible apply State.Within.refl
    | (with_reducible apply State.Within.step (State.emit_within ..)) <;> try decide
    | (with_reducible apply State.Within.foldl) <;> try intro _ _
    | with_reducible apply State.Within.ite
    | dsimp only
    | split

theorem State.beginStart_within (warm : Bool) (fails : List (Nat × Cell)) (s : State) : s.Within [.out, .aon, .start] (State.beginStart warm fails s) := by
  unfold State.beginStart
  repeat' first
    | with_reducible apply State.Within.refl
    | (with_reducible apply State.Within.step (State.ask_within ..)) <;> try decide
    | (with_reducible apply State.Within.step (State.onStart_within ..)) <;> try decide
    | (with_reducible apply State.Within.step (State.onAon_within ?_)) <;> try decide
    | exact fun _ h => ⟨h.sensors, h.domains, h.counters, h.vset, h.thresh, h.causes⟩
    | exact fun _ h => ⟨by simp [h.sensors], by simp [h.domains], h.counters, h.vset, h.thresh, h.causes⟩
    | (with_reducible apply State.Within.foldl) <;> try intro _ _
    | with_reducible apply State.Within.ite
    | dsimp only
    | split

theorem State.addLoc_within (l : Loc) (s : State) : s.Within [.mem] (State.addLoc l s) := by
  unfold State.addLoc
  repeat' first
    | with_reducible apply State.Within.refl
    | (with_reducible apply State.Within.step (State.onMem_within ?_)) <;> try decide
    | exact fun _ h => ⟨h.units, h.arrays, h.patrol, h.counts, h.bound⟩
    | exact fun _ h => ⟨by simp [h.units], by simp [h.arrays], by simp [h.patrol], h.counts, h.bound⟩
    | (with_reducible apply State.Within.step (State.noteLoc_within ..)) <;> try decide
    | (with_reducible apply State.Within.foldl) <;> try intro _ _
    | with_reducible apply State.Within.ite
    | dsimp only
    | split

theorem State.locFails_within (l : Loc) (s : State) : s.Within [.mem] (State.locFails l s) := by
  unfold State.locFails
  repeat' first
    | with_reducible apply State.Within.refl
    | (with_reducible apply State.Within.step (State.onMem_within ?_)) <;> try decide
    | exact fun _ h => ⟨h.units, h.arrays, h.patrol, h.counts, h.bound⟩
    | exact fun _ h => ⟨by simp [h.units], by simp [h.arrays], by simp [h.patrol], h.counts, h.bound⟩
    | (with_reducible apply State.Within.step (State.addLoc_within ..)) <;> try decide
    | (with_reducible apply State.Within.step (State.noteLoc_within ..)) <;> try decide
    | (with_reducible apply State.Within.foldl) <;> try intro _ _
    | with_reducible apply State.Within.ite
    | dsimp only
    | split

theorem State.onMarch_within (f : March → March) (s : State) : s.Within [.mem] (State.onMarch f s) := by
  unfold State.onMarch
  repeat' first
    | with_reducible apply State.Within.refl
    | (with_reducible apply State.Within.step (State.onMem_within ?_)) <;> try decide
    | exact fun _ h => ⟨h.units, h.arrays, h.patrol, h.counts, h.bound⟩
    | exact fun _ h => ⟨by simp [h.units], by simp [h.arrays], by simp [h.patrol], h.counts, h.bound⟩
    | (with_reducible apply State.Within.foldl) <;> try intro _ _
    | with_reducible apply State.Within.ite
    | dsimp only
    | split

theorem State.marchStatus_within (st : Nat) (s : State) : s.Within [.mem] (State.marchStatus st s) := by
  unfold State.marchStatus
  repeat' first
    | with_reducible apply State.Within.refl
    | (with_reducible apply State.Within.step (State.onMarch_within ..)) <;> try decide
    | (with_reducible apply State.Within.foldl) <;> try intro _ _
    | with_reducible apply State.Within.ite
    | dsimp only
    | split

theorem State.noteSpares_within (l : List (Nat × Cell)) (s : State) : s.Within [.mem] (State.noteSpares l s) := by
  unfold State.noteSpares
  repeat' first
    | with_reducible apply State.Within.refl
    | (with_reducible apply State.Within.step (State.onMem_within ?_)) <;> try decide
    | exact fun _ h => ⟨h.units, h.arrays, h.patrol, h.counts, h.bound⟩
    | exact fun _ h => ⟨by simp [h.units], by simp [h.arrays], by simp [h.patrol], h.counts, h.bound⟩
    | (with_reducible apply State.Within.foldl) <;> try intro _ _
    | with_reducible apply State.Within.ite
    | dsimp only
    | split

theorem State.camRowFails_within (b : Nat) (row : Nat) (s : State) : s.Within [.mem] (State.camRowFails b row s).1 := by
  unfold State.camRowFails
  repeat' first
    | with_reducible apply State.Within.refl
    | (with_reducible apply State.Within.step (State.repairAdd_within ..)) <;> try decide
    | (with_reducible apply State.Within.step (State.locFails_within ..)) <;> try decide
    | (with_reducible apply State.Within.foldl) <;> try intro _ _
    | with_reducible apply State.Within.ite
    | dsimp only
    | split

theorem State.camRowFails_of {b : Nat} {row : Nat} {s : State} {r} (h : State.camRowFails b row s = r) : s.Within [.mem] r.1 := h ▸ State.camRowFails_within b row s

theorem State.camRowsFail_within (b : Nat) (rows : List Nat) (s : State) : s.Within [.mem] (State.camRowsFail b rows s).1 :=
  by
  refine State.Within.foldlFst (fun a r => ?_) rows (s, true)
  dsimp only
  exact .step (State.onMarch_within ..) (by decide) (State.camRowFails_within ..)

theorem State.camRowsFail_of {b : Nat} {rows : List Nat} {s : State} {r} (h : State.camRowsFail b rows s = r) : s.Within [.mem] r.1 :=
  h ▸ State.camRowsFail_within b rows s

theorem State.beginCam_within {b : Nat} {s u : State} (h : State.beginCam b s = some u) : s.Within [.ber, .mem] u := by
  unfold State.beginCam at h
  dsimp only at h
  split at h
  · cases h
    exact (State.onMarch_within ..).mono (by decide)
  · split at h
    · cases h
    · cases h
      exact .step (State.onBer_within ..) (by decide) (.step (State.mapEntry_within ..) (by decide)
        ((State.onMarch_within ..).mono (by decide)))

theorem State.endMarch_within (s : State) : s.Within [.out, .freeCtr, .ing, .egr, .str, .mem] (State.endMarch s) := by
  unfold State.endMarch
  repeat' first
    | with_reducible apply State.Within.refl
    | (with_reducible apply State.Within.step (State.onMarch_within ..)) <;> try decide
    | (with_reducible apply State.Within.step (State.onMem_within ?_)) <;> try decide
    | exact fun _ h => ⟨h.units, h.arrays, h.patrol, h.counts, h.bound⟩
    | exact fun _ h => ⟨by simp [h.units], by simp [h.arrays], by simp [h.patrol], h.counts, h.bound⟩
    | (with_reducible apply State.Within.step (State.done_within ..)) <;> try decide
    | (with_reducible apply State.Within.foldl) <;> try intro _ _
    | with_reducible apply State.Within.ite
    | dsimp only
    | split

theorem State.endFree_within (total : Nat) (s : State) : s.Within [.out, .freeCtr, .ing, .egr, .str, .mem] (State.endFree total s) := by
  unfold State.endFree
  repeat' first
    | with_reducible apply State.Within.refl
    | (with_reducible apply State.Within.step (State.onMarch_within ..)) <;> try decide
    | (with_reducible apply State.Within.step (State.drawn_within ..)) <;> try decide
    | (with_reducible apply State.Within.step (State.endMarch_within ..)) <;> try decide
    | (with_reducible apply State.Within.foldl) <;> try intro _ _
    | with_reducible apply State.Within.ite
    | dsimp only
    | split

theorem State.endCam_within (b : Nat) (all : List (Nat × Cell)) (s : State) : s.Within [.out, .freeCtr, .aon, .ing, .egr, .str, .ber, .mem] (State.endCam b all s) := by
  unfold State.endCam
  repeat' first
    | with_reducible apply State.Within.refl
    | (with_reducible apply State.Within.step (State.noteSpares_within ..)) <;> try decide
    | (with_reducible apply State.Within.step (State.onMarch_within ..)) <;> try decide
    | (with_reducible apply State.Within.step (State.eventFull_within ..)) <;> try decide
    | (with_reducible apply State.Within.step (State.camRowsFail_within ..)) <;> try decide
    | (with_reducible apply State.Within.step (State.camRowsFail_of (by assumption))) <;> try decide
    | (with_reducible apply State.Within.step (State.beginCam_within (by assumption))) <;> try decide
    | (with_reducible apply State.Within.step (State.bankFailed_within ..)) <;> try decide
    | (with_reducible apply State.Within.step (State.endMarch_within ..)) <;> try decide
    | (with_reducible apply State.Within.step (State.endFree_within ..)) <;> try decide
    | (with_reducible apply State.Within.foldl) <;> try intro _ _
    | with_reducible apply State.Within.ite
    | dsimp only
    | split

theorem State.latchEntry_within (port : Bool) (s : State) : s.Within [.mem] (State.latchEntry port s) := by
  unfold State.latchEntry
  repeat' first
    | with_reducible apply State.Within.refl
    | (with_reducible apply State.Within.step (State.onMem_within ?_)) <;> try decide
    | exact fun _ h => ⟨h.units, h.arrays, h.patrol, h.counts, h.bound⟩
    | exact fun _ h => ⟨by simp [h.units], by simp [h.arrays], by simp [h.patrol], h.counts, h.bound⟩
    | (with_reducible apply State.Within.foldl) <;> try intro _ _
    | with_reducible apply State.Within.ite
    | dsimp only
    | split

theorem marchAbortWork_within (p : Pkt) (s : State) : s.Within [.out, .freeCtr, .ing, .egr, .str, .mem] (marchAbortWork p s) := by
  unfold marchAbortWork
  repeat' first
    | with_reducible apply State.Within.refl
    | (with_reducible apply State.Within.step (State.onMarch_within ..)) <;> try decide
    | (with_reducible apply State.Within.step (State.refuse_within ..)) <;> try decide
    | (with_reducible apply State.Within.step (State.done_within ..)) <;> try decide
    | (with_reducible apply State.Within.step (State.marchStatus_within ..)) <;> try decide
    | (with_reducible apply State.Within.foldl) <;> try intro _ _
    | with_reducible apply State.Within.ite
    | dsimp only
    | split

theorem State.rescueOne_within (lost : Nat) (s : State) (b : PkgBody) : s.Within [.out, .freeCtr, .ing, .egr, .img, .str, .sch, .sto, .ber, .mem, .cas] (State.rescueOne lost s b) := by
  unfold State.rescueOne
  repeat' first
    | with_reducible apply State.Within.refl
    | (with_reducible apply State.Within.step (State.onCas_within ..)) <;> try decide
    | (with_reducible apply State.Within.step (State.receivePackage_within ..)) <;> try decide
    | (with_reducible apply State.Within.step (State.send_within ..)) <;> try decide
    | (with_reducible apply State.Within.foldl) <;> try intro _ _
    | with_reducible apply State.Within.ite
    | dsimp only
    | split

theorem State.repairCam_within (bank : Nat) (march : List Nat) (history : List Nat) (s : State) : s.Within [.out, .aon, .ber, .mem] (State.repairCam bank march history s) := by
  unfold State.repairCam
  repeat' first
    | with_reducible apply State.Within.refl
    | (with_reducible apply State.Within.step (State.repairAdd_within ..)) <;> try decide
    | (with_reducible apply State.Within.step (State.bankFailed_within ..)) <;> try decide
    | (with_reducible apply State.Within.foldl) <;> try intro _ _
    | with_reducible apply State.Within.ite
    | dsimp only
    | split

theorem State.bootCommit_within {b : Bytes} {s u : State} (h : State.bootCommit b s = some u) :
    s.Within [.out, .egr, .img, .str, .ber, .mem] u := by
  unfold State.bootCommit at h
  split at h
  · split at h
    · cases h
    · dsimp only at h
      split at h
      · cases h
      · split at h
        · cases h
        · split at h
          · cases h
          · rename_i hr
            split at h
            · cases h
            · split at h
              · cases h
              · simp only [Option.map_eq_some_iff] at h
                obtain ⟨v, hv, rfl⟩ := h
                exact .step (State.install_within ..) (by decide) (.step (State.enterSlot_within hv) (by decide)
                  (.step (State.setSlot_within ..) (by decide) (.step (State.reserveImage_within hr) (by decide)
                  ((State.onImg_within ..).mono (by decide)))))
  · cases h

theorem State.goReady_within (s : State) : s.Within [.out, .start, .egr, .str, .mem, .cas] (State.goReady s) := by
  unfold State.goReady
  repeat' first
    | with_reducible apply State.Within.refl
    | (with_reducible apply State.Within.step (State.onMem_within ?_)) <;> try decide
    | exact fun _ h => ⟨h.units, h.arrays, h.patrol, h.counts, h.bound⟩
    | exact fun _ h => ⟨by simp [h.units], by simp [h.arrays], by simp [h.patrol], h.counts, h.bound⟩
    | (with_reducible apply State.Within.step (State.onStart_within ..)) <;> try decide
    | (with_reducible apply State.Within.step (State.onCas_within ..)) <;> try decide
    | (with_reducible apply State.Within.step (State.sendJoin_within ..)) <;> try decide
    | (with_reducible apply State.Within.step (State.event_within ..)) <;> try decide
    | (with_reducible apply State.Within.foldl) <;> try intro _ _
    | with_reducible apply State.Within.ite
    | dsimp only
    | split

theorem State.takeBoot_within (b : Bytes) (s : State) : s.Within [.out, .aon, .start, .egr, .img, .str, .ber, .mem, .cas] (State.takeBoot b s) := by
  unfold State.takeBoot
  split
  · exact .step (State.goReady_within ..) (by decide) ((State.bootCommit_within (by assumption)).mono (by decide))
  · exact .step (State.ask_within ..) (by decide) (.step (State.raise_within (by decide) _) (by decide)
      ((State.onStart_within ..).mono (by decide)))

theorem State.takeLatch_within (port : Bool) (off : Nat) (s : State) : s.Within [.mem] (State.takeLatch port off s).2 := by
  unfold State.takeLatch
  repeat' first
    | with_reducible apply State.Within.refl
    | (with_reducible apply State.Within.step (State.onMem_within ?_)) <;> try decide
    | exact fun _ h => ⟨h.units, h.arrays, h.patrol, h.counts, h.bound⟩
    | exact fun _ h => ⟨by simp [h.units], by simp [h.arrays], by simp [h.patrol], h.counts, h.bound⟩
    | (with_reducible apply State.Within.foldl) <;> try intro _ _
    | with_reducible apply State.Within.ite
    | dsimp only
    | split

theorem State.takeLatch_of {port : Bool} {off : Nat} {s : State} {r} (h : State.takeLatch port off s = r) : s.Within [.mem] r.2 := h ▸ State.takeLatch_within port off s

theorem State.atStep_within (n : Nat) (s : State) : s.Within [.start] (State.atStep n s) := by
  unfold State.atStep
  repeat' first
    | with_reducible apply State.Within.refl
    | (with_reducible apply State.Within.step (State.onStart_within ..)) <;> try decide
    | (with_reducible apply State.Within.foldl) <;> try intro _ _
    | with_reducible apply State.Within.ite
    | dsimp only
    | split

theorem State.cellFails_within (repair : Bool) (array : Nat) (c : Cell) (s : State) : s.Within [.mem] (State.cellFails repair array c s).1 := by
  unfold State.cellFails
  repeat' first
    | with_reducible apply State.Within.refl
    | (with_reducible apply State.Within.step (State.locFails_within ..)) <;> try decide
    | (with_reducible apply State.Within.step (State.takeSpare_within ..)) <;> try decide
    | (with_reducible apply State.Within.step (State.takeSpare_of (by assumption))) <;> try decide
    | (with_reducible apply State.Within.foldl) <;> try intro _ _
    | with_reducible apply State.Within.ite
    | dsimp only
    | split

theorem State.cellFails_of {repair : Bool} {array : Nat} {c : Cell} {s : State} {r} (h : State.cellFails repair array c s = r) : s.Within [.mem] r.1 := h ▸ State.cellFails_within repair array c s

theorem State.rowFails_within (a : Nat) (fails : List Cell) (s : State) : s.Within [.mem] (State.rowFails a fails s) := by
  unfold State.rowFails
  repeat' first
    | with_reducible apply State.Within.refl
    | (with_reducible apply State.Within.step (State.onMarch_within ..)) <;> try decide
    | (with_reducible apply State.Within.step (State.cellFails_within ..)) <;> try decide
    | (with_reducible apply State.Within.step (State.cellFails_of (by assumption))) <;> try decide
    | (with_reducible apply State.Within.foldl) <;> try intro _ _
    | with_reducible apply State.Within.ite
    | dsimp only
    | split

theorem State.locateDone_within (p : Pkt) (answer : Option (Nat × Nat)) (s : State) : s.Within [.out, .freeCtr, .ing, .egr, .str, .mem] (State.locateDone p answer s) := by
  unfold State.locateDone
  repeat' first
    | with_reducible apply State.Within.refl
    | (with_reducible apply State.Within.step (State.refuse_within ..)) <;> try decide
    | (with_reducible apply State.Within.step (State.done_within ..)) <;> try decide
    | (with_reducible apply State.Within.foldl) <;> try intro _ _
    | with_reducible apply State.Within.ite
    | dsimp only
    | split

theorem State.notLive_within (n : Nat) (s : State) : s.Within [.out, .freeCtr, .ing, .egr, .str, .sto, .mem, .cas] (State.notLive n s) := by
  unfold State.notLive
  repeat' first
    | with_reducible apply State.Within.refl
    | (with_reducible apply State.Within.step (State.onCas_within ..)) <;> try decide
    | (with_reducible apply State.Within.step (State.groupEvent_within ..)) <;> try decide
    | (with_reducible apply State.Within.step (State.syncLedger_within ..)) <;> try decide
    | (with_reducible apply State.Within.foldl) <;> try intro _ _
    | with_reducible apply State.Within.ite
    | dsimp only
    | split

theorem State.lostClear_within (src : Nat) (s : State) : s.Within [.aon] (State.lostClear src s) := by
  unfold State.lostClear
  repeat' first
    | with_reducible apply State.Within.refl
    | (with_reducible apply State.Within.step (State.onAon_within ?_)) <;> try decide
    | exact fun _ h => ⟨h.sensors, h.domains, h.counters, h.vset, h.thresh, h.causes⟩
    | exact fun _ h => ⟨by simp [h.sensors], by simp [h.domains], h.counters, h.vset, h.thresh, h.causes⟩
    | (with_reducible apply State.Within.foldl) <;> try intro _ _
    | with_reducible apply State.Within.ite
    | dsimp only
    | split

theorem State.clearCorr_within (hardware : Bool) (s : State) : s.Within [.aon, .ber] (State.clearCorr hardware s) := by
  unfold State.clearCorr
  repeat' first
    | with_reducible apply State.Within.refl
    | (with_reducible apply State.Within.step (State.lostClear_within ..)) <;> try decide
    | (with_reducible apply State.Within.step (State.onBer_within ..)) <;> try decide
    | (with_reducible apply State.Within.foldl) <;> try intro _ _
    | with_reducible apply State.Within.ite
    | dsimp only
    | split

theorem State.takeBack_within (x : Nat × Nat) (s : State) : s.Within [.cas] (State.takeBack x s) := by
  unfold State.takeBack
  repeat' first
    | with_reducible apply State.Within.refl
    | (with_reducible apply State.Within.step (State.onCas_within ..)) <;> try decide
    | (with_reducible apply State.Within.foldl) <;> try intro _ _
    | with_reducible apply State.Within.ite
    | dsimp only
    | split

theorem State.breakNode_within (slot : Nat) (node : Nat) (s : State) : s.Within [.str] (State.breakNode slot node s) := by
  unfold State.breakNode
  repeat' first
    | with_reducible apply State.Within.refl
    | (with_reducible apply State.Within.step (State.onStr_within ..)) <;> try decide
    | (with_reducible apply State.Within.step (State.setNode_within ..)) <;> try decide
    | (with_reducible apply State.Within.foldl) <;> try intro _ _
    | with_reducible apply State.Within.ite
    | dsimp only
    | split

theorem State.breakChunk_within (c : Nat) (s : State) : s.Within [.str] (State.breakChunk c s) := by
  unfold State.breakChunk
  repeat' first
    | with_reducible apply State.Within.refl
    | (with_reducible apply State.Within.step (State.breakNode_within ..)) <;> try decide
    | (with_reducible apply State.Within.foldl) <;> try intro _ _
    | with_reducible apply State.Within.ite
    | dsimp only
    | split

theorem State.clearCause_within (word hardware : Nat) (s : State) : s.Within [.out, .aon] (s.clearCause word hardware) := by
  have hb (x : Nat) : x &&& causeBits < 2 ^ 19 := Nat.lt_of_le_of_lt Nat.and_le_right (by decide)
  unfold State.clearCause
  extract_lets w h s1 s2
  have h1 : s.Within [.out, .aon] s1 := by
    refine .mono (State.onAon_within fun a ha => ⟨ha.sensors, ha.domains, ha.counters, ha.vset, ha.thresh, ?_⟩) (by decide)
    simp only [BitVec.toNat_ofNat]
    refine Nat.lt_of_le_of_lt (Nat.mod_le _ _) (Nat.or_lt_two_pow (Nat.xor_lt_two_pow ha.causes ?_) ?_)
    · exact Nat.lt_of_le_of_lt Nat.and_le_left ha.causes
    · exact Nat.lt_of_le_of_lt Nat.and_le_left (hb _)
  have h2 : s.Within [.out, .aon] s2 := .foldl (fun _ _ => (State.lostClear_within ..).mono (by decide)) _ h1
  refine State.Within.foldlMem (fun u n hn => State.raise_within ?_ u) h2
  simp only [bitList, List.mem_filter, List.mem_range] at hn
  refine Nat.lt_of_not_le fun hc => ?_
  have := Nat.testBit_lt_two_pow (Nat.lt_of_lt_of_le (hb hardware) (Nat.pow_le_pow_right (by decide) hc))
  simp [h, this] at hn

theorem State.withdrawArray_within (array : Nat) (src : Nat) (s : State) : s.Within [.out, .aon, .start, .mem] (State.withdrawArray array src s) := by
  unfold State.withdrawArray
  repeat' first
    | with_reducible apply State.Within.refl
    | (with_reducible apply State.Within.step (State.onMem_within ?_)) <;> try decide
    | exact fun _ h => ⟨h.units, h.arrays, h.patrol, h.counts, h.bound⟩
    | exact fun _ h => ⟨by simp [h.units], by simp [h.arrays], by simp [h.patrol], h.counts, h.bound⟩
    | (with_reducible apply State.Within.step (State.repairAdd_within ..)) <;> try decide
    | (with_reducible apply State.Within.step (State.onStart_within ..)) <;> try decide
    | (with_reducible apply State.Within.step (State.raise_within ..)) <;> try decide
    | (with_reducible apply State.Within.foldl) <;> try intro _ _
    | with_reducible apply State.Within.ite
    | dsimp only
    | split

theorem State.lockstep_within (s : State) : s.Within [.out, .freeCtr, .aon, .start, .ing, .egr, .str, .sch, .mem] (State.lockstep s) := by
  unfold State.lockstep
  repeat' first
    | with_reducible apply State.Within.refl
    | (with_reducible apply State.Within.step (State.onUnit_within ..)) <;> try decide
    | (with_reducible apply State.Within.step (State.onMem_within ?_)) <;> try decide
    | exact fun _ h => ⟨h.units, h.arrays, h.patrol, h.counts, h.bound⟩
    | exact fun _ h => ⟨by simp [h.units], by simp [h.arrays], by simp [h.patrol], h.counts, h.bound⟩
    | (with_reducible apply State.Within.step (State.makePermanent_within ..)) <;> try decide
    | (with_reducible apply State.Within.step (State.blockDown_within ..)) <;> try decide
    | (with_reducible apply State.Within.foldl) <;> try intro _ _
    | with_reducible apply State.Within.ite
    | dsimp only
    | split

theorem State.clearMemo_within (arrays : List Nat) (s : State) : s.Within [.img] (State.clearMemo arrays s) := by
  unfold State.clearMemo
  repeat' first
    | with_reducible apply State.Within.refl
    | (with_reducible apply State.Within.step (State.onImg_within ..)) <;> try decide
    | (with_reducible apply State.Within.foldl) <;> try intro _ _
    | with_reducible apply State.Within.ite
    | dsimp only
    | split

theorem State.beginMarch_within (pkt : Option Pkt) (mode : Nat) (target : Bool) (first last : Nat) (s : State) :
    s.Within [.img, .ber, .mem] (s.beginMarch pkt mode target first last) := by
  have h1 (f : March → March) : s.Within [.img, .ber, .mem] (s.onMarch f) := (State.onMarch_within ..).mono (by decide)
  unfold State.beginMarch
  dsimp only
  refine .ite (.getD (fun u hu => .step (State.beginCam_within hu) (by decide) (h1 _)) (h1 _)) (.ite ?_ (h1 _))
  exact .step (State.onMem_within fun _ h => ⟨h.units, h.arrays, h.patrol, h.counts, h.bound⟩) (by decide)
    (.step (State.clearMemo_within ..) (by decide) (h1 _))

theorem State.marchCtl_within (mode : Nat) (target : Bool) (first : Nat) (last : Nat) (s : State) : s.Within [.img, .ber, .mem] (State.marchCtl mode target first last s) := by
  unfold State.marchCtl
  repeat' first
    | with_reducible apply State.Within.refl
    | (with_reducible apply State.Within.step (State.onMarch_within ..)) <;> try decide
    | (with_reducible apply State.Within.step (State.beginMarch_within ..)) <;> try decide
    | (with_reducible apply State.Within.step (State.marchStatus_within ..)) <;> try decide
    | (with_reducible apply State.Within.foldl) <;> try intro _ _
    | with_reducible apply State.Within.ite
    | dsimp only
    | split

theorem State.cancelAll_within (f : Stream → Bool) (s : State) : s.Within [.str] (State.cancelAll f s) := by
  unfold State.cancelAll
  repeat' first
    | with_reducible apply State.Within.refl
    | (with_reducible apply State.Within.step (State.cancelLater_within ..)) <;> try decide
    | (with_reducible apply State.Within.step (State.markCancelled_within ..)) <;> try decide
    | (with_reducible apply State.Within.foldl) <;> try intro _ _
    | with_reducible apply State.Within.ite
    | dsimp only
    | split

theorem State.faultGrammar_within (id : Nat) (s : State) : s.Within [.img, .str] (State.faultGrammar id s) := by
  unfold State.faultGrammar
  repeat' first
    | with_reducible apply State.Within.refl
    | (with_reducible apply State.Within.step (State.onImg_within ..)) <;> try decide
    | (with_reducible apply State.Within.step (State.sweepGrams_within ..)) <;> try decide
    | (with_reducible apply State.Within.step (State.cancelAll_within ..)) <;> try decide
    | (with_reducible apply State.Within.foldl) <;> try intro _ _
    | with_reducible apply State.Within.ite
    | dsimp only
    | split

theorem State.repairSram_within (array : Nat) (bank : Nat) (march : List Cell) (history : List Cell) (s : State) : s.Within [.out, .aon, .start, .mem] (State.repairSram array bank march history s) := by
  unfold State.repairSram
  repeat' first
    | with_reducible apply State.Within.refl
    | (with_reducible apply State.Within.step (State.repairAdd_within ..)) <;> try decide
    | (with_reducible apply State.Within.step (State.withdrawArray_within ..)) <;> try decide
    | (with_reducible apply State.Within.foldl) <;> try intro _ _
    | with_reducible apply State.Within.ite
    | dsimp only
    | split

theorem State.buildRepair_within (s : State) : s.Within [.out, .aon, .start, .ber, .mem] (State.buildRepair s) := by
  unfold State.buildRepair
  repeat' first
    | with_reducible apply State.Within.refl
    | (with_reducible apply State.Within.step (State.repairSram_within ..)) <;> try decide
    | (with_reducible apply State.Within.step (State.locFails_within ..)) <;> try decide
    | (with_reducible apply State.Within.step (State.repairCam_within ..)) <;> try decide
    | (with_reducible apply State.Within.foldl) <;> try intro _ _
    | with_reducible apply State.Within.ite
    | dsimp only
    | split

theorem State.writeMarch_within (arg : Nat) (s : State) : s.Within [.img, .ber, .mem] (State.writeMarch arg s) := by
  unfold State.writeMarch
  repeat' first
    | with_reducible apply State.Within.refl
    | (with_reducible apply State.Within.step (State.marchCtl_within ..)) <;> try decide
    | (with_reducible apply State.Within.foldl) <;> try intro _ _
    | with_reducible apply State.Within.ite
    | dsimp only
    | split

theorem State.loseShadow_within (off : Nat) (s : State) : s.Within [.sch, .sto, .ber] (State.loseShadow off s) := by
  unfold State.loseShadow
  repeat' first
    | with_reducible apply State.Within.refl
    | (with_reducible apply State.Within.step (State.bankCount_within ..)) <;> try decide
    | (with_reducible apply State.Within.step (State.distrust_within ..)) <;> try decide
    | (with_reducible apply State.Within.step (State.onBer_within ..)) <;> try decide
    | (with_reducible apply State.Within.foldl) <;> try intro _ _
    | with_reducible apply State.Within.ite
    | dsimp only
    | split

theorem State.askRescue_within (s : State) : s.Within [.out] (State.askRescue s) := by
  unfold State.askRescue
  repeat' first
    | with_reducible apply State.Within.refl
    | (with_reducible apply State.Within.step (State.send_within ..)) <;> try decide
    | (with_reducible apply State.Within.foldl) <;> try intro _ _
    | with_reducible apply State.Within.ite
    | dsimp only
    | split

theorem State.violBit_within (ap k : Nat) (clear set_ : Bool) (s : State) :
    s.Within [.out, .aon, .ing] (s.violBit ap k clear set_) := by
  have h1 (v : Bool) : s.Within [.out, .aon, .ing]
      (s.onAp ap (fun a => if k == 0 then { a with portViol := v } else { a with creditViol := v })) :=
    .mono (State.onAp_within fun a h => by cases h' : k == 0 <;> simpa [h'] using h) (by decide)
  have h2 : (if k == 0 then cAptPort else cAptCredit) < 19 := by split <;> decide
  unfold State.violBit
  dsimp only
  exact .ite (.ite (.step (State.lostClear_within ..) (by decide) (.step (State.raise_within h2 _) (by decide) (h1 _)))
    (.step (State.raise_within h2 _) (by decide) (h1 _))) (.ite (h1 _) (.refl _ _))

theorem State.writeApCtl_within (ap : Nat) (v : Nat) (s : State) : s.Within [.out, .aon, .ing] (State.writeApCtl ap v s) := by
  unfold State.writeApCtl
  repeat' first
    | with_reducible apply State.Within.refl
    | (with_reducible apply State.Within.step (State.violBit_within ..)) <;> try decide
    | (with_reducible apply State.Within.step (State.resetAp_within ..)) <;> try decide
    | (with_reducible apply State.Within.foldl) <;> try intro _ _
    | with_reducible apply State.Within.ite
    | dsimp only
    | split

theorem State.takeOver_within (gone : Option Nat) (s : State) : s.Within [.out, .freeCtr, .ing, .egr, .img, .str, .sch, .sto, .ber, .mem, .cas] (State.takeOver gone s) := by
  unfold State.takeOver
  repeat' first
    | with_reducible apply State.Within.refl
    | (with_reducible apply State.Within.step (State.resend_within ..)) <;> try decide
    | (with_reducible apply State.Within.step (State.askRescue_within ..)) <;> try decide
    | (with_reducible apply State.Within.step (State.onCas_within ..)) <;> try decide
    | (with_reducible apply State.Within.step (State.memberGone_within ..)) <;> try decide
    | (with_reducible apply State.Within.step (State.groupEvent_within ..)) <;> try decide
    | (with_reducible apply State.Within.step (State.syncLedger_within ..)) <;> try decide
    | (with_reducible apply State.Within.step (State.send_within ..)) <;> try decide
    | (with_reducible apply State.Within.foldl) <;> try intro _ _
    | with_reducible apply State.Within.ite
    | dsimp only
    | split

theorem State.dropOwed_within (s : State) : s.Within [.out, .freeCtr, .ing, .egr, .str, .mem, .cas] (State.dropOwed s) := by
  unfold State.dropOwed
  repeat' first
    | with_reducible apply State.Within.refl
    | (with_reducible apply State.Within.step (State.refuse_within ..)) <;> try decide
    | (with_reducible apply State.Within.step (State.onCas_within ..)) <;> try decide
    | (with_reducible apply State.Within.foldl) <;> try intro _ _
    | with_reducible apply State.Within.ite
    | dsimp only
    | split

theorem State.orphan_within (s : State) : s.Within [.out, .freeCtr, .ing, .egr, .str, .mem, .cas] (State.orphan s) := by
  unfold State.orphan
  repeat' first
    | with_reducible apply State.Within.refl
    | (with_reducible apply State.Within.step (State.onCas_within ..)) <;> try decide
    | (with_reducible apply State.Within.step (State.dropOwed_within ..)) <;> try decide
    | (with_reducible apply State.Within.step (State.sendJoin_within ..)) <;> try decide
    | (with_reducible apply State.Within.foldl) <;> try intro _ _
    | with_reducible apply State.Within.ite
    | dsimp only
    | split

theorem State.endDestructive_within (fails : List (Nat × Cell)) (s : State) : s.Within [.out, .freeCtr, .ing, .egr, .str, .mem] (State.endDestructive fails s) := by
  unfold State.endDestructive
  repeat' first
    | with_reducible apply State.Within.refl
    | (with_reducible apply State.Within.step (State.noteSpares_within ..)) <;> try decide
    | (with_reducible apply State.Within.step (State.onMarch_within ..)) <;> try decide
    | (with_reducible apply State.Within.step (State.cellFails_within ..)) <;> try decide
    | (with_reducible apply State.Within.step (State.cellFails_of (by assumption))) <;> try decide
    | (with_reducible apply State.Within.step (State.endMarch_within ..)) <;> try decide
    | (with_reducible apply State.Within.step (State.endFree_within ..)) <;> try decide
    | (with_reducible apply State.Within.foldl) <;> try intro _ _
    | with_reducible apply State.Within.ite
    | dsimp only
    | split

theorem State.withRoles_within (f : Casc → Casc) (s : State) : s.Within [.cas] (State.withRoles f s) := by
  unfold State.withRoles
  repeat' first
    | with_reducible apply State.Within.refl
    | (with_reducible apply State.Within.step (State.onCas_within ..)) <;> try decide
    | (with_reducible apply State.Within.foldl) <;> try intro _ _
    | with_reducible apply State.Within.ite
    | dsimp only
    | split

theorem State.depart_within (n : Nat) (s : State) : s.Within [.out, .freeCtr, .ing, .egr, .img, .str, .sch, .sto, .ber, .mem, .cas] (State.depart n s) := by
  unfold State.depart
  repeat' first
    | with_reducible apply State.Within.refl
    | (with_reducible apply State.Within.step (State.memberGone_within ..)) <;> try decide
    | (with_reducible apply State.Within.step (State.notLive_within ..)) <;> try decide
    | (with_reducible apply State.Within.foldl) <;> try intro _ _
    | with_reducible apply State.Within.ite
    | dsimp only
    | split

theorem State.loseSlot_within (off : Nat) (s : State) : s.Within [.out, .freeCtr, .ing, .egr, .str, .sch, .sto, .ber, .mem, .cas] (State.loseSlot off s) := by
  unfold State.loseSlot
  repeat' first
    | with_reducible apply State.Within.refl
    | (with_reducible apply State.Within.step (State.onStream_within ..)) <;> try decide
    | (with_reducible apply State.Within.step (State.onMem_within ?_)) <;> try decide
    | exact fun _ h => ⟨h.units, h.arrays, h.patrol, h.counts, h.bound⟩
    | exact fun _ h => ⟨by simp [h.units], by simp [h.arrays], by simp [h.patrol], h.counts, h.bound⟩
    | (with_reducible apply State.Within.step (State.cancelNow_within ..)) <;> try decide
    | (with_reducible apply State.Within.step (State.onStr_within ..)) <;> try decide
    | (with_reducible apply State.Within.foldl) <;> try intro _ _
    | with_reducible apply State.Within.ite
    | dsimp only
    | split

theorem State.retirePage_within (page : Nat) (s : State) : s.Within [.str, .sch, .sto, .ber, .mem] (State.retirePage page s) := by
  unfold State.retirePage
  repeat' first
    | with_reducible apply State.Within.refl
    | (with_reducible apply State.Within.step (State.cancelLater_within ..)) <;> try decide
    | (with_reducible apply State.Within.step (State.onSto_within ..)) <;> try decide
    | (with_reducible apply State.Within.step (State.locFails_within ..)) <;> try decide
    | (with_reducible apply State.Within.step (State.dropRecords_within ..)) <;> try decide
    | (with_reducible apply State.Within.foldl) <;> try intro _ _
    | with_reducible apply State.Within.ite
    | dsimp only
    | split

theorem State.loseTree_within (record : Nat) (s : State) : s.Within [.str] (State.loseTree record s) := by
  unfold State.loseTree
  repeat' first
    | with_reducible apply State.Within.refl
    | (with_reducible apply State.Within.step (State.dropTree_within ..)) <;> try decide
    | (with_reducible apply State.Within.foldl) <;> try intro _ _
    | with_reducible apply State.Within.ite
    | dsimp only
    | split

theorem State.faultVersion_within (handle : Nat) (s : State) : s.Within [.out, .egr, .img, .str, .ber, .mem] (State.faultVersion handle s) := by
  unfold State.faultVersion
  repeat' first
    | with_reducible apply State.Within.refl
    | (with_reducible apply State.Within.step (State.onImg_within ..)) <;> try decide
    | (with_reducible apply State.Within.step (State.sweepVersions_within ..)) <;> try decide
    | (with_reducible apply State.Within.step (State.cancelAll_within ..)) <;> try decide
    | (with_reducible apply State.Within.foldl) <;> try intro _ _
    | with_reducible apply State.Within.ite
    | dsimp only
    | split

theorem State.loseFrame_within (pool : Nat) (off : Nat) (owner : MemOwner) (s : State) : s.Within [.out, .freeCtr, .ing, .egr, .img, .str, .sch, .sto, .ber, .mem, .cas] (State.loseFrame pool off owner s) := by
  unfold State.loseFrame
  repeat' first
    | with_reducible apply State.Within.refl
    | (with_reducible apply State.Within.step (State.loseShadow_within ..)) <;> try decide
    | (with_reducible apply State.Within.step (State.loseTree_within ..)) <;> try decide
    | (with_reducible apply State.Within.step (State.rebuild_within ..)) <;> try decide
    | (with_reducible apply State.Within.step (State.breakChunk_within ..)) <;> try decide
    | (with_reducible apply State.Within.step (State.cancelNow_within ..)) <;> try decide
    | (with_reducible apply State.Within.step (State.faultGrammar_within ..)) <;> try decide
    | (with_reducible apply State.Within.step (State.loseEntry_within ..)) <;> try decide
    | (with_reducible apply State.Within.step (State.faultVersion_within ..)) <;> try decide
    | (with_reducible apply State.Within.step (State.loseRow_within ..)) <;> try decide
    | (with_reducible apply State.Within.foldl) <;> try intro _ _
    | with_reducible apply State.Within.ite
    | dsimp only
    | split

theorem State.loseMemo_within (off : Nat) (s : State) : s.Within [.img] (State.loseMemo off s) := by
  unfold State.loseMemo
  repeat' first
    | with_reducible apply State.Within.refl
    | (with_reducible apply State.Within.step (State.onImg_within ..)) <;> try decide
    | (with_reducible apply State.Within.foldl) <;> try intro _ _
    | with_reducible apply State.Within.ite
    | dsimp only
    | split

theorem State.loseWord_within (array : Nat) (word : Nat) (owner : MemOwner) (s : State) : s.Within [.out, .freeCtr, .aon, .start, .ing, .egr, .img, .str, .sch, .sto, .ber, .mem, .cas] (State.loseWord array word owner s) := by
  unfold State.loseWord
  repeat' first
    | with_reducible apply State.Within.refl
    | (with_reducible apply State.Within.step (State.retirePage_within ..)) <;> try decide
    | (with_reducible apply State.Within.step (State.loseSlot_within ..)) <;> try decide
    | (with_reducible apply State.Within.step (State.loseFrame_within ..)) <;> try decide
    | (with_reducible apply State.Within.step (State.loseMemo_within ..)) <;> try decide
    | (with_reducible apply State.Within.step (State.lockstep_within ..)) <;> try decide
    | (with_reducible apply State.Within.foldl) <;> try intro _ _
    | with_reducible apply State.Within.ite
    | dsimp only
    | split

theorem marchWork_within (p : Pkt) (s : State) : s.Within [.out, .freeCtr, .ing, .egr, .img, .str, .ber, .mem] (marchWork p s) := by
  unfold marchWork
  repeat' first
    | with_reducible apply State.Within.refl
    | (with_reducible apply State.Within.step (State.beginMarch_within ..)) <;> try decide
    | (with_reducible apply State.Within.step (State.refuse_within ..)) <;> try decide
    | (with_reducible apply State.Within.step (State.marchStatus_within ..)) <;> try decide
    | (with_reducible apply State.Within.foldl) <;> try intro _ _
    | with_reducible apply State.Within.ite
    | dsimp only
    | split

theorem State.clearRead_within (off : Nat) (l : Lanes) (s : State) : s.Within [.aon, .ing, .ber, .mem] (s.clearRead off l) := by
  have hz (h : Nat) (c : Bool) (hh : h < 2 ^ 16) : (if c then 0 else h) < 2 ^ 16 := by
    cases c with
    | false => exact hh
    | true => exact Nat.two_pow_pos 16
  unfold State.clearRead
  dsimp only
  refine .ite ?_ (.ite ?_ (.ite ?_ (.ite ?_ (.ite ?_ (.ite ?_ (.ite (.ite ?_ (.refl _ _)) (.ite (.ite ?_ (.refl _ _)) (.ite (.ite ?_ (.refl _ _))
    (.refl _ _)))))))))
  · exact .mono (State.onAon_within fun _ h => ⟨h.sensors, h.domains, h.counters, h.vset, h.thresh, h.causes⟩) (by decide)
  · exact .mono (State.onMem_within fun _ h => ⟨h.units, h.arrays, h.patrol, h.counts, h.bound⟩) (by decide)
  · refine .mono (State.onAon_within fun _ h => ⟨by simp [h.sensors], h.domains, fun x hx => ?_, h.vset, h.thresh, h.causes⟩) (by decide)
    rcases mem_modifyAt {} hx with hx | ⟨hn, rfl⟩
    · exact h.counters x hx
    · have := h.counters _ (getD_mem_of_lt hn {})
      exact ⟨hz _ _ this.1, hz _ _ this.2⟩
  · exact .mono (State.onAp_within fun _ h => ⟨hz _ _ h.1, hz _ _ h.2⟩) (by decide)
  · exact .mono (State.onMem_within fun _ h => ⟨by simp [h.units], h.arrays, h.patrol, h.counts, h.bound⟩) (by decide)
  · exact .mono (State.onMem_within fun _ h => ⟨h.units, by simp [h.arrays], h.patrol, h.counts, h.bound⟩) (by decide)
  · refine .mono (State.onMem_within fun _ h => ⟨h.units, h.arrays, h.patrol, by simp [h.counts], fun c hc => ?_⟩) (by decide)
    rcases mem_modifyAt 0 hc with hc | ⟨_, rfl⟩
    · exact h.bound c hc
    · decide
  · exact (State.onBer_within ..).mono (by decide)
  · exact (State.onBer_within ..).mono (by decide)

theorem State.readEntryHi_within (port : Bool) (s : State) : s.Within [.mem] (State.readEntryHi port s).2 := by
  unfold State.readEntryHi
  repeat' first
    | with_reducible apply State.Within.refl
    | (with_reducible apply State.Within.step (State.onMem_within ?_)) <;> try decide
    | exact fun _ h => ⟨h.units, h.arrays, h.patrol, h.counts, h.bound⟩
    | exact fun _ h => ⟨by simp [h.units], by simp [h.arrays], by simp [h.patrol], h.counts, h.bound⟩
    | (with_reducible apply State.Within.foldl) <;> try intro _ _
    | with_reducible apply State.Within.ite
    | dsimp only
    | split

theorem State.readEntryHi_of {port : Bool} {s : State} {r} (h : State.readEntryHi port s = r) : s.Within [.mem] r.2 := h ▸ State.readEntryHi_within port s

theorem State.readReg_within (port : Bool) (off : Nat) (l : Lanes) (s : State) :
    s.Within [.aon, .ing, .ber, .mem] (s.readReg port off l).2 := by
  have h1 : s.Within [.aon, .ing, .ber, .mem] (s.takeLatch port off).2 := (State.takeLatch_within ..).mono (by decide)
  unfold State.readReg
  split
  · exact (State.readEntryHi_within ..).mono (by decide)
  · exact .step (State.clearRead_within ..) (by decide) (.ite (.step (State.latchEntry_within ..) (by decide) h1)
      (.ite (.step (State.setLatch_within ..) (by decide) h1) h1))

theorem handoverWork_within (p : Pkt) (s : State) : s.Within [.out, .freeCtr, .ing, .egr, .str, .mem, .cas] (handoverWork p s) := by
  unfold handoverWork
  repeat' first
    | with_reducible apply State.Within.refl
    | (with_reducible apply State.Within.step (State.refuse_within ..)) <;> try decide
    | (with_reducible apply State.Within.step (State.onCas_within ..)) <;> try decide
    | (with_reducible apply State.Within.step (State.dropOwed_within ..)) <;> try decide
    | (with_reducible apply State.Within.step (State.done_within ..)) <;> try decide
    | (with_reducible apply State.Within.step (State.send_within ..)) <;> try decide
    | (with_reducible apply State.Within.foldl) <;> try intro _ _
    | with_reducible apply State.Within.ite
    | dsimp only
    | split

theorem grpQueryWork_within (p : Pkt) (s : State) : s.Within [.out, .freeCtr, .ing, .egr, .str, .mem] (grpQueryWork p s) := by
  unfold grpQueryWork
  repeat' first
    | with_reducible apply State.Within.refl
    | (with_reducible apply State.Within.step (State.refuse_within ..)) <;> try decide
    | (with_reducible apply State.Within.step (State.done_within ..)) <;> try decide
    | (with_reducible apply State.Within.foldl) <;> try intro _ _
    | with_reducible apply State.Within.ite
    | dsimp only
    | split

theorem State.takeFirmware_within (keys : List (Option (Nat × Nat))) (map : Bytes) (s : State) : s.Within [.out, .aon, .start, .sto] (State.takeFirmware keys map s) := by
  unfold State.takeFirmware
  repeat' first
    | with_reducible apply State.Within.refl
    | (with_reducible apply State.Within.step (State.ask_within ..)) <;> try decide
    | (with_reducible apply State.Within.step (State.onSto_within ..)) <;> try decide
    | (with_reducible apply State.Within.step (State.onStart_within ..)) <;> try decide
    | (with_reducible apply State.Within.step (State.raise_within ..)) <;> try decide
    | (with_reducible apply State.Within.step (State.atStep_within ..)) <;> try decide
    | (with_reducible apply State.Within.foldl) <;> try intro _ _
    | with_reducible apply State.Within.ite
    | dsimp only
    | split

theorem locateWork_within (p : Pkt) (s : State) : s.Within [.out, .freeCtr, .ing, .egr, .str, .mem, .cas] (locateWork p s) := by
  unfold locateWork
  repeat' first
    | with_reducible apply State.Within.refl
    | (with_reducible apply State.Within.step (State.refuse_within ..)) <;> try decide
    | (with_reducible apply State.Within.step (State.locateDone_within ..)) <;> try decide
    | (with_reducible apply State.Within.step (State.onCas_within ..)) <;> try decide
    | (with_reducible apply State.Within.step (State.send_within ..)) <;> try decide
    | (with_reducible apply State.Within.foldl) <;> try intro _ _
    | with_reducible apply State.Within.ite
    | dsimp only
    | split

theorem State.failMarch_within (st : Nat) (s : State) : s.Within [.out, .freeCtr, .ing, .egr, .str, .mem] (State.failMarch st s) := by
  unfold State.failMarch
  repeat' first
    | with_reducible apply State.Within.refl
    | (with_reducible apply State.Within.step (State.onMarch_within ..)) <;> try decide
    | (with_reducible apply State.Within.step (State.onMem_within ?_)) <;> try decide
    | exact fun _ h => ⟨h.units, h.arrays, h.patrol, h.counts, h.bound⟩
    | exact fun _ h => ⟨by simp [h.units], by simp [h.arrays], by simp [h.patrol], h.counts, h.bound⟩
    | (with_reducible apply State.Within.step (State.refuse_within ..)) <;> try decide
    | (with_reducible apply State.Within.foldl) <;> try intro _ _
    | with_reducible apply State.Within.ite
    | dsimp only
    | split

theorem unitsAtReset_length : unitsAtReset.length = 148 := by simp [unitsAtReset]

theorem allGood_length {α : Type} {l : List (Option α)} {r : List α} (h : allGood l = some r) : r.length = l.length := by
  induction l generalizing r with
  | nil =>
    simp only [allGood, List.mapM_nil] at h
    cases h
    rfl
  | cons x xs ih =>
    simp only [allGood, List.mapM_cons, id, Option.bind_eq_bind, Option.bind_eq_some_iff] at h
    obtain ⟨a, _, as, has, he⟩ := h
    cases he
    simp [ih has]

theorem parseHistory_units {b : Bytes} {w : Nat} {us : List FUnit} {ls : List Loc} (h : parseHistory b = some (w, us, ls)) :
    us.length = 148 := by
  unfold parseHistory at h
  dsimp only at h
  split at h
  · cases h
  · split at h
    · rename_i h1 _
      cases h
      simpa using allGood_length h1
    · cases h

theorem State.takeHistory_within (bytes : Bytes) (s : State) : s.Within [.out, .aon, .start, .sto, .ber, .mem] (s.takeHistory bytes) := by
  unfold State.takeHistory
  extract_lets r s0 s1 s2
  have h0 : s.Within [.out, .aon, .start, .sto, .ber, .mem] s0 :=
    .step (State.atStep_within ..) (by decide) (.step (State.onBer_within ..) (by decide)
      (.mono (State.onMem_within fun _ h => ⟨h.units, h.arrays, h.patrol, h.counts, h.bound⟩) (by decide)))
  have hu (us : List FUnit) (ls : List Loc) (w : Nat) (hl : us.length = 148) :
      s.Within [.out, .aon, .start, .sto, .ber, .mem] (s0.onMem (fun m => { m with units := us, locs := ls, workFaults := w })) :=
    .step (State.onMem_within fun _ h => ⟨hl, h.arrays, h.patrol, h.counts, h.bound⟩) (by decide) h0
  have h2 : s.Within [.out, .aon, .start, .sto, .ber, .mem] s1 := by
    unfold s1
    split
    · exact .step (State.raise_within (by decide) _) (by decide) (hu _ _ _ unitsAtReset_length)
    · rename_i hp
      exact .step (State.onBer_within ..) (by decide) (hu _ _ _ (parseHistory_units hp))
  have h3 : s.Within [.out, .aon, .start, .sto, .ber, .mem] s2 := .step (State.buildRepair_within ..) (by decide)
    (.step (State.noteSpares_within ..) (by decide) h2)
  exact .ite (.step (State.ask_within ..) (by decide) h3) (.step (State.ask_within ..) (by decide) (.step (State.atStep_within ..) (by decide)
    (.step (State.onSto_within ..) (by decide) (.step (State.mapBanks_within ..) (by decide) h3))))

theorem State.writeCam_within (off : Nat) (v : Nat) (s : State) : s.Within [.out, .aon, .egr, .img, .str, .sch, .sto, .ber, .mem] (State.writeCam off v s) := by
  unfold State.writeCam
  repeat' first
    | with_reducible apply State.Within.refl
    | (with_reducible apply State.Within.step (State.dbgReadRow_within ..)) <;> try decide
    | (with_reducible apply State.Within.step (State.onBer_within ..)) <;> try decide
    | (with_reducible apply State.Within.step (State.dbgSearch_within ..)) <;> try decide
    | (with_reducible apply State.Within.step (State.clearCorr_within ..)) <;> try decide
    | (with_reducible apply State.Within.foldl) <;> try intro _ _
    | with_reducible apply State.Within.ite
    | dsimp only
    | split

theorem State.reset_aon_ok : State.reset.aon.ok := by
  refine ⟨List.length_replicate .., ?_, fun x hx => ?_, ?_, ?_, ?_⟩
  · decide
  · rw [List.eq_of_mem_replicate (show x ∈ List.replicate 24 {} from hx)]
    decide
  all_goals decide

/-- Reset meets the invariant's parts, whatever the counters that a warm start keeps. -/
theorem State.lost_within (aonKept : Bool) (s : State) : s.Within [.out, .freeCtr, .aon, .start, .ing, .egr, .img, .str, .sch, .sto, .ber, .mem, .cas] (s.lost aonKept) := by
  refine ⟨fun p hp => by cases p <;> first | rfl | simp at hp, rfl, ⟨[], by simp [State.lost]⟩, Nat.le_refl _, fun i => ?_⟩
  have hs (l : List Sensor) (h : ∀ x ∈ l, x.half < 2 ^ 16 ∧ x.quarter < 2 ^ 16) :
      ∀ x ∈ l.map (fun x => { x with level := 0 }), x.half < 2 ^ 16 ∧ x.quarter < 2 ^ 16 := by
    intro x hx
    obtain ⟨y, hy, rfl⟩ := List.mem_map.mp hx
    exact h y hy
  refine ⟨?_, ⟨List.length_replicate .., ?_⟩, ⟨List.length_replicate .., ?_, ?_, Nat.zero_le _⟩,
    ⟨unitsAtReset_length, List.length_replicate .., List.length_replicate .., rfl, ?_⟩⟩
  · have h := State.reset_aon_ok
    cases aonKept with
    | false => exact h
    | true => exact ⟨by simp [State.lost, i.aon.sensors], h.domains, hs _ i.aon.counters, h.vset, h.thresh, i.aon.causes⟩
  · intro a ha
    rw [List.eq_of_mem_replicate (show a ∈ List.replicate 64 {} from ha)]
    decide
  · intro g hg _
    rw [List.eq_of_mem_replicate (show g ∈ List.replicate 64 {} from hg)]
  · show ((List.replicate 64 ({} : Ring)).filter (·.events)).length ≤ 1
    decide
  · intro c hc
    have : c ∈ [0, 0, 0, 0, 0, 0] := hc
    simp at this
    simp [this]

theorem State.writeReg_within (off v : Nat) (s : State) : s.Within [.out, .freeCtr, .aon, .start, .ing, .egr, .img, .str, .sch, .sto, .ber, .mem, .cas] (s.writeReg off v) := by
  unfold State.writeReg
  refine .ite (.refl _ _) (.ite ?_ (.ite ?_ (.ite ?_ (.ite (.ite ?_ ?_) (.ite ?_ (.ite ?_ (.ite ?_ (.ite ?_ (.ite ?_ (.refl _ _))))))))))
  · exact (State.clearCause_within ..).mono (by decide)
  · exact (State.writeMask_within ..).mono (by decide)
  · exact .mono (State.onAon_within fun _ h => ⟨h.sensors, h.domains, h.counters, h.vset, h.thresh, h.causes⟩) (by decide)
  · exact .step (State.onAon_within fun _ h => ⟨h.sensors, h.domains, h.counters, h.vset, h.thresh, h.causes⟩) (by decide)
      (State.lost_within ..)
  · exact (State.aonCtl_within ..).mono (by decide)
  · refine .mono (State.onAon_within fun _ h => ⟨h.sensors, h.domains, h.counters, h.vset, ?_, h.causes⟩) (by decide)
    dsimp only
    split
    · assumption
    · exact h.thresh
  · exact (State.writeMarch_within ..).mono (by decide)
  · exact .mono (State.onMem_within fun _ h => ⟨h.units, h.arrays, h.patrol, h.counts, h.bound⟩) (by decide)
  · exact (State.writeApCtl_within ..).mono (by decide)
  · exact (State.writeCam_within ..).mono (by decide)

theorem State.onCnt_within (array : Nat) (f : MemCnt → MemCnt) (s : State) : s.Within [.mem] (State.onCnt array f s) := by
  unfold State.onCnt
  repeat' first
    | with_reducible apply State.Within.refl
    | (with_reducible apply State.Within.step (State.onMem_within ?_)) <;> try decide
    | exact fun _ h => ⟨h.units, h.arrays, h.patrol, h.counts, h.bound⟩
    | exact fun _ h => ⟨by simp [h.units], by simp [h.arrays], by simp [h.patrol], h.counts, h.bound⟩
    | (with_reducible apply State.Within.foldl) <;> try intro _ _
    | with_reducible apply State.Within.ite
    | dsimp only
    | split

theorem State.scrubWord_within (array : Nat) (w : Nat) (found : ReadFound) (s : State) : s.Within [.out, .freeCtr, .aon, .start, .ing, .egr, .img, .str, .sch, .sto, .ber, .mem, .cas] (State.scrubWord array w found s) := by
  unfold State.scrubWord
  repeat' first
    | with_reducible apply State.Within.refl
    | (with_reducible apply State.Within.step (State.raise_within ..)) <;> try decide
    | (with_reducible apply State.Within.step (State.cellFails_within ..)) <;> try decide
    | (with_reducible apply State.Within.step (State.cellFails_of (by assumption))) <;> try decide
    | (with_reducible apply State.Within.step (State.onCnt_within ..)) <;> try decide
    | (with_reducible apply State.Within.step (State.loseWord_within ..)) <;> try decide
    | (with_reducible apply State.Within.foldl) <;> try intro _ _
    | with_reducible apply State.Within.ite
    | dsimp only
    | split

theorem State.admitMember_within (n : Nat) (s : State) : s.Within [.cas] (State.admitMember n s) := by
  unfold State.admitMember
  repeat' first
    | with_reducible apply State.Within.refl
    | (with_reducible apply State.Within.step (State.onCas_within ..)) <;> try decide
    | (with_reducible apply State.Within.foldl) <;> try intro _ _
    | with_reducible apply State.Within.ite
    | dsimp only
    | split

theorem State.access_within (off : Nat) (s : State) : s.Within [.out, .aon, .start, .ber, .mem, .cas] (State.access off s) := by
  unfold State.access
  repeat' first
    | with_reducible apply State.Within.refl
    | (with_reducible apply State.Within.step (State.wakeCause_within ..)) <;> try decide
    | (with_reducible apply State.Within.foldl) <;> try intro _ _
    | with_reducible apply State.Within.ite
    | dsimp only
    | split

theorem State.hostRead_within (port : Bool) (off : Nat) (size : Nat) (s : State) : s.Within [.out, .aon, .start, .ing, .ber, .mem, .cas] (State.hostRead port off size s) := by
  unfold State.hostRead
  repeat' first
    | with_reducible apply State.Within.refl
    | (with_reducible apply State.Within.step (State.readReg_within ..)) <;> try decide
    | (with_reducible apply State.Within.step (State.readReg_of (by assumption))) <;> try decide
    | (with_reducible apply State.Within.step (State.access_within ..)) <;> try decide
    | (with_reducible apply State.Within.step (State.emit_within ..)) <;> try decide
    | (with_reducible apply State.Within.foldl) <;> try intro _ _
    | with_reducible apply State.Within.ite
    | dsimp only
    | split

theorem State.beginTest_within (kind : Nat) (inst : Nat) (why : Nat) (s : State) : s.Within [.out, .egr, .str, .sch, .mem] (State.beginTest kind inst why s) := by
  unfold State.beginTest
  repeat' first
    | with_reducible apply State.Within.refl
    | (with_reducible apply State.Within.step (State.onUnit_within ..)) <;> try decide
    | (with_reducible apply State.Within.step (State.withdraw_within ..)) <;> try decide
    | (with_reducible apply State.Within.step (State.moveRows_within ..)) <;> try decide
    | (with_reducible apply State.Within.foldl) <;> try intro _ _
    | with_reducible apply State.Within.ite
    | dsimp only
    | split

theorem laneWork_within (p : Pkt) (s : State) : s.Within [.out, .freeCtr, .ing, .egr, .str, .sch, .mem] (laneWork p s) := by
  unfold laneWork
  repeat' first
    | with_reducible apply State.Within.refl
    | (with_reducible apply State.Within.step (State.onUnit_within ..)) <;> try decide
    | (with_reducible apply State.Within.step (State.refuse_within ..)) <;> try decide
    | (with_reducible apply State.Within.step (State.withdraw_within ..)) <;> try decide
    | (with_reducible apply State.Within.step (State.moveRows_within ..)) <;> try decide
    | (with_reducible apply State.Within.foldl) <;> try intro _ _
    | with_reducible apply State.Within.ite
    | dsimp only
    | split

end Sys2Proof.Machine
end

