-- ==== Sys2Proof/Laws/Meanings.lean ====
section
/-! SUPPORT. What each command's meaning can do to the state: the parts it changes, and that it keeps the invariant. -/
set_option linter.unusedTactic false
set_option linter.unreachableTactic false
set_option linter.unusedSimpArgs false
set_option linter.unusedVariables false
namespace Sys2Proof.Machine
open Sys2Proof
theorem Aon.ok_cause {a : Aon} (h : a.ok) {n : Nat} (hn : n < 19) : ({ a with cause := a.cause ||| BitVec.ofNat 32 (2 ^ n) } : Aon).ok := by
  refine ⟨h.sensors, h.domains, h.counters, h.vset, h.thresh, ?_⟩
  have hp : 2 ^ n < 2 ^ 19 := Nat.pow_lt_pow_right (by decide) hn
  simp only [BitVec.toNat_or, BitVec.toNat_ofNat]
  exact Nat.or_lt_two_pow h.causes (Nat.lt_of_le_of_lt (Nat.mod_le _ _) hp)

theorem Aon.ok_sensor {a : Aon} {f : Sensor → Sensor} (i : Nat) (h : a.ok)
    (hf : ∀ x : Sensor, (x.half < 2 ^ 16 ∧ x.quarter < 2 ^ 16) → (f x).half < 2 ^ 16 ∧ (f x).quarter < 2 ^ 16) :
    ({ a with sensors := modifyAt a.sensors i f } : Aon).ok := by
  refine ⟨by simp [h.sensors], h.domains, fun y hy => ?_, h.vset, h.thresh, h.causes⟩
  rcases mem_modifyAt {} hy with hy | ⟨hl, rfl⟩
  · exact h.counters y hy
  · exact hf _ (h.counters _ (getD_mem_of_lt hl _))

theorem execApertureWrite_within (dt : Nat) (port : Bool) (offset : Nat) (data : List Dword) (s : State) {t : State} (h : execApertureWrite dt port offset data s = .next t) : s.Within [.out, .aon, .start, .ing, .egr, .str, .ber, .mem, .cas] t := by
  unfold execApertureWrite at h
  try dsimp only at h
  repeat' split at h
  all_goals cases h
  all_goals repeat' first
    | with_reducible apply State.Within.refl
    | (with_reducible apply State.Within.step (State.elapse_within ..)) <;> try decide
    | (with_reducible apply State.Within.step (State.writeRegion_within ..)) <;> try decide
    | (with_reducible apply State.Within.step (State.wakeCause_within ..)) <;> try decide
    | (with_reducible apply State.Within.foldl) <;> try intro _ _
    | with_reducible apply State.Within.ite
    | dsimp only
    | split

theorem execApertureRead_within (dt : Nat) (port : Bool) (offset : Nat) (size : Nat) (s : State) {t : State} (h : execApertureRead dt port offset size s = .next t) : s.Within [.out, .aon, .ing] t := by
  unfold execApertureRead at h
  try dsimp only at h
  repeat' split at h
  all_goals cases h
  all_goals repeat' first
    | with_reducible apply State.Within.refl
    | (with_reducible apply State.Within.step (State.elapse_within ..)) <;> try decide
    | (with_reducible apply State.Within.step (State.onAp_within ?_)) <;> try decide
    | exact fun _ h => h
    | exact fun _ h => ⟨satInc_lt .., h.2⟩
    | exact fun _ h => ⟨h.1, satInc_lt ..⟩
    | (with_reducible apply State.Within.step (State.emit_within ..)) <;> try decide
    | (with_reducible apply State.Within.foldl) <;> try intro _ _
    | with_reducible apply State.Within.ite
    | dsimp only
    | split

theorem execPacketConsume_within (dt : Nat) (ap : Nat) (s : State) {t : State} (h : execPacketConsume dt ap s = .next t) : s.Within [.out, .freeCtr, .aon, .ing, .egr, .str, .mem] t := by
  unfold execPacketConsume at h
  try dsimp only at h
  repeat' split at h
  all_goals cases h
  all_goals repeat' first
    | with_reducible apply State.Within.refl
    | (with_reducible apply State.Within.step (State.elapse_within ..)) <;> try decide
    | (with_reducible apply State.Within.step (State.consume_within ..)) <;> try decide
    | (with_reducible apply State.Within.foldl) <;> try intro _ _
    | with_reducible apply State.Within.ite
    | dsimp only
    | split

theorem execCreditWordTimer_within (dt : Nat) (ap : Nat) (s : State) {t : State} (h : execCreditWordTimer dt ap s = .next t) : s.Within [.out, .aon, .ing] t := by
  unfold execCreditWordTimer at h
  try dsimp only at h
  repeat' split at h
  all_goals cases h
  all_goals repeat' first
    | with_reducible apply State.Within.refl
    | (with_reducible apply State.Within.step (State.elapse_within ..)) <;> try decide
    | (with_reducible apply State.Within.step (State.writeCredit_within ..)) <;> try decide
    | (with_reducible apply State.Within.foldl) <;> try intro _ _
    | with_reducible apply State.Within.ite
    | dsimp only
    | split

theorem execSysHello_within (dt : Nat) (ap : Nat) (pos : Nat) (s : State) {t : State} (h : execSysHello dt ap pos s = .next t) : s.Within [.out, .freeCtr, .aon, .ing, .egr, .str, .mem] t := by
  unfold execSysHello at h
  try dsimp only at h
  repeat' split at h
  all_goals cases h
  all_goals repeat' first
    | with_reducible apply State.Within.refl
    | (with_reducible apply State.Within.step (State.elapse_within ..)) <;> try decide
    | (with_reducible apply State.Within.step (helloWork_within ..)) <;> try decide
    | (with_reducible apply State.Within.step (State.runPacket_within (D := [.out, .freeCtr, .aon, .ing, .egr, .str, .mem]) (by decide) ?_  ..)) <;> try decide
    | intro _
    | (with_reducible apply State.Within.foldl) <;> try intro _ _
    | with_reducible apply State.Within.ite
    | dsimp only
    | split

theorem execSysHelloApertureReset_within (dt : Nat) (ap : Nat) (pos : Nat) (s : State) {t : State} (h : execSysHelloApertureReset dt ap pos s = .next t) : s.Within [.out, .freeCtr, .aon, .ing, .egr, .str, .mem] t := by
  unfold execSysHelloApertureReset at h
  try dsimp only at h
  repeat' split at h
  all_goals cases h
  all_goals repeat' first
    | with_reducible apply State.Within.refl
    | (with_reducible apply State.Within.step (State.elapse_within ..)) <;> try decide
    | (with_reducible apply State.Within.step (helloResetWork_within ..)) <;> try decide
    | (with_reducible apply State.Within.step (State.runPacket_within (D := [.out, .freeCtr, .aon, .ing, .egr, .str, .mem]) (by decide) ?_  ..)) <;> try decide
    | intro _
    | (with_reducible apply State.Within.foldl) <;> try intro _ _
    | with_reducible apply State.Within.ite
    | dsimp only
    | split

theorem execSysRingEnable_within (dt : Nat) (ap : Nat) (pos : Nat) (s : State) {t : State} (h : execSysRingEnable dt ap pos s = .next t) : s.Within [.out, .freeCtr, .aon, .ing, .egr, .str, .mem] t := by
  unfold execSysRingEnable at h
  try dsimp only at h
  repeat' split at h
  all_goals cases h
  all_goals repeat' first
    | with_reducible apply State.Within.refl
    | (with_reducible apply State.Within.step (State.elapse_within ..)) <;> try decide
    | (with_reducible apply State.Within.step (ringEnableWork_within ..)) <;> try decide
    | (with_reducible apply State.Within.step (State.runPacket_within (D := [.out, .freeCtr, .aon, .ing, .egr, .str, .mem]) (by decide) ?_  ..)) <;> try decide
    | intro _
    | (with_reducible apply State.Within.foldl) <;> try intro _ _
    | with_reducible apply State.Within.ite
    | dsimp only
    | split

theorem execSysRingDisable_within (dt : Nat) (ap : Nat) (pos : Nat) (s : State) {t : State} (h : execSysRingDisable dt ap pos s = .next t) : s.Within [.out, .freeCtr, .aon, .ing, .egr, .str, .mem] t := by
  unfold execSysRingDisable at h
  try dsimp only at h
  repeat' split at h
  all_goals cases h
  all_goals repeat' first
    | with_reducible apply State.Within.refl
    | (with_reducible apply State.Within.step (State.elapse_within ..)) <;> try decide
    | (with_reducible apply State.Within.step (ringDisableWork_within ..)) <;> try decide
    | (with_reducible apply State.Within.step (State.runPacket_within (D := [.out, .freeCtr, .aon, .ing, .egr, .str, .mem]) (by decide) ?_  ..)) <;> try decide
    | intro _
    | (with_reducible apply State.Within.foldl) <;> try intro _ _
    | with_reducible apply State.Within.ite
    | dsimp only
    | split

theorem execSysTime_within (dt : Nat) (ap : Nat) (pos : Nat) (s : State) {t : State} (h : execSysTime dt ap pos s = .next t) : s.Within [.out, .freeCtr, .aon, .ing, .egr, .str, .mem] t := by
  unfold execSysTime at h
  try dsimp only at h
  repeat' split at h
  all_goals cases h
  all_goals repeat' first
    | with_reducible apply State.Within.refl
    | (with_reducible apply State.Within.step (State.elapse_within ..)) <;> try decide
    | (with_reducible apply State.Within.step (timeWork_within ..)) <;> try decide
    | (with_reducible apply State.Within.step (State.runPacket_within (D := [.out, .freeCtr, .aon, .ing, .egr, .str, .mem]) (by decide) ?_  ..)) <;> try decide
    | intro _
    | (with_reducible apply State.Within.foldl) <;> try intro _ _
    | with_reducible apply State.Within.ite
    | dsimp only
    | split

theorem execImgLoad_within (dt : Nat) (ap : Nat) (pos : Nat) (s : State) {t : State} (h : execImgLoad dt ap pos s = .next t) : s.Within [.out, .freeCtr, .aon, .ing, .egr, .img, .str, .mem] t := by
  unfold execImgLoad at h
  try dsimp only at h
  repeat' split at h
  all_goals cases h
  all_goals repeat' first
    | with_reducible apply State.Within.refl
    | (with_reducible apply State.Within.step (imgLoadWork_within ..)) <;> try decide
    | (with_reducible apply State.Within.step (State.elapse_within ..)) <;> try decide
    | (with_reducible apply State.Within.step (State.runPacket_within (D := [.out, .freeCtr, .aon, .ing, .egr, .img, .str, .mem]) (by decide) ?_  ..)) <;> try decide
    | intro _
    | (with_reducible apply State.Within.foldl) <;> try intro _ _
    | with_reducible apply State.Within.ite
    | dsimp only
    | split

theorem execImageStaged_within (dt : Nat) (slot : Nat) (s : State) {t : State} (h : execImageStaged dt slot s = .next t) : s.Within [.out, .freeCtr, .aon, .ing, .egr, .img, .str, .sch, .sto, .ber, .mem] t := by
  unfold execImageStaged at h
  try dsimp only at h
  repeat' split at h
  all_goals cases h
  all_goals repeat' first
    | with_reducible apply State.Within.refl
    | (with_reducible apply State.Within.step (State.enterSlot_within (by assumption))) <;> try decide
    | (with_reducible apply State.Within.step (State.elapse_within ..)) <;> try decide
    | (with_reducible apply State.Within.step (State.emptySlot_within ..)) <;> try decide
    | (with_reducible apply State.Within.step (State.settleBeryl_within ..)) <;> try decide
    | (with_reducible apply State.Within.step (State.refuse_within ..)) <;> try decide
    | (with_reducible apply State.Within.step (State.setSlot_within ..)) <;> try decide
    | (with_reducible apply State.Within.step (State.done_within ..)) <;> try decide
    | (with_reducible apply State.Within.foldl) <;> try intro _ _
    | with_reducible apply State.Within.ite
    | dsimp only
    | split

theorem execImgCommit_within (dt : Nat) (ap : Nat) (pos : Nat) (s : State) {t : State} (h : execImgCommit dt ap pos s = .next t) : s.Within [.out, .freeCtr, .aon, .ing, .egr, .img, .str, .mem] t := by
  unfold execImgCommit at h
  try dsimp only at h
  repeat' split at h
  all_goals cases h
  all_goals repeat' first
    | with_reducible apply State.Within.refl
    | (with_reducible apply State.Within.step (State.elapse_within ..)) <;> try decide
    | (with_reducible apply State.Within.step (imgCommitWork_within ..)) <;> try decide
    | (with_reducible apply State.Within.step (State.runPacket_within (D := [.out, .freeCtr, .aon, .ing, .egr, .img, .str, .mem]) (by decide) ?_  ..)) <;> try decide
    | intro _
    | (with_reducible apply State.Within.foldl) <;> try intro _ _
    | with_reducible apply State.Within.ite
    | dsimp only
    | split

theorem execCommitTakesEffect_within (dt : Nat) (s : State) {t : State} (h : execCommitTakesEffect dt s = .next t) : s.Within [.out, .freeCtr, .aon, .ing, .egr, .img, .str, .ber, .mem] t := by
  unfold execCommitTakesEffect at h
  try dsimp only at h
  repeat' split at h
  all_goals cases h
  all_goals repeat' first
    | with_reducible apply State.Within.refl
    | (with_reducible apply State.Within.step (State.elapse_within ..)) <;> try decide
    | (with_reducible apply State.Within.step (State.applyCommits_within ..)) <;> try decide
    | (with_reducible apply State.Within.foldl) <;> try intro _ _
    | with_reducible apply State.Within.ite
    | dsimp only
    | split

theorem execImgDropSlot_within (dt : Nat) (ap : Nat) (pos : Nat) (s : State) {t : State} (h : execImgDropSlot dt ap pos s = .next t) : s.Within [.out, .freeCtr, .aon, .ing, .egr, .img, .str, .ber, .mem] t := by
  unfold execImgDropSlot at h
  try dsimp only at h
  repeat' split at h
  all_goals cases h
  all_goals repeat' first
    | with_reducible apply State.Within.refl
    | (with_reducible apply State.Within.step (State.elapse_within ..)) <;> try decide
    | (with_reducible apply State.Within.step (dropSlotWork_within ..)) <;> try decide
    | (with_reducible apply State.Within.step (State.runPacket_within (D := [.out, .freeCtr, .aon, .ing, .egr, .img, .str, .ber, .mem]) (by decide) ?_  ..)) <;> try decide
    | intro _
    | (with_reducible apply State.Within.foldl) <;> try intro _ _
    | with_reducible apply State.Within.ite
    | dsimp only
    | split

theorem execImgDropGrammar_within (dt : Nat) (ap : Nat) (pos : Nat) (s : State) {t : State} (h : execImgDropGrammar dt ap pos s = .next t) : s.Within [.out, .freeCtr, .aon, .ing, .egr, .img, .str, .mem] t := by
  unfold execImgDropGrammar at h
  try dsimp only at h
  repeat' split at h
  all_goals cases h
  all_goals repeat' first
    | with_reducible apply State.Within.refl
    | (with_reducible apply State.Within.step (State.elapse_within ..)) <;> try decide
    | (with_reducible apply State.Within.step (dropGrammarWork_within ..)) <;> try decide
    | (with_reducible apply State.Within.step (State.runPacket_within (D := [.out, .freeCtr, .aon, .ing, .egr, .img, .str, .mem]) (by decide) ?_  ..)) <;> try decide
    | intro _
    | (with_reducible apply State.Within.foldl) <;> try intro _ _
    | with_reducible apply State.Within.ite
    | dsimp only
    | split

theorem execImgQuery_within (dt : Nat) (ap : Nat) (pos : Nat) (s : State) {t : State} (h : execImgQuery dt ap pos s = .next t) : s.Within [.out, .freeCtr, .aon, .ing, .egr, .str, .mem] t := by
  unfold execImgQuery at h
  try dsimp only at h
  repeat' split at h
  all_goals cases h
  all_goals repeat' first
    | with_reducible apply State.Within.refl
    | (with_reducible apply State.Within.step (State.elapse_within ..)) <;> try decide
    | (with_reducible apply State.Within.step (State.runPacket_within (D := [.out, .freeCtr, .aon, .ing, .egr, .str, .mem]) (by decide) ?_  ..)) <;> try decide
    | intro _
    | (with_reducible apply State.Within.step (imgQueryWork_within ..)) <;> try decide
    | (with_reducible apply State.Within.foldl) <;> try intro _ _
    | with_reducible apply State.Within.ite
    | dsimp only
    | split

theorem execStrOpen_within (dt : Nat) (ap : Nat) (pos : Nat) (s : State) {t : State} (h : execStrOpen dt ap pos s = .next t) : s.Within [.out, .freeCtr, .aon, .ing, .egr, .img, .str, .sch, .sto, .ber, .mem, .cas] t := by
  unfold execStrOpen at h
  try dsimp only at h
  repeat' split at h
  all_goals cases h
  all_goals repeat' first
    | with_reducible apply State.Within.refl
    | (with_reducible apply State.Within.step (State.elapse_within ..)) <;> try decide
    | (with_reducible apply State.Within.step (State.runBeryl_within (D := [.out, .freeCtr, .aon, .ing, .egr, .img, .str, .sch, .sto, .ber, .mem, .cas]) (by decide) ?_  ..)) <;> try decide
    | intro _
    | (with_reducible apply State.Within.step (State.openWith_within ..)) <;> try decide
    | (with_reducible apply State.Within.foldl) <;> try intro _ _
    | with_reducible apply State.Within.ite
    | dsimp only
    | split

theorem execStrClose_within (dt : Nat) (ap : Nat) (pkt : StreamPkt) (s : State) {t : State} (h : execStrClose dt ap pkt s = .next t) : s.Within [.out, .freeCtr, .aon, .ing, .egr, .str, .sch, .sto, .ber, .mem, .cas] t := by
  unfold execStrClose at h
  try dsimp only at h
  repeat' split at h
  all_goals cases h
  all_goals repeat' first
    | with_reducible apply State.Within.refl
    | (with_reducible apply State.Within.step (closeWork_within ..)) <;> try decide
    | (with_reducible apply State.Within.step (State.elapse_within ..)) <;> try decide
    | (with_reducible apply State.Within.step (State.runPacket_within (D := [.out, .freeCtr, .aon, .ing, .egr, .str, .sch, .sto, .ber, .mem, .cas]) (by decide) ?_  ..)) <;> try decide
    | intro _
    | (with_reducible apply State.Within.foldl) <;> try intro _ _
    | with_reducible apply State.Within.ite
    | dsimp only
    | split

theorem execStrCancel_within (dt : Nat) (ap : Nat) (pkt : StreamPkt) (s : State) {t : State} (h : execStrCancel dt ap pkt s = .next t) : s.Within [.out, .freeCtr, .aon, .ing, .egr, .str, .sch, .sto, .ber, .mem, .cas] t := by
  unfold execStrCancel at h
  try dsimp only at h
  repeat' split at h
  all_goals cases h
  all_goals repeat' first
    | with_reducible apply State.Within.refl
    | (with_reducible apply State.Within.step (closeWork_within ..)) <;> try decide
    | (with_reducible apply State.Within.step (State.elapse_within ..)) <;> try decide
    | (with_reducible apply State.Within.step (State.runPacket_within (D := [.out, .freeCtr, .aon, .ing, .egr, .str, .sch, .sto, .ber, .mem, .cas]) (by decide) ?_  ..)) <;> try decide
    | intro _
    | (with_reducible apply State.Within.foldl) <;> try intro _ _
    | with_reducible apply State.Within.ite
    | dsimp only
    | split

theorem execStreamRelease_within (dt : Nat) (slot : Nat) (s : State) {t : State} (h : execStreamRelease dt slot s = .next t) : s.Within [.out, .aon, .egr, .img, .str, .sch, .sto, .ber, .mem] t := by
  unfold execStreamRelease at h
  try dsimp only at h
  repeat' split at h
  all_goals cases h
  all_goals repeat' first
    | with_reducible apply State.Within.refl
    | (with_reducible apply State.Within.step (State.elapse_within ..)) <;> try decide
    | (with_reducible apply State.Within.step (State.releaseStream_within ..)) <;> try decide
    | (with_reducible apply State.Within.foldl) <;> try intro _ _
    | with_reducible apply State.Within.ite
    | dsimp only
    | split

theorem execQuarantineEnd_within (dt : Nat) (slot : Nat) (s : State) {t : State} (h : execQuarantineEnd dt slot s = .next t) : s.Within [.aon, .str] t := by
  unfold execQuarantineEnd at h
  try dsimp only at h
  repeat' split at h
  all_goals cases h
  all_goals repeat' first
    | with_reducible apply State.Within.refl
    | (with_reducible apply State.Within.step (State.elapse_within ..)) <;> try decide
    | (with_reducible apply State.Within.step (State.onStr_within ..)) <;> try decide
    | (with_reducible apply State.Within.foldl) <;> try intro _ _
    | with_reducible apply State.Within.ite
    | dsimp only
    | split

theorem execStrPause_within (dt : Nat) (ap : Nat) (pkt : PausePkt) (s : State) {t : State} (h : execStrPause dt ap pkt s = .next t) : s.Within [.out, .freeCtr, .aon, .ing, .egr, .str, .mem] t := by
  unfold execStrPause at h
  try dsimp only at h
  repeat' split at h
  all_goals cases h
  all_goals repeat' first
    | with_reducible apply State.Within.refl
    | (with_reducible apply State.Within.step (State.elapse_within ..)) <;> try decide
    | (with_reducible apply State.Within.step (pauseWork_within ..)) <;> try decide
    | (with_reducible apply State.Within.step (State.runPacket_within (D := [.out, .freeCtr, .aon, .ing, .egr, .str, .mem]) (by decide) ?_  ..)) <;> try decide
    | intro _
    | (with_reducible apply State.Within.foldl) <;> try intro _ _
    | with_reducible apply State.Within.ite
    | dsimp only
    | split

theorem execPauseTakesEffect_within (dt : Nat) (slot : Nat) (s : State) {t : State} (h : execPauseTakesEffect dt slot s = .next t) : s.Within [.out, .aon, .str, .sch, .sto] t := by
  unfold execPauseTakesEffect at h
  try dsimp only at h
  repeat' split at h
  all_goals cases h
  all_goals repeat' first
    | with_reducible apply State.Within.refl
    | (with_reducible apply State.Within.step (State.elapse_within ..)) <;> try decide
    | (with_reducible apply State.Within.step (State.takePause_within ..)) <;> try decide
    | (with_reducible apply State.Within.foldl) <;> try intro _ _
    | with_reducible apply State.Within.ite
    | dsimp only
    | split

theorem execPauseExpired_within (dt : Nat) (slot : Nat) (s : State) {t : State} (h : execPauseExpired dt slot s = .next t) : s.Within [.out, .freeCtr, .aon, .ing, .egr, .str, .sch, .sto, .ber, .mem, .cas] t := by
  unfold execPauseExpired at h
  try dsimp only at h
  repeat' split at h
  all_goals cases h
  all_goals repeat' first
    | with_reducible apply State.Within.refl
    | (with_reducible apply State.Within.step (State.elapse_within ..)) <;> try decide
    | (with_reducible apply State.Within.step (State.closeStream_within ..)) <;> try decide
    | (with_reducible apply State.Within.step (State.eventFull_within ..)) <;> try decide
    | (with_reducible apply State.Within.foldl) <;> try intro _ _
    | with_reducible apply State.Within.ite
    | dsimp only
    | split

theorem execStrResume_within (dt : Nat) (ap : Nat) (pos : Nat) (s : State) {t : State} (h : execStrResume dt ap pos s = .next t) : s.Within [.out, .freeCtr, .aon, .ing, .egr, .str, .sch, .sto, .ber, .mem] t := by
  unfold execStrResume at h
  try dsimp only at h
  repeat' split at h
  all_goals cases h
  all_goals repeat' first
    | with_reducible apply State.Within.refl
    | (with_reducible apply State.Within.step (State.elapse_within ..)) <;> try decide
    | (with_reducible apply State.Within.step (resumeWork_within ..)) <;> try decide
    | (with_reducible apply State.Within.step (State.runPacket_within (D := [.out, .freeCtr, .aon, .ing, .egr, .str, .sch, .sto, .ber, .mem]) (by decide) ?_  ..)) <;> try decide
    | intro _
    | (with_reducible apply State.Within.foldl) <;> try intro _ _
    | with_reducible apply State.Within.ite
    | dsimp only
    | split

theorem execStrPin_within (dt : Nat) (ap : Nat) (pkt : StreamPkt) (s : State) {t : State} (h : execStrPin dt ap pkt s = .next t) : s.Within [.out, .freeCtr, .aon, .ing, .egr, .str, .mem] t := by
  unfold execStrPin at h
  try dsimp only at h
  repeat' split at h
  all_goals cases h
  all_goals repeat' first
    | with_reducible apply State.Within.refl
    | (with_reducible apply State.Within.step (State.elapse_within ..)) <;> try decide
    | (with_reducible apply State.Within.step (pinWork_within ..)) <;> try decide
    | (with_reducible apply State.Within.step (State.runPacket_within (D := [.out, .freeCtr, .aon, .ing, .egr, .str, .mem]) (by decide) ?_  ..)) <;> try decide
    | intro _
    | (with_reducible apply State.Within.foldl) <;> try intro _ _
    | with_reducible apply State.Within.ite
    | dsimp only
    | split

theorem execStrMigrate_within (dt : Nat) (ap : Nat) (pkt : StreamPkt) (s : State) {t : State} (h : execStrMigrate dt ap pkt s = .next t) : s.Within [.out, .freeCtr, .aon, .ing, .egr, .str, .mem] t := by
  unfold execStrMigrate at h
  try dsimp only at h
  repeat' split at h
  all_goals cases h
  all_goals repeat' first
    | with_reducible apply State.Within.refl
    | (with_reducible apply State.Within.step (migrateWork_within ..)) <;> try decide
    | (with_reducible apply State.Within.step (State.elapse_within ..)) <;> try decide
    | (with_reducible apply State.Within.step (State.runPacket_within (D := [.out, .freeCtr, .aon, .ing, .egr, .str, .mem]) (by decide) ?_  ..)) <;> try decide
    | intro _
    | (with_reducible apply State.Within.foldl) <;> try intro _ _
    | with_reducible apply State.Within.ite
    | dsimp only
    | split

theorem execMigrationSend_within (dt : Nat) (slot : Nat) (s : State) {t : State} (h : execMigrationSend dt slot s = .next t) : s.Within [.out, .aon, .str, .sto] t := by
  unfold execMigrationSend at h
  try dsimp only at h
  repeat' split at h
  all_goals cases h
  all_goals repeat' first
    | with_reducible apply State.Within.refl
    | (with_reducible apply State.Within.step (State.elapse_within ..)) <;> try decide
    | (with_reducible apply State.Within.step (State.sendPackage_within ..)) <;> try decide
    | (with_reducible apply State.Within.foldl) <;> try intro _ _
    | with_reducible apply State.Within.ite
    | dsimp only
    | split

theorem execMigrationAnswer_within (dt : Nat) (slot : Nat) (answer : MigAnswer) (s : State) {t : State} (h : execMigrationAnswer dt slot answer s = .next t) : s.Within [.out, .freeCtr, .aon, .ing, .egr, .img, .str, .sch, .sto, .ber, .mem, .cas] t := by
  unfold execMigrationAnswer at h
  try dsimp only at h
  repeat' split at h
  all_goals cases h
  all_goals repeat' first
    | with_reducible apply State.Within.refl
    | (with_reducible apply State.Within.step (State.elapse_within ..)) <;> try decide
    | (with_reducible apply State.Within.step (State.migRefused_within ..)) <;> try decide
    | (with_reducible apply State.Within.step (State.migAccepted_within ..)) <;> try decide
    | (with_reducible apply State.Within.step (State.rescueAnswer_within ..)) <;> try decide
    | (with_reducible apply State.Within.foldl) <;> try intro _ _
    | with_reducible apply State.Within.ite
    | dsimp only
    | split

theorem execEncText_within (dt : Nat) (ap : Nat) (pos : Nat) (s : State) {t : State} (h : execEncText dt ap pos s = .next t) : s.Within [.out, .freeCtr, .aon, .ing, .egr, .str, .mem] t := by
  unfold execEncText at h
  try dsimp only at h
  repeat' split at h
  all_goals cases h
  all_goals repeat' first
    | with_reducible apply State.Within.refl
    | (with_reducible apply State.Within.step (State.elapse_within ..)) <;> try decide
    | (with_reducible apply State.Within.step (encTextWork_within ..)) <;> try decide
    | (with_reducible apply State.Within.step (State.runPacket_within (D := [.out, .freeCtr, .aon, .ing, .egr, .str, .mem]) (by decide) ?_  ..)) <;> try decide
    | intro _
    | (with_reducible apply State.Within.foldl) <;> try intro _ _
    | with_reducible apply State.Within.ite
    | dsimp only
    | split

theorem execEncRaw_within (dt : Nat) (ap : Nat) (pos : Nat) (s : State) {t : State} (h : execEncRaw dt ap pos s = .next t) : s.Within [.out, .freeCtr, .aon, .ing, .egr, .str, .mem] t := by
  unfold execEncRaw at h
  try dsimp only at h
  repeat' split at h
  all_goals cases h
  all_goals repeat' first
    | with_reducible apply State.Within.refl
    | (with_reducible apply State.Within.step (State.elapse_within ..)) <;> try decide
    | (with_reducible apply State.Within.step (encRawWork_within ..)) <;> try decide
    | (with_reducible apply State.Within.step (State.runPacket_within (D := [.out, .freeCtr, .aon, .ing, .egr, .str, .mem]) (by decide) ?_  ..)) <;> try decide
    | intro _
    | (with_reducible apply State.Within.foldl) <;> try intro _ _
    | with_reducible apply State.Within.ite
    | dsimp only
    | split

theorem execSegmentDone_within (dt : Nat) (ap : Nat) (seg : SegmentEnd) (s : State) {t : State} (h : execSegmentDone dt ap seg s = .next t) : s.Within [.out, .freeCtr, .aon, .ing, .egr, .img, .str, .ber, .mem] t := by
  unfold execSegmentDone at h
  try dsimp only at h
  repeat' split at h
  all_goals cases h
  all_goals repeat' first
    | with_reducible apply State.Within.refl
    | (with_reducible apply State.Within.step (State.segmentPart_within ..)) <;> try decide
    | (with_reducible apply State.Within.step (State.beginSegment_within ..)) <;> try decide
    | (with_reducible apply State.Within.step (State.segmentLast_within ..)) <;> try decide
    | (with_reducible apply State.Within.step (State.elapse_within ..)) <;> try decide
    | (with_reducible apply State.Within.step (State.countLane_within ..)) <;> try decide
    | (with_reducible apply State.Within.foldl) <;> try intro _ _
    | with_reducible apply State.Within.ite
    | dsimp only
    | split

theorem execTransomPieceDone_within (dt : Nat) (ap : Nat) (pos : Nat) (s : State) {t : State} (h : execTransomPieceDone dt ap pos s = .next t) : s.Within [.aon, .ing] t := by
  unfold execTransomPieceDone at h
  try dsimp only at h
  repeat' split at h
  all_goals cases h
  all_goals repeat' first
    | with_reducible apply State.Within.refl
    | (with_reducible apply State.Within.step (State.onWork_within ..)) <;> try decide
    | (with_reducible apply State.Within.step (State.elapse_within ..)) <;> try decide
    | (with_reducible apply State.Within.foldl) <;> try intro _ _
    | with_reducible apply State.Within.ite
    | dsimp only
    | split

theorem execDecTok_within (dt : Nat) (ap : Nat) (pos : Nat) (s : State) {t : State} (h : execDecTok dt ap pos s = .next t) : s.Within [.out, .freeCtr, .aon, .ing, .egr, .str, .mem] t := by
  unfold execDecTok at h
  try dsimp only at h
  repeat' split at h
  all_goals cases h
  all_goals repeat' first
    | with_reducible apply State.Within.refl
    | (with_reducible apply State.Within.step (decTokWork_within ..)) <;> try decide
    | (with_reducible apply State.Within.step (State.elapse_within ..)) <;> try decide
    | (with_reducible apply State.Within.step (State.runPacket_within (D := [.out, .freeCtr, .aon, .ing, .egr, .str, .mem]) (by decide) ?_  ..)) <;> try decide
    | intro _
    | (with_reducible apply State.Within.foldl) <;> try intro _ _
    | with_reducible apply State.Within.ite
    | dsimp only
    | split

theorem execTokChoose_within (dt : Nat) (ap : Nat) (pos : Nat) (s : State) {t : State} (h : execTokChoose dt ap pos s = .next t) : s.Within [.out, .freeCtr, .aon, .ing, .egr, .img, .str, .mem] t := by
  unfold execTokChoose at h
  try dsimp only at h
  repeat' split at h
  all_goals cases h
  all_goals repeat' first
    | with_reducible apply State.Within.refl
    | (with_reducible apply State.Within.step (State.elapse_within ..)) <;> try decide
    | (with_reducible apply State.Within.step (State.runPacket_within (D := [.out, .freeCtr, .aon, .ing, .egr, .img, .str, .mem]) (by decide) ?_  ..)) <;> try decide
    | intro _
    | (with_reducible apply State.Within.step (tokChooseWork_within ..)) <;> try decide
    | (with_reducible apply State.Within.foldl) <;> try intro _ _
    | with_reducible apply State.Within.ite
    | dsimp only
    | split

theorem execChoiceGrant_within (dt : Nat) (slot : Nat) (s : State) {t : State} (h : execChoiceGrant dt slot s = .next t) : s.Within [.out, .aon, .img, .str, .sto, .cas] t := by
  unfold execChoiceGrant at h
  try dsimp only at h
  repeat' split at h
  all_goals cases h
  all_goals repeat' first
    | with_reducible apply State.Within.refl
    | (with_reducible apply State.Within.step (State.grantOrWait_within (D := [.out, .aon, .img, .str, .sto, .cas]) (by decide) ?_  ..)) <;> try decide
    | intro _
    | (with_reducible apply State.Within.step (State.elapse_within ..)) <;> try decide
    | (with_reducible apply State.Within.step (State.grantTrees_within ..)) <;> try decide
    | (with_reducible apply State.Within.step (State.commitHeld_within ..)) <;> try decide
    | (with_reducible apply State.Within.foldl) <;> try intro _ _
    | with_reducible apply State.Within.ite
    | dsimp only
    | split

theorem execCommitDecodeDone_within (dt : Nat) (slot : Nat) (s : State) {t : State} (h : execCommitDecodeDone dt slot s = .next t) : s.Within [.out, .freeCtr, .aon, .ing, .egr, .str, .sch, .sto, .ber, .mem] t := by
  unfold execCommitDecodeDone at h
  try dsimp only at h
  repeat' split at h
  all_goals cases h
  all_goals repeat' first
    | with_reducible apply State.Within.refl
    | (with_reducible apply State.Within.step (State.sliceCommit_within ..)) <;> try decide
    | (with_reducible apply State.Within.step (State.elapse_within ..)) <;> try decide
    | (with_reducible apply State.Within.step (State.stage9_within ..)) <;> try decide
    | (with_reducible apply State.Within.foldl) <;> try intro _ _
    | with_reducible apply State.Within.ite
    | dsimp only
    | split

theorem execSpecTree_within (dt : Nat) (ap : Nat) (pos : Nat) (s : State) {t : State} (h : execSpecTree dt ap pos s = .next t) : s.Within [.out, .freeCtr, .aon, .ing, .egr, .str, .mem] t := by
  unfold execSpecTree at h
  try dsimp only at h
  repeat' split at h
  all_goals cases h
  all_goals repeat' first
    | with_reducible apply State.Within.refl
    | (with_reducible apply State.Within.step (State.elapse_within ..)) <;> try decide
    | (with_reducible apply State.Within.step (treeWork_within ..)) <;> try decide
    | (with_reducible apply State.Within.step (State.runPacket_within (D := [.out, .freeCtr, .aon, .ing, .egr, .str, .mem]) (by decide) ?_  ..)) <;> try decide
    | intro _
    | (with_reducible apply State.Within.foldl) <;> try intro _ _
    | with_reducible apply State.Within.ite
    | dsimp only
    | split

theorem execSpecTreeReply_within (dt : Nat) (ap : Nat) (pos : Nat) (s : State) {t : State} (h : execSpecTreeReply dt ap pos s = .next t) : s.Within [.out, .freeCtr, .aon, .ing, .egr, .img, .str, .sto, .mem, .cas] t := by
  unfold execSpecTreeReply at h
  try dsimp only at h
  repeat' split at h
  all_goals cases h
  all_goals repeat' first
    | with_reducible apply State.Within.refl
    | (with_reducible apply State.Within.step (State.elapse_within ..)) <;> try decide
    | (with_reducible apply State.Within.step (replyWork_within ..)) <;> try decide
    | (with_reducible apply State.Within.step (State.runPacket_within (D := [.out, .freeCtr, .aon, .ing, .egr, .img, .str, .sto, .mem, .cas]) (by decide) ?_  ..)) <;> try decide
    | intro _
    | (with_reducible apply State.Within.foldl) <;> try intro _ _
    | with_reducible apply State.Within.ite
    | dsimp only
    | split

theorem execTreeResolveAck_within (dt : Nat) (slot : Nat) (s : State) {t : State} (h : execTreeResolveAck dt slot s = .next t) : s.Within [.aon, .str] t := by
  unfold execTreeResolveAck at h
  try dsimp only at h
  repeat' split at h
  all_goals cases h
  all_goals repeat' first
    | with_reducible apply State.Within.refl
    | (with_reducible apply State.Within.step (State.onStream_within ..)) <;> try decide
    | (with_reducible apply State.Within.step (State.elapse_within ..)) <;> try decide
    | (with_reducible apply State.Within.foldl) <;> try intro _ _
    | with_reducible apply State.Within.ite
    | dsimp only
    | split

theorem execPfxBind_within (dt : Nat) (ap : Nat) (pos : Nat) (s : State) {t : State} (h : execPfxBind dt ap pos s = .next t) : s.Within [.out, .freeCtr, .aon, .ing, .egr, .img, .str, .sch, .sto, .ber, .mem] t := by
  unfold execPfxBind at h
  try dsimp only at h
  repeat' split at h
  all_goals cases h
  all_goals repeat' first
    | with_reducible apply State.Within.refl
    | (with_reducible apply State.Within.step (State.elapse_within ..)) <;> try decide
    | (with_reducible apply State.Within.step (pfxBindWork_within ..)) <;> try decide
    | (with_reducible apply State.Within.step (State.runBeryl_within (D := [.out, .freeCtr, .aon, .ing, .egr, .img, .str, .sch, .sto, .ber, .mem]) (by decide) ?_  ..)) <;> try decide
    | intro _
    | (with_reducible apply State.Within.foldl) <;> try intro _ _
    | with_reducible apply State.Within.ite
    | dsimp only
    | split

theorem execPfxFind_within (dt : Nat) (ap : Nat) (pos : Nat) (s : State) {t : State} (h : execPfxFind dt ap pos s = .next t) : s.Within [.out, .freeCtr, .aon, .ing, .egr, .img, .str, .sch, .sto, .ber, .mem, .cas] t := by
  unfold execPfxFind at h
  try dsimp only at h
  repeat' split at h
  all_goals cases h
  all_goals repeat' first
    | with_reducible apply State.Within.refl
    | (with_reducible apply State.Within.step (State.elapse_within ..)) <;> try decide
    | (with_reducible apply State.Within.step (pfxFindWork_within ..)) <;> try decide
    | (with_reducible apply State.Within.step (State.runBeryl_within (D := [.out, .freeCtr, .aon, .ing, .egr, .img, .str, .sch, .sto, .ber, .mem, .cas]) (by decide) ?_  ..)) <;> try decide
    | intro _
    | (with_reducible apply State.Within.foldl) <;> try intro _ _
    | with_reducible apply State.Within.ite
    | dsimp only
    | split

theorem execPfxDrop_within (dt : Nat) (ap : Nat) (pos : Nat) (s : State) {t : State} (h : execPfxDrop dt ap pos s = .next t) : s.Within [.out, .freeCtr, .aon, .ing, .egr, .img, .str, .sch, .sto, .ber, .mem] t := by
  unfold execPfxDrop at h
  try dsimp only at h
  repeat' split at h
  all_goals cases h
  all_goals repeat' first
    | with_reducible apply State.Within.refl
    | (with_reducible apply State.Within.step (pfxDropWork_within ..)) <;> try decide
    | (with_reducible apply State.Within.step (State.elapse_within ..)) <;> try decide
    | (with_reducible apply State.Within.step (State.runBeryl_within (D := [.out, .freeCtr, .aon, .ing, .egr, .img, .str, .sch, .sto, .ber, .mem]) (by decide) ?_  ..)) <;> try decide
    | intro _
    | (with_reducible apply State.Within.foldl) <;> try intro _ _
    | with_reducible apply State.Within.ite
    | dsimp only
    | split

theorem execBudSet_within (dt : Nat) (ap : Nat) (pos : Nat) (s : State) {t : State} (h : execBudSet dt ap pos s = .next t) : s.Within [.out, .freeCtr, .aon, .ing, .egr, .img, .str, .sch, .sto, .ber, .mem, .cas] t := by
  unfold execBudSet at h
  try dsimp only at h
  repeat' split at h
  all_goals cases h
  all_goals repeat' first
    | with_reducible apply State.Within.refl
    | (with_reducible apply State.Within.step (State.elapse_within ..)) <;> try decide
    | (with_reducible apply State.Within.step (State.runBeryl_within (D := [.out, .freeCtr, .aon, .ing, .egr, .img, .str, .sch, .sto, .ber, .mem, .cas]) (by decide) ?_  ..)) <;> try decide
    | intro _
    | (with_reducible apply State.Within.step (budSetWork_within ..)) <;> try decide
    | (with_reducible apply State.Within.foldl) <;> try intro _ _
    | with_reducible apply State.Within.ite
    | dsimp only
    | split

theorem execLintelRaise_within (dt : Nat) (ap : Nat) (pos : Nat) (s : State) {t : State} (h : execLintelRaise dt ap pos s = .next t) : s.Within [.out, .freeCtr, .aon, .ing, .egr, .str, .sch, .mem] t := by
  unfold execLintelRaise at h
  try dsimp only at h
  repeat' split at h
  all_goals cases h
  all_goals repeat' first
    | with_reducible apply State.Within.refl
    | (with_reducible apply State.Within.step (State.elapse_within ..)) <;> try decide
    | (with_reducible apply State.Within.step (State.runPacket_within (D := [.out, .freeCtr, .aon, .ing, .egr, .str, .sch, .mem]) (by decide) ?_  ..)) <;> try decide
    | intro _
    | (with_reducible apply State.Within.step (raiseWork_within ..)) <;> try decide
    | (with_reducible apply State.Within.foldl) <;> try intro _ _
    | with_reducible apply State.Within.ite
    | dsimp only
    | split

theorem execLintelLower_within (dt : Nat) (ap : Nat) (pos : Nat) (s : State) {t : State} (h : execLintelLower dt ap pos s = .next t) : s.Within [.out, .freeCtr, .aon, .ing, .egr, .str, .sch, .sto, .ber, .mem] t := by
  unfold execLintelLower at h
  try dsimp only at h
  repeat' split at h
  all_goals cases h
  all_goals repeat' first
    | with_reducible apply State.Within.refl
    | (with_reducible apply State.Within.step (State.elapse_within ..)) <;> try decide
    | (with_reducible apply State.Within.step (lowerWork_within ..)) <;> try decide
    | (with_reducible apply State.Within.step (State.runPacket_within (D := [.out, .freeCtr, .aon, .ing, .egr, .str, .sch, .sto, .ber, .mem]) (by decide) ?_  ..)) <;> try decide
    | intro _
    | (with_reducible apply State.Within.foldl) <;> try intro _ _
    | with_reducible apply State.Within.ite
    | dsimp only
    | split

theorem execGrpQuery_within (dt : Nat) (ap : Nat) (pos : Nat) (s : State) {t : State} (h : execGrpQuery dt ap pos s = .next t) : s.Within [.out, .freeCtr, .aon, .ing, .egr, .str, .mem] t := by
  unfold execGrpQuery at h
  try dsimp only at h
  repeat' split at h
  all_goals cases h
  all_goals repeat' first
    | with_reducible apply State.Within.refl
    | (with_reducible apply State.Within.step (State.elapse_within ..)) <;> try decide
    | (with_reducible apply State.Within.step (grpQueryWork_within ..)) <;> try decide
    | (with_reducible apply State.Within.step (State.runPacket_within (D := [.out, .freeCtr, .aon, .ing, .egr, .str, .mem]) (by decide) ?_  ..)) <;> try decide
    | intro _
    | (with_reducible apply State.Within.foldl) <;> try intro _ _
    | with_reducible apply State.Within.ite
    | dsimp only
    | split

theorem execGrpLocate_within (dt : Nat) (ap : Nat) (pos : Nat) (s : State) {t : State} (h : execGrpLocate dt ap pos s = .next t) : s.Within [.out, .freeCtr, .aon, .ing, .egr, .str, .mem, .cas] t := by
  unfold execGrpLocate at h
  try dsimp only at h
  repeat' split at h
  all_goals cases h
  all_goals repeat' first
    | with_reducible apply State.Within.refl
    | (with_reducible apply State.Within.step (State.elapse_within ..)) <;> try decide
    | (with_reducible apply State.Within.step (locateWork_within ..)) <;> try decide
    | (with_reducible apply State.Within.step (State.runPacket_within (D := [.out, .freeCtr, .aon, .ing, .egr, .str, .mem, .cas]) (by decide) ?_  ..)) <;> try decide
    | intro _
    | (with_reducible apply State.Within.foldl) <;> try intro _ _
    | with_reducible apply State.Within.ite
    | dsimp only
    | split

theorem execGrpLeave_within (dt : Nat) (ap : Nat) (pos : Nat) (s : State) {t : State} (h : execGrpLeave dt ap pos s = .next t) : s.Within [.out, .freeCtr, .aon, .ing, .egr, .str, .sto, .mem, .cas] t := by
  unfold execGrpLeave at h
  try dsimp only at h
  repeat' split at h
  all_goals cases h
  all_goals repeat' first
    | with_reducible apply State.Within.refl
    | (with_reducible apply State.Within.step (leaveWork_within ..)) <;> try decide
    | (with_reducible apply State.Within.step (State.elapse_within ..)) <;> try decide
    | (with_reducible apply State.Within.step (State.runPacket_within (D := [.out, .freeCtr, .aon, .ing, .egr, .str, .sto, .mem, .cas]) (by decide) ?_  ..)) <;> try decide
    | intro _
    | (with_reducible apply State.Within.foldl) <;> try intro _ _
    | with_reducible apply State.Within.ite
    | dsimp only
    | split

theorem execGrpHandover_within (dt : Nat) (ap : Nat) (pos : Nat) (s : State) {t : State} (h : execGrpHandover dt ap pos s = .next t) : s.Within [.out, .freeCtr, .aon, .ing, .egr, .str, .mem, .cas] t := by
  unfold execGrpHandover at h
  try dsimp only at h
  repeat' split at h
  all_goals cases h
  all_goals repeat' first
    | with_reducible apply State.Within.refl
    | (with_reducible apply State.Within.step (State.elapse_within ..)) <;> try decide
    | (with_reducible apply State.Within.step (handoverWork_within ..)) <;> try decide
    | (with_reducible apply State.Within.step (State.runPacket_within (D := [.out, .freeCtr, .aon, .ing, .egr, .str, .mem, .cas]) (by decide) ?_  ..)) <;> try decide
    | intro _
    | (with_reducible apply State.Within.foldl) <;> try intro _ _
    | with_reducible apply State.Within.ite
    | dsimp only
    | split

theorem execGrpJoin_within (dt : Nat) (ap : Nat) (pos : Nat) (s : State) {t : State} (h : execGrpJoin dt ap pos s = .next t) : s.Within [.out, .freeCtr, .aon, .ing, .egr, .str, .mem, .cas] t := by
  unfold execGrpJoin at h
  try dsimp only at h
  repeat' split at h
  all_goals cases h
  all_goals repeat' first
    | with_reducible apply State.Within.refl
    | (with_reducible apply State.Within.step (State.elapse_within ..)) <;> try decide
    | (with_reducible apply State.Within.step (joinWork_within ..)) <;> try decide
    | (with_reducible apply State.Within.step (State.runPacket_within (D := [.out, .freeCtr, .aon, .ing, .egr, .str, .mem, .cas]) (by decide) ?_  ..)) <;> try decide
    | intro _
    | (with_reducible apply State.Within.foldl) <;> try intro _ _
    | with_reducible apply State.Within.ite
    | dsimp only
    | split

theorem execTestMarchPreserving_within (dt : Nat) (ap : Nat) (pos : Nat) (s : State) {t : State} (h : execTestMarchPreserving dt ap pos s = .next t) : s.Within [.out, .freeCtr, .aon, .ing, .egr, .img, .str, .ber, .mem] t := by
  unfold execTestMarchPreserving at h
  try dsimp only at h
  repeat' split at h
  all_goals cases h
  all_goals repeat' first
    | with_reducible apply State.Within.refl
    | (with_reducible apply State.Within.step (State.elapse_within ..)) <;> try decide
    | (with_reducible apply State.Within.step (marchWork_within ..)) <;> try decide
    | (with_reducible apply State.Within.step (State.runPacket_within (D := [.out, .freeCtr, .aon, .ing, .egr, .img, .str, .ber, .mem]) (by decide) ?_  ..)) <;> try decide
    | intro _
    | (with_reducible apply State.Within.foldl) <;> try intro _ _
    | with_reducible apply State.Within.ite
    | dsimp only
    | split

theorem execTestMarchDestructive_within (dt : Nat) (ap : Nat) (pos : Nat) (s : State) {t : State} (h : execTestMarchDestructive dt ap pos s = .next t) : s.Within [.out, .freeCtr, .aon, .ing, .egr, .img, .str, .ber, .mem] t := by
  unfold execTestMarchDestructive at h
  try dsimp only at h
  repeat' split at h
  all_goals cases h
  all_goals repeat' first
    | with_reducible apply State.Within.refl
    | (with_reducible apply State.Within.step (State.elapse_within ..)) <;> try decide
    | (with_reducible apply State.Within.step (marchWork_within ..)) <;> try decide
    | (with_reducible apply State.Within.step (State.runPacket_within (D := [.out, .freeCtr, .aon, .ing, .egr, .img, .str, .ber, .mem]) (by decide) ?_  ..)) <;> try decide
    | intro _
    | (with_reducible apply State.Within.foldl) <;> try intro _ _
    | with_reducible apply State.Within.ite
    | dsimp only
    | split

theorem execTestMarchAbort_within (dt : Nat) (ap : Nat) (pos : Nat) (s : State) {t : State} (h : execTestMarchAbort dt ap pos s = .next t) : s.Within [.out, .freeCtr, .aon, .ing, .egr, .str, .mem] t := by
  unfold execTestMarchAbort at h
  try dsimp only at h
  repeat' split at h
  all_goals cases h
  all_goals repeat' first
    | with_reducible apply State.Within.refl
    | (with_reducible apply State.Within.step (marchAbortWork_within ..)) <;> try decide
    | (with_reducible apply State.Within.step (State.elapse_within ..)) <;> try decide
    | (with_reducible apply State.Within.step (State.runPacket_within (D := [.out, .freeCtr, .aon, .ing, .egr, .str, .mem]) (by decide) ?_  ..)) <;> try decide
    | intro _
    | (with_reducible apply State.Within.foldl) <;> try intro _ _
    | with_reducible apply State.Within.ite
    | dsimp only
    | split

theorem execDestructiveMarchStart_within (dt : Nat) (array : Nat) (s : State) {t : State} (h : execDestructiveMarchStart dt array s = .next t) : s.Within [.aon, .mem] t := by
  unfold execDestructiveMarchStart at h
  try dsimp only at h
  repeat' split at h
  all_goals cases h
  all_goals repeat' first
    | with_reducible apply State.Within.refl
    | (with_reducible apply State.Within.step (State.onMarch_within ..)) <;> try decide
    | (with_reducible apply State.Within.step (State.elapse_within ..)) <;> try decide
    | (with_reducible apply State.Within.foldl) <;> try intro _ _
    | with_reducible apply State.Within.ite
    | dsimp only
    | split

theorem execDestructiveMarchTimeout_within (dt : Nat) (array : Nat) (s : State) {t : State} (h : execDestructiveMarchTimeout dt array s = .next t) : s.Within [.out, .freeCtr, .aon, .ing, .egr, .str, .mem] t := by
  unfold execDestructiveMarchTimeout at h
  try dsimp only at h
  repeat' split at h
  all_goals cases h
  all_goals repeat' first
    | with_reducible apply State.Within.refl
    | (with_reducible apply State.Within.step (State.elapse_within ..)) <;> try decide
    | (with_reducible apply State.Within.step (State.failMarch_within ..)) <;> try decide
    | (with_reducible apply State.Within.foldl) <;> try intro _ _
    | with_reducible apply State.Within.ite
    | dsimp only
    | split

theorem execMarchBorrow_within (dt : Nat) (array : Nat) (found : Borrow) (s : State) {t : State} (h : execMarchBorrow dt array found s = .next t) : s.Within [.aon, .mem] t := by
  unfold execMarchBorrow at h
  try dsimp only at h
  repeat' split at h
  all_goals cases h
  all_goals repeat' first
    | with_reducible apply State.Within.refl
    | (with_reducible apply State.Within.step (State.noteSpares_within ..)) <;> try decide
    | (with_reducible apply State.Within.step (State.onMarch_within ..)) <;> try decide
    | (with_reducible apply State.Within.step (State.elapse_within ..)) <;> try decide
    | (with_reducible apply State.Within.step (State.rowFails_within ..)) <;> try decide
    | (with_reducible apply State.Within.foldl) <;> try intro _ _
    | with_reducible apply State.Within.ite
    | dsimp only
    | split

theorem execMarchEnd_within (dt : Nat) (fails : List (Nat × Cell)) (s : State) {t : State} (h : execMarchEnd dt fails s = .next t) : s.Within [.out, .freeCtr, .aon, .ing, .egr, .str, .ber, .mem] t := by
  unfold execMarchEnd at h
  try dsimp only at h
  repeat' split at h
  all_goals cases h
  all_goals repeat' first
    | with_reducible apply State.Within.refl
    | (with_reducible apply State.Within.step (State.onMarch_within ..)) <;> try decide
    | (with_reducible apply State.Within.step (State.elapse_within ..)) <;> try decide
    | (with_reducible apply State.Within.step (State.endDestructive_within ..)) <;> try decide
    | (with_reducible apply State.Within.step (State.endCam_within ..)) <;> try decide
    | (with_reducible apply State.Within.step (State.endMarch_within ..)) <;> try decide
    | (with_reducible apply State.Within.foldl) <;> try intro _ _
    | with_reducible apply State.Within.ite
    | dsimp only
    | split

theorem execTestLane_within (dt : Nat) (ap : Nat) (pos : Nat) (s : State) {t : State} (h : execTestLane dt ap pos s = .next t) : s.Within [.out, .freeCtr, .aon, .ing, .egr, .str, .sch, .mem] t := by
  unfold execTestLane at h
  try dsimp only at h
  repeat' split at h
  all_goals cases h
  all_goals repeat' first
    | with_reducible apply State.Within.refl
    | (with_reducible apply State.Within.step (State.elapse_within ..)) <;> try decide
    | (with_reducible apply State.Within.step (laneWork_within ..)) <;> try decide
    | (with_reducible apply State.Within.step (State.runPacket_within (D := [.out, .freeCtr, .aon, .ing, .egr, .str, .sch, .mem]) (by decide) ?_  ..)) <;> try decide
    | intro _
    | (with_reducible apply State.Within.foldl) <;> try intro _ _
    | with_reducible apply State.Within.ite
    | dsimp only
    | split

theorem execRingHeadPoll_within (dt : Nat) (ring : Nat) (value : Nat) (s : State) {t : State} (h : execRingHeadPoll dt ring value s = .next t) : s.Within [.out, .aon, .egr, .str, .mem] t := by
  unfold execRingHeadPoll at h
  try dsimp only at h
  repeat' split at h
  all_goals cases h
  all_goals repeat' first
    | with_reducible apply State.Within.refl
    | (with_reducible apply State.Within.step (State.settleRing_within ..)) <;> try decide
    | (with_reducible apply State.Within.step (State.elapse_within ..)) <;> try decide
    | (with_reducible apply State.Within.step (State.releaseRing_within ..)) <;> try decide
    | (with_reducible apply State.Within.step (State.onRing_within _ ?_ ?_)) <;> try decide
    | exact fun h => h
    | exact fun _ _ => rfl
    | (with_reducible apply State.Within.step (State.drain_within ..)) <;> try decide
    | (with_reducible apply State.Within.step (State.emit_within ..)) <;> try decide
    | (with_reducible apply State.Within.foldl) <;> try intro _ _
    | with_reducible apply State.Within.ite
    | dsimp only
    | split

theorem execRingStall_within (dt : Nat) (ring : Nat) (s : State) {t : State} (h : execRingStall dt ring s = .next t) : s.Within [.out, .aon, .egr, .str, .mem] t := by
  unfold execRingStall at h
  try dsimp only at h
  repeat' split at h
  all_goals cases h
  all_goals repeat' first
    | with_reducible apply State.Within.refl
    | (with_reducible apply State.Within.step (State.elapse_within ..)) <;> try decide
    | (with_reducible apply State.Within.step (State.onRing_within _ ?_ ?_)) <;> try decide
    | exact fun h => h
    | exact fun _ _ => rfl
    | (with_reducible apply State.Within.step (State.event_within ..)) <;> try decide
    | (with_reducible apply State.Within.foldl) <;> try intro _ _
    | with_reducible apply State.Within.ite
    | dsimp only
    | split

theorem execRecordsLost_within (dt : Nat) (ring : Nat) (s : State) {t : State} (h : execRecordsLost dt ring s = .next t) : s.Within [.out, .aon, .egr, .str, .mem] t := by
  unfold execRecordsLost at h
  try dsimp only at h
  repeat' split at h
  all_goals cases h
  all_goals repeat' first
    | with_reducible apply State.Within.refl
    | (with_reducible apply State.Within.step (State.elapse_within ..)) <;> try decide
    | (with_reducible apply State.Within.step (State.onRing_within _ ?_ ?_)) <;> try decide
    | exact fun h => h
    | exact fun _ _ => rfl
    | (with_reducible apply State.Within.step (State.event_within ..)) <;> try decide
    | (with_reducible apply State.Within.foldl) <;> try intro _ _
    | with_reducible apply State.Within.ite
    | dsimp only
    | split

theorem execModTimeExpiry_within (dt : Nat) (ring : Nat) (s : State) {t : State} (h : execModTimeExpiry dt ring s = .next t) : s.Within [.out, .aon, .egr, .str, .mem] t := by
  unfold execModTimeExpiry at h
  try dsimp only at h
  repeat' split at h
  all_goals cases h
  all_goals repeat' first
    | with_reducible apply State.Within.refl
    | (with_reducible apply State.Within.step (State.flushCoal_within ..)) <;> try decide
    | (with_reducible apply State.Within.step (State.elapse_within ..)) <;> try decide
    | (with_reducible apply State.Within.step (State.signalRing_within ..)) <;> try decide
    | (with_reducible apply State.Within.foldl) <;> try intro _ _
    | with_reducible apply State.Within.ite
    | dsimp only
    | split

theorem execRingFault_within (dt : Nat) (target : PortFault) (s : State) {t : State} (h : execRingFault dt target s = .next t) : s.Within [.out, .aon, .ing, .egr, .str, .mem] t := by
  unfold execRingFault at h
  try dsimp only at h
  repeat' split at h
  all_goals cases h
  all_goals repeat' first
    | with_reducible apply State.Within.refl
    | (with_reducible apply State.Within.step (State.elapse_within ..)) <;> try decide
    | (with_reducible apply State.Within.step (State.onAp_within ?_)) <;> try decide
    | exact fun _ h => h
    | exact fun _ h => ⟨satInc_lt .., h.2⟩
    | exact fun _ h => ⟨h.1, satInc_lt ..⟩
    | (with_reducible apply State.Within.step (State.raise_within ..)) <;> try decide
    | (with_reducible apply State.Within.step (State.disableRing_within ..)) <;> try decide
    | (with_reducible apply State.Within.step (State.event_within ..)) <;> try decide
    | (with_reducible apply State.Within.foldl) <;> try intro _ _
    | with_reducible apply State.Within.ite
    | dsimp only
    | split

theorem execStepIssue_within (dt : Nat) (entries : Nat) (tokens : Nat) (s : State) {t : State} (h : execStepIssue dt entries tokens s = .next t) : s.Within [.out, .freeCtr, .aon, .ing, .egr, .img, .str, .sch, .sto, .ber, .mem, .cas] t := by
  unfold execStepIssue at h
  try dsimp only at h
  repeat' split at h
  all_goals cases h
  all_goals repeat' first
    | with_reducible apply State.Within.refl
    | (with_reducible apply State.Within.step (State.issue_within ..)) <;> try decide
    | (with_reducible apply State.Within.step (State.elapse_within ..)) <;> try decide
    | (with_reducible apply State.Within.step (State.boundary_within ..)) <;> try decide
    | (with_reducible apply State.Within.foldl) <;> try intro _ _
    | with_reducible apply State.Within.ite
    | dsimp only
    | split

theorem execIdleBoundary_within (dt : Nat) (s : State) {t : State} (h : execIdleBoundary dt s = .next t) : s.Within [.out, .freeCtr, .aon, .ing, .egr, .img, .str, .sch, .sto, .ber, .mem, .cas] t := by
  unfold execIdleBoundary at h
  try dsimp only at h
  repeat' split at h
  all_goals cases h
  all_goals repeat' first
    | with_reducible apply State.Within.refl
    | (with_reducible apply State.Within.step (State.elapse_within ..)) <;> try decide
    | (with_reducible apply State.Within.step (State.boundary_within ..)) <;> try decide
    | (with_reducible apply State.Within.foldl) <;> try intro _ _
    | with_reducible apply State.Within.ite
    | dsimp only
    | split

theorem execLogitBurst_within (dt : Nat) (facet : Nat) (burst : Burst) (s : State) {t : State} (h : execLogitBurst dt facet burst s = .next t) : s.Within [.out, .freeCtr, .aon, .ing, .egr, .str, .sch, .sto, .mem] t := by
  unfold execLogitBurst at h
  try dsimp only at h
  repeat' split at h
  all_goals cases h
  all_goals repeat' first
    | with_reducible apply State.Within.refl
    | (with_reducible apply State.Within.step (State.burst_within ..)) <;> try decide
    | (with_reducible apply State.Within.step (State.elapse_within ..)) <;> try decide
    | (with_reducible apply State.Within.foldl) <;> try intro _ _
    | with_reducible apply State.Within.ite
    | dsimp only
    | split

theorem execRowShaped_within (dt : Nat) (step : Nat) (slot : Nat) (node : Nat) (s : State) {t : State} (h : execRowShaped dt step slot node s = .next t) : s.Within [.out, .aon, .egr, .str, .sch, .mem] t := by
  unfold execRowShaped at h
  try dsimp only at h
  repeat' split at h
  all_goals cases h
  all_goals repeat' first
    | with_reducible apply State.Within.refl
    | (with_reducible apply State.Within.step (State.onStream_within ..)) <;> try decide
    | (with_reducible apply State.Within.step (State.elapse_within ..)) <;> try decide
    | (with_reducible apply State.Within.step (State.handOver_within ..)) <;> try decide
    | (with_reducible apply State.Within.foldl) <;> try intro _ _
    | with_reducible apply State.Within.ite
    | dsimp only
    | split

theorem execVerdictPass_within (dt : Nat) (step : Nat) (s : State) {t : State} (h : execVerdictPass dt step s = .next t) : s.Within [.out, .freeCtr, .aon, .ing, .egr, .img, .str, .sch, .sto, .ber, .mem, .cas] t := by
  unfold execVerdictPass at h
  try dsimp only at h
  repeat' split at h
  all_goals cases h
  all_goals repeat' first
    | with_reducible apply State.Within.refl
    | (with_reducible apply State.Within.step (State.grantOrWait_within (D := [.out, .freeCtr, .aon, .ing, .egr, .img, .str, .sch, .sto, .ber, .mem, .cas]) (by decide) ?_  ..)) <;> try decide
    | intro _
    | (with_reducible apply State.Within.step (State.passEntry_within ..)) <;> try decide
    | (with_reducible apply State.Within.step (State.elapse_within ..)) <;> try decide
    | (with_reducible apply State.Within.step (State.onStep_within ..)) <;> try decide
    | (with_reducible apply State.Within.step (State.sealVerdict_within ..)) <;> try decide
    | (with_reducible apply State.Within.step (State.sweepSteps_within ..)) <;> try decide
    | (with_reducible apply State.Within.step (State.commitHeld_within ..)) <;> try decide
    | (with_reducible apply State.Within.foldl) <;> try intro _ _
    | with_reducible apply State.Within.ite
    | dsimp only
    | split

theorem execVerdictFail_within (dt : Nat) (step : Nat) (s : State) {t : State} (h : execVerdictFail dt step s = .next t) : s.Within [.out, .freeCtr, .aon, .ing, .egr, .str, .sch, .sto, .mem] t := by
  unfold execVerdictFail at h
  try dsimp only at h
  repeat' split at h
  all_goals cases h
  all_goals repeat' first
    | with_reducible apply State.Within.refl
    | (with_reducible apply State.Within.step (State.elapse_within ..)) <;> try decide
    | (with_reducible apply State.Within.step (State.voidStep_within ..)) <;> try decide
    | (with_reducible apply State.Within.foldl) <;> try intro _ _
    | with_reducible apply State.Within.ite
    | dsimp only
    | split

theorem execVerdictTimeout_within (dt : Nat) (step : Nat) (s : State) {t : State} (h : execVerdictTimeout dt step s = .next t) : s.Within [.out, .freeCtr, .aon, .ing, .egr, .str, .sch, .sto, .mem] t := by
  unfold execVerdictTimeout at h
  try dsimp only at h
  repeat' split at h
  all_goals cases h
  all_goals repeat' first
    | with_reducible apply State.Within.refl
    | (with_reducible apply State.Within.step (State.elapse_within ..)) <;> try decide
    | (with_reducible apply State.Within.step (State.voidStep_within ..)) <;> try decide
    | (with_reducible apply State.Within.step (State.raise_within ..)) <;> try decide
    | (with_reducible apply State.Within.foldl) <;> try intro _ _
    | with_reducible apply State.Within.ite
    | dsimp only
    | split

theorem execChunkKvWritten_within (dt : Nat) (step : Nat) (what : KvReport) (s : State) {t : State} (h : execChunkKvWritten dt step what s = .next t) : s.Within [.out, .aon, .str, .sch, .sto] t := by
  unfold execChunkKvWritten at h
  try dsimp only at h
  repeat' split at h
  all_goals cases h
  all_goals repeat' first
    | with_reducible apply State.Within.refl
    | (with_reducible apply State.Within.step (State.onStream_within ..)) <;> try decide
    | (with_reducible apply State.Within.step (State.elapse_within ..)) <;> try decide
    | (with_reducible apply State.Within.step (State.onStep_within ..)) <;> try decide
    | (with_reducible apply State.Within.step (State.sendPackage_within ..)) <;> try decide
    | (with_reducible apply State.Within.foldl) <;> try intro _ _
    | with_reducible apply State.Within.ite
    | dsimp only
    | split

theorem execPageRetire_within (dt : Nat) (page : Nat) (s : State) {t : State} (h : execPageRetire dt page s = .next t) : s.Within [.aon, .str, .sch, .sto, .ber, .mem] t := by
  unfold execPageRetire at h
  try dsimp only at h
  repeat' split at h
  all_goals cases h
  all_goals repeat' first
    | with_reducible apply State.Within.refl
    | (with_reducible apply State.Within.step (State.retirePage_within ..)) <;> try decide
    | (with_reducible apply State.Within.step (State.elapse_within ..)) <;> try decide
    | (with_reducible apply State.Within.foldl) <;> try intro _ _
    | with_reducible apply State.Within.ite
    | dsimp only
    | split

theorem execPageSummary_within (dt : Nat) (slot : Nat) (handle : Nat) (size : Nat) (loc : Nat) (s : State) {t : State} (h : execPageSummary dt slot handle size loc s = .next t) : s.Within [.out, .freeCtr, .aon, .ing, .egr, .str, .sch, .sto, .ber, .mem] t := by
  unfold execPageSummary at h
  try dsimp only at h
  repeat' split at h
  all_goals cases h
  all_goals repeat' first
    | with_reducible apply State.Within.refl
    | (with_reducible apply State.Within.step (State.onStream_within ..)) <;> try decide
    | (with_reducible apply State.Within.step (State.finishSummary_within ..)) <;> try decide
    | (with_reducible apply State.Within.step (State.elapse_within ..)) <;> try decide
    | (with_reducible apply State.Within.step (State.releaseSummary_within ..)) <;> try decide
    | (with_reducible apply State.Within.step (State.dropLintelSum_within ..)) <;> try decide
    | (with_reducible apply State.Within.step (State.onSch_within ..)) <;> try decide
    | (with_reducible apply State.Within.foldl) <;> try intro _ _
    | with_reducible apply State.Within.ite
    | dsimp only
    | split

theorem execPageMoved_within (dt : Nat) (slot : Nat) (s : State) {t : State} (h : execPageMoved dt slot s = .next t) : s.Within [.out, .freeCtr, .aon, .ing, .egr, .str, .sch, .sto, .ber, .mem, .cas] t := by
  unfold execPageMoved at h
  try dsimp only at h
  repeat' split at h
  all_goals cases h
  all_goals repeat' first
    | with_reducible apply State.Within.refl
    | (with_reducible apply State.Within.step (State.elapse_within ..)) <;> try decide
    | (with_reducible apply State.Within.step (State.settleHeld_within ..)) <;> try decide
    | (with_reducible apply State.Within.step (State.onCas_within ..)) <;> try decide
    | (with_reducible apply State.Within.foldl) <;> try intro _ _
    | with_reducible apply State.Within.ite
    | dsimp only
    | split

theorem execPageRestored_within (dt : Nat) (slot : Nat) (s : State) {t : State} (h : execPageRestored dt slot s = .next t) : s.Within [.out, .freeCtr, .aon, .ing, .egr, .str, .sch, .sto, .ber, .mem] t := by
  unfold execPageRestored at h
  try dsimp only at h
  repeat' split at h
  all_goals cases h
  all_goals repeat' first
    | with_reducible apply State.Within.refl
    | (with_reducible apply State.Within.step (State.elapse_within ..)) <;> try decide
    | (with_reducible apply State.Within.step (State.finishResume_within ..)) <;> try decide
    | (with_reducible apply State.Within.step (State.setChain_within ..)) <;> try decide
    | (with_reducible apply State.Within.foldl) <;> try intro _ _
    | with_reducible apply State.Within.ite
    | dsimp only
    | split

theorem execBackgroundBuild_within (dt : Nat) (slot : Nat) (s : State) {t : State} (h : execBackgroundBuild dt slot s = .next t) : s.Within [.aon, .str] t := by
  unfold execBackgroundBuild at h
  try dsimp only at h
  repeat' split at h
  all_goals cases h
  all_goals repeat' first
    | with_reducible apply State.Within.refl
    | (with_reducible apply State.Within.step (State.elapse_within ..)) <;> try decide
    | (with_reducible apply State.Within.step (State.onStr_within ..)) <;> try decide
    | (with_reducible apply State.Within.foldl) <;> try intro _ _
    | with_reducible apply State.Within.ite
    | dsimp only
    | split

theorem execShutterBuildDone_within (dt : Nat) (slot : Nat) (part : BuildPart) (s : State) {t : State} (h : execShutterBuildDone dt slot part s = .next t) : s.Within [.aon, .str, .sch, .mem] t := by
  unfold execShutterBuildDone at h
  try dsimp only at h
  repeat' split at h
  all_goals cases h
  all_goals repeat' first
    | with_reducible apply State.Within.refl
    | (with_reducible apply State.Within.step (State.elapse_within ..)) <;> try decide
    | (with_reducible apply State.Within.step (State.buildDone_within ..)) <;> try decide
    | (with_reducible apply State.Within.step (State.shareDone_within ..)) <;> try decide
    | (with_reducible apply State.Within.foldl) <;> try intro _ _
    | with_reducible apply State.Within.ite
    | dsimp only
    | split

theorem execStackRefillDone_within (dt : Nat) (slot : Nat) (s : State) {t : State} (h : execStackRefillDone dt slot s = .next t) :
    s.Within [.aon, .str] t := by
  have h0 : s.Within [.aon, .str] (s.elapse dt) := (State.elapse_within ..).mono (by decide)
  unfold execStackRefillDone at h
  cases h
  split
  · exact .ite (.getD (fun u hu => .step (State.takeStack_within hu) (by decide) h0) h0) h0
  · exact h0

theorem execDeadlinePolicy_within (dt : Nat) (slot : Nat) (s : State) {t : State} (h : execDeadlinePolicy dt slot s = .next t) : s.Within [.out, .freeCtr, .aon, .ing, .egr, .str, .sch, .sto, .ber, .mem, .cas] t := by
  unfold execDeadlinePolicy at h
  try dsimp only at h
  repeat' split at h
  all_goals cases h
  all_goals repeat' first
    | with_reducible apply State.Within.refl
    | (with_reducible apply State.Within.step (State.elapse_within ..)) <;> try decide
    | (with_reducible apply State.Within.step (State.applyPolicy_within ..)) <;> try decide
    | (with_reducible apply State.Within.foldl) <;> try intro _ _
    | with_reducible apply State.Within.ite
    | dsimp only
    | split

theorem execSealNotice_within (dt : Nat) (hdr : MsgHdr) (sealId : Nat) (kind : Nat) (s : State) {t : State} (h : execSealNotice dt hdr sealId kind s = .next t) : s.Within [.out, .freeCtr, .aon, .start, .ing, .egr, .img, .str, .sch, .sto, .ber, .mem, .cas] t := by
  unfold execSealNotice at h
  try dsimp only at h
  repeat' split at h
  all_goals cases h
  all_goals repeat' first
    | with_reducible apply State.Within.refl
    | (with_reducible apply State.Within.step (State.elapse_within ..)) <;> try decide
    | (with_reducible apply State.Within.step (State.hear_within (D := [.out, .freeCtr, .aon, .start, .ing, .egr, .img, .str, .sch, .sto, .ber, .mem, .cas]) (by decide) ?_  ..)) <;> try decide
    | intro _
    | (with_reducible apply State.Within.step (State.voidHeld_within ..)) <;> try decide
    | (with_reducible apply State.Within.step (State.clearHeld_within ..)) <;> try decide
    | (with_reducible apply State.Within.foldl) <;> try intro _ _
    | with_reducible apply State.Within.ite
    | dsimp only
    | split

theorem execPackage_within (dt : Nat) (hdr : MsgHdr) (body : PkgBody) (s : State) {t : State} (h : execPackage dt hdr body s = .next t) : s.Within [.out, .freeCtr, .aon, .start, .ing, .egr, .img, .str, .sch, .sto, .ber, .mem, .cas] t := by
  unfold execPackage at h
  try dsimp only at h
  repeat' split at h
  all_goals cases h
  all_goals repeat' first
    | with_reducible apply State.Within.refl
    | (with_reducible apply State.Within.step (State.elapse_within ..)) <;> try decide
    | (with_reducible apply State.Within.step (State.hear_within (D := [.out, .freeCtr, .aon, .start, .ing, .egr, .img, .str, .sch, .sto, .ber, .mem, .cas]) (by decide) ?_  ..)) <;> try decide
    | intro _
    | (with_reducible apply State.Within.step (State.abandonHeld_within ..)) <;> try decide
    | (with_reducible apply State.Within.step (State.receivePackage_within ..)) <;> try decide
    | (with_reducible apply State.Within.foldl) <;> try intro _ _
    | with_reducible apply State.Within.ite
    | dsimp only
    | split

theorem execJoin_within (dt : Nat) (hdr : MsgHdr) (frameCrc : Nat) (time : Nat) (s : State) {t : State} (h : execJoin dt hdr frameCrc time s = .next t) : s.Within [.out, .freeCtr, .aon, .start, .ing, .egr, .str, .sto, .ber, .mem, .cas] t := by
  unfold execJoin at h
  try dsimp only at h
  repeat' split at h
  all_goals cases h
  all_goals repeat' first
    | with_reducible apply State.Within.refl
    | (with_reducible apply State.Within.step (State.elapse_within ..)) <;> try decide
    | (with_reducible apply State.Within.step (State.hear_within (D := [.out, .freeCtr, .aon, .start, .ing, .egr, .str, .sto, .ber, .mem, .cas]) (by decide) ?_  ..)) <;> try decide
    | intro _
    | (with_reducible apply State.Within.step (State.form_within ..)) <;> try decide
    | (with_reducible apply State.Within.step (State.onCas_within ..)) <;> try decide
    | (with_reducible apply State.Within.step (State.raise_within ..)) <;> try decide
    | (with_reducible apply State.Within.step (State.admitMember_within ..)) <;> try decide
    | (with_reducible apply State.Within.step (State.sendWelcome_within ..)) <;> try decide
    | (with_reducible apply State.Within.foldl) <;> try intro _ _
    | with_reducible apply State.Within.ite
    | dsimp only
    | split

theorem execJoinTimer_within (dt : Nat) (s : State) {t : State} (h : execJoinTimer dt s = .next t) : s.Within [.out, .aon, .cas] t := by
  unfold execJoinTimer at h
  try dsimp only at h
  repeat' split at h
  all_goals cases h
  all_goals repeat' first
    | with_reducible apply State.Within.refl
    | (with_reducible apply State.Within.step (State.elapse_within ..)) <;> try decide
    | (with_reducible apply State.Within.step (State.sendJoin_within ..)) <;> try decide
    | (with_reducible apply State.Within.foldl) <;> try intro _ _
    | with_reducible apply State.Within.ite
    | dsimp only
    | split

theorem execFormTimeout_within (dt : Nat) (s : State) {t : State} (h : execFormTimeout dt s = .next t) : s.Within [.out, .freeCtr, .aon, .ing, .egr, .str, .sto, .ber, .mem, .cas] t := by
  unfold execFormTimeout at h
  try dsimp only at h
  repeat' split at h
  all_goals cases h
  all_goals repeat' first
    | with_reducible apply State.Within.refl
    | (with_reducible apply State.Within.step (State.elapse_within ..)) <;> try decide
    | (with_reducible apply State.Within.step (State.form_within ..)) <;> try decide
    | (with_reducible apply State.Within.foldl) <;> try intro _ _
    | with_reducible apply State.Within.ite
    | dsimp only
    | split

theorem execWelcome_within (dt : Nat) (hdr : MsgHdr) (newEpoch : Nat) (live : Nat) (asleep : Nat) (master : Nat) (deputy : Nat) (time : Nat) (tenants : List BudSet) (s : State) {t : State} (h : execWelcome dt hdr newEpoch live asleep master deputy time tenants s = .next t) : s.Within [.out, .freeCtr, .aon, .start, .ing, .egr, .str, .sto, .ber, .mem, .cas] t := by
  unfold execWelcome at h
  try dsimp only at h
  repeat' split at h
  all_goals cases h
  all_goals repeat' first
    | with_reducible apply State.Within.refl
    | (with_reducible apply State.Within.step (State.unholdAll_within ..)) <;> try decide
    | (with_reducible apply State.Within.step (State.dropGrants_within ..)) <;> try decide
    | (with_reducible apply State.Within.step (State.followIndex_within ..)) <;> try decide
    | (with_reducible apply State.Within.step (State.stepTo_within ..)) <;> try decide
    | (with_reducible apply State.Within.step (State.elapse_within ..)) <;> try decide
    | (with_reducible apply State.Within.step (State.hear_within (D := [.out, .freeCtr, .aon, .start, .ing, .egr, .str, .sto, .ber, .mem, .cas]) (by decide) ?_  ..)) <;> try decide
    | intro _
    | (with_reducible apply State.Within.step (State.withRoles_within ..)) <;> try decide
    | (with_reducible apply State.Within.step (State.resend_within ..)) <;> try decide
    | (with_reducible apply State.Within.step (State.raise_within ..)) <;> try decide
    | (with_reducible apply State.Within.step (State.groupEvent_within ..)) <;> try decide
    | (with_reducible apply State.Within.foldl) <;> try intro _ _
    | with_reducible apply State.Within.ite
    | dsimp only
    | split

theorem execBeatTimer_within (dt : Nat) (s : State) {t : State} (h : execBeatTimer dt s = .next t) : s.Within [.out, .aon, .cas] t := by
  unfold execBeatTimer at h
  try dsimp only at h
  repeat' split at h
  all_goals cases h
  all_goals repeat' first
    | with_reducible apply State.Within.refl
    | (with_reducible apply State.Within.step (State.elapse_within ..)) <;> try decide
    | (with_reducible apply State.Within.step (State.onCas_within ..)) <;> try decide
    | (with_reducible apply State.Within.step (State.send_within ..)) <;> try decide
    | (with_reducible apply State.Within.foldl) <;> try intro _ _
    | with_reducible apply State.Within.ite
    | dsimp only
    | split

theorem execBeat_within (dt : Nat) (hdr : MsgHdr) (time : Nat) (live : Nat) (deputy : Nat) (delay : Nat) (figures : List (Nat × Figures)) (s : State) {t : State} (h : execBeat dt hdr time live deputy delay figures s = .next t) : s.Within [.out, .freeCtr, .aon, .start, .ing, .egr, .img, .str, .sch, .sto, .ber, .mem, .cas] t := by
  unfold execBeat at h
  try dsimp only at h
  repeat' split at h
  all_goals cases h
  all_goals repeat' first
    | with_reducible apply State.Within.refl
    | (with_reducible apply State.Within.step (State.elapse_within ..)) <;> try decide
    | (with_reducible apply State.Within.step (State.hear_within (D := [.out, .freeCtr, .aon, .start, .ing, .egr, .img, .str, .sch, .sto, .ber, .mem, .cas]) (by decide) ?_  ..)) <;> try decide
    | intro _
    | (with_reducible apply State.Within.step (State.withRoles_within ..)) <;> try decide
    | (with_reducible apply State.Within.step (State.memberGone_within ..)) <;> try decide
    | (with_reducible apply State.Within.step (State.groupEvent_within ..)) <;> try decide
    | (with_reducible apply State.Within.step (State.send_within ..)) <;> try decide
    | (with_reducible apply State.Within.foldl) <;> try intro _ _
    | with_reducible apply State.Within.ite
    | dsimp only
    | split

theorem execBeatAck_within (dt : Nat) (hdr : MsgHdr) (echo : Nat) (received : Nat) (turnaround : Nat) (figures : Figures) (s : State) {t : State} (h : execBeatAck dt hdr echo received turnaround figures s = .next t) : s.Within [.out, .aon, .start, .ber, .mem, .cas] t := by
  unfold execBeatAck at h
  try dsimp only at h
  repeat' split at h
  all_goals cases h
  all_goals repeat' first
    | with_reducible apply State.Within.refl
    | (with_reducible apply State.Within.step (State.elapse_within ..)) <;> try decide
    | (with_reducible apply State.Within.step (State.hear_within (D := [.out, .aon, .start, .ber, .mem, .cas]) (by decide) ?_  ..)) <;> try decide
    | intro _
    | (with_reducible apply State.Within.step (State.onCas_within ..)) <;> try decide
    | (with_reducible apply State.Within.foldl) <;> try intro _ _
    | with_reducible apply State.Within.ite
    | dsimp only
    | split

theorem execMemberDepartTimeout_within (dt : Nat) (member : Nat) (s : State) {t : State} (h : execMemberDepartTimeout dt member s = .next t) : s.Within [.out, .freeCtr, .aon, .ing, .egr, .img, .str, .sch, .sto, .ber, .mem, .cas] t := by
  unfold execMemberDepartTimeout at h
  try dsimp only at h
  repeat' split at h
  all_goals cases h
  all_goals repeat' first
    | with_reducible apply State.Within.refl
    | (with_reducible apply State.Within.step (State.elapse_within ..)) <;> try decide
    | (with_reducible apply State.Within.step (State.depart_within ..)) <;> try decide
    | (with_reducible apply State.Within.foldl) <;> try intro _ _
    | with_reducible apply State.Within.ite
    | dsimp only
    | split

theorem execQuorumLossTimeout_within (dt : Nat) (s : State) {t : State} (h : execQuorumLossTimeout dt s = .next t) : s.Within [.out, .freeCtr, .aon, .ing, .egr, .str, .mem, .cas] t := by
  unfold execQuorumLossTimeout at h
  try dsimp only at h
  repeat' split at h
  all_goals cases h
  all_goals repeat' first
    | with_reducible apply State.Within.refl
    | (with_reducible apply State.Within.step (State.elapse_within ..)) <;> try decide
    | (with_reducible apply State.Within.step (State.orphan_within ..)) <;> try decide
    | (with_reducible apply State.Within.foldl) <;> try intro _ _
    | with_reducible apply State.Within.ite
    | dsimp only
    | split

theorem execDeputyPollTimeout_within (dt : Nat) (s : State) {t : State} (h : execDeputyPollTimeout dt s = .next t) : s.Within [.out, .aon, .cas] t := by
  unfold execDeputyPollTimeout at h
  try dsimp only at h
  repeat' split at h
  all_goals cases h
  all_goals repeat' first
    | with_reducible apply State.Within.refl
    | (with_reducible apply State.Within.step (State.elapse_within ..)) <;> try decide
    | (with_reducible apply State.Within.step (State.onCas_within ..)) <;> try decide
    | (with_reducible apply State.Within.step (State.send_within ..)) <;> try decide
    | (with_reducible apply State.Within.foldl) <;> try intro _ _
    | with_reducible apply State.Within.ite
    | dsimp only
    | split

theorem execPoll_within (dt : Nat) (hdr : MsgHdr) (s : State) {t : State} (h : execPoll dt hdr s = .next t) : s.Within [.out, .aon, .start, .ber, .mem, .cas] t := by
  unfold execPoll at h
  try dsimp only at h
  repeat' split at h
  all_goals cases h
  all_goals repeat' first
    | with_reducible apply State.Within.refl
    | (with_reducible apply State.Within.step (State.elapse_within ..)) <;> try decide
    | (with_reducible apply State.Within.step (State.hear_within (D := [.out, .aon, .start, .ber, .mem, .cas]) (by decide) ?_  ..)) <;> try decide
    | intro _
    | (with_reducible apply State.Within.step (State.send_within ..)) <;> try decide
    | (with_reducible apply State.Within.foldl) <;> try intro _ _
    | with_reducible apply State.Within.ite
    | dsimp only
    | split

theorem execPollAns_within (dt : Nat) (hdr : MsgHdr) (recent : Bool) (s : State) {t : State} (h : execPollAns dt hdr recent s = .next t) : s.Within [.out, .freeCtr, .aon, .start, .ing, .egr, .img, .str, .sch, .sto, .ber, .mem, .cas] t := by
  unfold execPollAns at h
  try dsimp only at h
  repeat' split at h
  all_goals cases h
  all_goals repeat' first
    | with_reducible apply State.Within.refl
    | (with_reducible apply State.Within.step (State.takeOver_within ..)) <;> try decide
    | (with_reducible apply State.Within.step (State.elapse_within ..)) <;> try decide
    | (with_reducible apply State.Within.step (State.hear_within (D := [.out, .freeCtr, .aon, .start, .ing, .egr, .img, .str, .sch, .sto, .ber, .mem, .cas]) (by decide) ?_  ..)) <;> try decide
    | intro _
    | (with_reducible apply State.Within.step (State.onCas_within ..)) <;> try decide
    | (with_reducible apply State.Within.foldl) <;> try intro _ _
    | with_reducible apply State.Within.ite
    | dsimp only
    | split

theorem execTakeover_within (dt : Nat) (hdr : MsgHdr) (newEpoch : Nat) (newDeputy : Nat) (s : State) {t : State} (h : execTakeover dt hdr newEpoch newDeputy s = .next t) : s.Within [.out, .freeCtr, .aon, .start, .ing, .egr, .str, .sto, .ber, .mem, .cas] t := by
  unfold execTakeover at h
  try dsimp only at h
  repeat' split at h
  all_goals cases h
  all_goals repeat' first
    | with_reducible apply State.Within.refl
    | (with_reducible apply State.Within.step (State.elapse_within ..)) <;> try decide
    | (with_reducible apply State.Within.step (State.hear_within (D := [.out, .freeCtr, .aon, .start, .ing, .egr, .str, .sto, .ber, .mem, .cas]) (by decide) ?_  ..)) <;> try decide
    | intro _
    | (with_reducible apply State.Within.step (State.withRoles_within ..)) <;> try decide
    | (with_reducible apply State.Within.step (State.resend_within ..)) <;> try decide
    | (with_reducible apply State.Within.step (State.groupEvent_within ..)) <;> try decide
    | (with_reducible apply State.Within.foldl) <;> try intro _ _
    | with_reducible apply State.Within.ite
    | dsimp only
    | split

theorem execOrphanTimeout_within (dt : Nat) (s : State) {t : State} (h : execOrphanTimeout dt s = .next t) : s.Within [.out, .freeCtr, .aon, .ing, .egr, .str, .mem, .cas] t := by
  unfold execOrphanTimeout at h
  try dsimp only at h
  repeat' split at h
  all_goals cases h
  all_goals repeat' first
    | with_reducible apply State.Within.refl
    | (with_reducible apply State.Within.step (State.elapse_within ..)) <;> try decide
    | (with_reducible apply State.Within.step (State.orphan_within ..)) <;> try decide
    | (with_reducible apply State.Within.foldl) <;> try intro _ _
    | with_reducible apply State.Within.ite
    | dsimp only
    | split

theorem execTimeSlewTick_within (dt : Nat) (s : State) {t : State} (h : execTimeSlewTick dt s = .next t) : s.Within [.aon, .cas] t := by
  unfold execTimeSlewTick at h
  try dsimp only at h
  repeat' split at h
  all_goals cases h
  all_goals repeat' first
    | with_reducible apply State.Within.refl
    | (with_reducible apply State.Within.step (State.elapse_within ..)) <;> try decide
    | (with_reducible apply State.Within.step (State.onCas_within ..)) <;> try decide
    | (with_reducible apply State.Within.step (State.onAon_within ?_)) <;> try decide
    | exact fun a h => Aon.ok_sensor _ h (fun x hx => ⟨hx.1, satInc_lt ..⟩)
    | exact fun a h => Aon.ok_sensor _ h (fun x hx => ⟨satInc_lt .., hx.2⟩)
    | exact fun a h => Aon.ok_sensor _ h (fun x hx => by split <;> first | exact ⟨hx.1, satInc_lt ..⟩ | exact ⟨satInc_lt .., hx.2⟩)
    | exact fun a h => Aon.ok_sensor _ h (fun x hx => hx)
    | exact fun a h => Aon.ok_cause h (by decide)
    | exact fun a h => ⟨h.sensors, h.domains, h.counters, h.vset, h.thresh, h.causes⟩
    | exact fun _ h => ⟨h.sensors, h.domains, h.counters, h.vset, h.thresh, h.causes⟩
    | exact fun _ h => ⟨by simp [h.sensors], by simp [h.domains], h.counters, h.vset, h.thresh, h.causes⟩
    | (with_reducible apply State.Within.foldl) <;> try intro _ _
    | with_reducible apply State.Within.ite
    | dsimp only
    | split

theorem execGrantReq_within (dt : Nat) (hdr : MsgHdr) (tenant : Nat) (units : Nat) (s : State) {t : State} (h : execGrantReq dt hdr tenant units s = .next t) : s.Within [.out, .aon, .start, .sto, .ber, .mem, .cas] t := by
  unfold execGrantReq at h
  try dsimp only at h
  repeat' split at h
  all_goals cases h
  all_goals repeat' first
    | with_reducible apply State.Within.refl
    | (with_reducible apply State.Within.step (State.elapse_within ..)) <;> try decide
    | (with_reducible apply State.Within.step (State.hear_within (D := [.out, .aon, .start, .sto, .ber, .mem, .cas]) (by decide) ?_  ..)) <;> try decide
    | intro _
    | (with_reducible apply State.Within.step (State.masterGrant_within ..)) <;> try decide
    | (with_reducible apply State.Within.foldl) <;> try intro _ _
    | with_reducible apply State.Within.ite
    | dsimp only
    | split

theorem execGrant_within (dt : Nat) (hdr : MsgHdr) (tenant : Nat) (units : Nat) (s : State) {t : State} (h : execGrant dt hdr tenant units s = .next t) : s.Within [.out, .aon, .start, .egr, .str, .sto, .ber, .mem, .cas] t := by
  unfold execGrant at h
  try dsimp only at h
  repeat' split at h
  all_goals cases h
  all_goals repeat' first
    | with_reducible apply State.Within.refl
    | (with_reducible apply State.Within.step (State.elapse_within ..)) <;> try decide
    | (with_reducible apply State.Within.step (State.hear_within (D := [.out, .aon, .start, .egr, .str, .sto, .ber, .mem, .cas]) (by decide) ?_  ..)) <;> try decide
    | intro _
    | (with_reducible apply State.Within.step (State.granted_within ..)) <;> try decide
    | (with_reducible apply State.Within.step (State.settleOwn_within ..)) <;> try decide
    | (with_reducible apply State.Within.foldl) <;> try intro _ _
    | with_reducible apply State.Within.ite
    | dsimp only
    | split

theorem execLedger_within (dt : Nat) (hdr : MsgHdr) (change : LedgerChange) (s : State) {t : State} (h : execLedger dt hdr change s = .next t) : s.Within [.out, .freeCtr, .aon, .start, .ing, .egr, .img, .str, .sch, .sto, .ber, .mem, .cas] t := by
  unfold execLedger at h
  try dsimp only at h
  repeat' split at h
  all_goals cases h
  all_goals repeat' first
    | with_reducible apply State.Within.refl
    | (with_reducible apply State.Within.step (State.takeOver_within ..)) <;> try decide
    | (with_reducible apply State.Within.step (State.mirrorPut_within ..)) <;> try decide
    | (with_reducible apply State.Within.step (State.elapse_within ..)) <;> try decide
    | (with_reducible apply State.Within.step (State.hear_within (D := [.out, .freeCtr, .aon, .start, .ing, .egr, .img, .str, .sch, .sto, .ber, .mem, .cas]) (by decide) ?_  ..)) <;> try decide
    | intro _
    | (with_reducible apply State.Within.step (State.onCas_within ..)) <;> try decide
    | (with_reducible apply State.Within.step (State.followPut_within ..)) <;> try decide
    | (with_reducible apply State.Within.step (State.send_within ..)) <;> try decide
    | (with_reducible apply State.Within.foldl) <;> try intro _ _
    | with_reducible apply State.Within.ite
    | dsimp only
    | split

theorem execBudFwd_within (dt : Nat) (hdr : MsgHdr) (set : BudSet) (tag : Nat) (s : State) {t : State} (h : execBudFwd dt hdr set tag s = .next t) : s.Within [.out, .aon, .start, .egr, .str, .sto, .ber, .mem, .cas] t := by
  unfold execBudFwd at h
  try dsimp only at h
  repeat' split at h
  all_goals cases h
  all_goals repeat' first
    | with_reducible apply State.Within.refl
    | (with_reducible apply State.Within.step (State.elapse_within ..)) <;> try decide
    | (with_reducible apply State.Within.step (State.hear_within (D := [.out, .aon, .start, .egr, .str, .sto, .ber, .mem, .cas]) (by decide) ?_  ..)) <;> try decide
    | intro _
    | (with_reducible apply State.Within.step (State.masterSet_within (D := [.out, .aon, .start, .egr, .str, .sto, .ber, .mem, .cas]) (by decide) ?_ ?_ ..)) <;> try decide
    | (with_reducible apply State.Within.step (State.send_within ..)) <;> try decide
    | (with_reducible apply State.Within.foldl) <;> try intro _ _
    | with_reducible apply State.Within.ite
    | dsimp only
    | split

theorem execBudDone_within (dt : Nat) (hdr : MsgHdr) (tag : Nat) (status : Nat) (level : Int) (s : State) {t : State} (h : execBudDone dt hdr tag status level s = .next t) : s.Within [.out, .freeCtr, .aon, .start, .ing, .egr, .str, .ber, .mem, .cas] t := by
  unfold execBudDone at h
  try dsimp only at h
  repeat' split at h
  all_goals cases h
  all_goals repeat' first
    | with_reducible apply State.Within.refl
    | (with_reducible apply State.Within.step (State.elapse_within ..)) <;> try decide
    | (with_reducible apply State.Within.step (State.hear_within (D := [.out, .freeCtr, .aon, .start, .ing, .egr, .str, .ber, .mem, .cas]) (by decide) ?_  ..)) <;> try decide
    | intro _
    | (with_reducible apply State.Within.step (State.refuse_within ..)) <;> try decide
    | (with_reducible apply State.Within.step (State.onCas_within ..)) <;> try decide
    | (with_reducible apply State.Within.step (State.done_within ..)) <;> try decide
    | (with_reducible apply State.Within.foldl) <;> try intro _ _
    | with_reducible apply State.Within.ite
    | dsimp only
    | split

theorem execChainFind_within (dt : Nat) (hdr : MsgHdr) (handle : Nat) (tenant : Nat) (request : Nat) (s : State) {t : State} (h : execChainFind dt hdr handle tenant request s = .next t) : s.Within [.out, .aon, .start, .ber, .mem, .cas] t := by
  unfold execChainFind at h
  try dsimp only at h
  repeat' split at h
  all_goals cases h
  all_goals repeat' first
    | with_reducible apply State.Within.refl
    | (with_reducible apply State.Within.step (State.elapse_within ..)) <;> try decide
    | (with_reducible apply State.Within.step (State.hear_within (D := [.out, .aon, .start, .ber, .mem, .cas]) (by decide) ?_  ..)) <;> try decide
    | intro _
    | (with_reducible apply State.Within.step (State.answerChain_within ..)) <;> try decide
    | (with_reducible apply State.Within.foldl) <;> try intro _ _
    | with_reducible apply State.Within.ite
    | dsimp only
    | split

theorem execChainAns_within (dt : Nat) (hdr : MsgHdr) (request : Nat) (hit : Option ChainRec) (s : State) {t : State} (h : execChainAns dt hdr request hit s = .next t) : s.Within [.out, .freeCtr, .aon, .start, .ing, .egr, .img, .str, .sch, .sto, .ber, .mem, .cas] t := by
  unfold execChainAns at h
  try dsimp only at h
  repeat' split at h
  all_goals cases h
  all_goals repeat' first
    | with_reducible apply State.Within.refl
    | (with_reducible apply State.Within.step (State.elapse_within ..)) <;> try decide
    | (with_reducible apply State.Within.step (State.hear_within (D := [.out, .freeCtr, .aon, .start, .ing, .egr, .img, .str, .sch, .sto, .ber, .mem, .cas]) (by decide) ?_  ..)) <;> try decide
    | intro _
    | (with_reducible apply State.Within.step (State.onCas_within ..)) <;> try decide
    | (with_reducible apply State.Within.step (State.settleChain_within ..)) <;> try decide
    | (with_reducible apply State.Within.foldl) <;> try intro _ _
    | with_reducible apply State.Within.ite
    | dsimp only
    | split

theorem execChainFindTimeout_within (dt : Nat) (request : Nat) (s : State) {t : State} (h : execChainFindTimeout dt request s = .next t) : s.Within [.out, .freeCtr, .aon, .ing, .egr, .img, .str, .sch, .sto, .ber, .mem, .cas] t := by
  unfold execChainFindTimeout at h
  try dsimp only at h
  repeat' split at h
  all_goals cases h
  all_goals repeat' first
    | with_reducible apply State.Within.refl
    | (with_reducible apply State.Within.step (State.elapse_within ..)) <;> try decide
    | (with_reducible apply State.Within.step (State.decideChain_within ..)) <;> try decide
    | (with_reducible apply State.Within.foldl) <;> try intro _ _
    | with_reducible apply State.Within.ite
    | dsimp only
    | split

theorem execPfxCopy_within (dt : Nat) (hdr : MsgHdr) (handle : Nat) (tenant : Nat) (pages : List Nat) (s : State) {t : State} (h : execPfxCopy dt hdr handle tenant pages s = .next t) : s.Within [.out, .aon, .start, .sto, .ber, .mem, .cas] t := by
  unfold execPfxCopy at h
  try dsimp only at h
  repeat' split at h
  all_goals cases h
  all_goals repeat' first
    | with_reducible apply State.Within.refl
    | (with_reducible apply State.Within.step (State.elapse_within ..)) <;> try decide
    | (with_reducible apply State.Within.step (State.hear_within (D := [.out, .aon, .start, .sto, .ber, .mem, .cas]) (by decide) ?_  ..)) <;> try decide
    | intro _
    | (with_reducible apply State.Within.step (State.onCas_within ..)) <;> try decide
    | (with_reducible apply State.Within.step (State.attach_within ..)) <;> try decide
    | (with_reducible apply State.Within.step (State.emit_within ..)) <;> try decide
    | (with_reducible apply State.Within.foldl) <;> try intro _ _
    | with_reducible apply State.Within.ite
    | dsimp only
    | split

theorem execPfxCopyDone_within (dt : Nat) (handle : Nat) (tenant : Nat) (s : State) {t : State} (h : execPfxCopyDone dt handle tenant s = .next t) : s.Within [.out, .freeCtr, .aon, .ing, .egr, .str, .sch, .sto, .ber, .mem, .cas] t := by
  unfold execPfxCopyDone at h
  try dsimp only at h
  repeat' split at h
  all_goals cases h
  all_goals repeat' first
    | with_reducible apply State.Within.refl
    | (with_reducible apply State.Within.step (State.finishOpen_within ..)) <;> try decide
    | (with_reducible apply State.Within.step (State.onStream_within ..)) <;> try decide
    | (with_reducible apply State.Within.step (State.elapse_within ..)) <;> try decide
    | (with_reducible apply State.Within.step (State.attachPrefix_within ..)) <;> try decide
    | (with_reducible apply State.Within.step (State.onCas_within ..)) <;> try decide
    | (with_reducible apply State.Within.step (State.detach_within ..)) <;> try decide
    | (with_reducible apply State.Within.foldl) <;> try intro _ _
    | with_reducible apply State.Within.ite
    | dsimp only
    | split

theorem execLeave_within (dt : Nat) (hdr : MsgHdr) (sleep : Bool) (units : List (Nat × Nat)) (s : State) {t : State} (h : execLeave dt hdr sleep units s = .next t) : s.Within [.out, .freeCtr, .aon, .start, .ing, .egr, .img, .str, .sch, .sto, .ber, .mem, .cas] t := by
  unfold execLeave at h
  try dsimp only at h
  repeat' split at h
  all_goals cases h
  all_goals repeat' first
    | with_reducible apply State.Within.refl
    | (with_reducible apply State.Within.step (State.elapse_within ..)) <;> try decide
    | (with_reducible apply State.Within.step (State.hear_within (D := [.out, .freeCtr, .aon, .start, .ing, .egr, .img, .str, .sch, .sto, .ber, .mem, .cas]) (by decide) ?_  ..)) <;> try decide
    | intro _
    | (with_reducible apply State.Within.step (State.takeBack_within ..)) <;> try decide
    | (with_reducible apply State.Within.step (State.onCas_within ..)) <;> try decide
    | (with_reducible apply State.Within.step (State.memberGone_within ..)) <;> try decide
    | (with_reducible apply State.Within.step (State.notLive_within ..)) <;> try decide
    | (with_reducible apply State.Within.foldl) <;> try intro _ _
    | with_reducible apply State.Within.ite
    | dsimp only
    | split

theorem execDown_within (dt : Nat) (hdr : MsgHdr) (lost : Nat) (s : State) {t : State} (h : execDown dt hdr lost s = .next t) : s.Within [.out, .aon, .start, .ber, .mem, .cas] t := by
  unfold execDown at h
  try dsimp only at h
  repeat' split at h
  all_goals cases h
  all_goals repeat' first
    | with_reducible apply State.Within.refl
    | (with_reducible apply State.Within.step (State.elapse_within ..)) <;> try decide
    | (with_reducible apply State.Within.step (State.hear_within (D := [.out, .aon, .start, .ber, .mem, .cas]) (by decide) ?_  ..)) <;> try decide
    | intro _
    | (with_reducible apply State.Within.step (State.onCas_within ..)) <;> try decide
    | (with_reducible apply State.Within.step (State.send_within ..)) <;> try decide
    | (with_reducible apply State.Within.foldl) <;> try intro _ _
    | with_reducible apply State.Within.ite
    | dsimp only
    | split

theorem execRescue_within (dt : Nat) (hdr : MsgHdr) (lost : Nat) (streams : List PkgBody) (s : State) {t : State} (h : execRescue dt hdr lost streams s = .next t) : s.Within [.out, .freeCtr, .aon, .start, .ing, .egr, .img, .str, .sch, .sto, .ber, .mem, .cas] t := by
  unfold execRescue at h
  try dsimp only at h
  repeat' split at h
  all_goals cases h
  all_goals repeat' first
    | with_reducible apply State.Within.refl
    | (with_reducible apply State.Within.step (State.elapse_within ..)) <;> try decide
    | (with_reducible apply State.Within.step (State.onCas_within ..)) <;> try decide
    | (with_reducible apply State.Within.step (State.arrives_within (D := [.out, .freeCtr, .aon, .start, .ing, .egr, .img, .str, .sch, .sto, .ber, .mem, .cas]) (by decide) ?_  ..)) <;> try decide
    | intro _
    | (with_reducible apply State.Within.step (State.rescueOne_within ..)) <;> try decide
    | (with_reducible apply State.Within.step (State.send_within ..)) <;> try decide
    | (with_reducible apply State.Within.foldl) <;> try intro _ _
    | with_reducible apply State.Within.ite
    | dsimp only
    | split

theorem execLinkUnreachable_within (dt : Nat) (member : Nat) (s : State) {t : State} (h : execLinkUnreachable dt member s = .next t) : s.Within [.out, .freeCtr, .aon, .ing, .egr, .img, .str, .sch, .sto, .ber, .mem, .cas] t := by
  unfold execLinkUnreachable at h
  try dsimp only at h
  repeat' split at h
  all_goals cases h
  all_goals repeat' first
    | with_reducible apply State.Within.refl
    | (with_reducible apply State.Within.step (State.elapse_within ..)) <;> try decide
    | (with_reducible apply State.Within.step (State.depart_within ..)) <;> try decide
    | (with_reducible apply State.Within.step (State.onCas_within ..)) <;> try decide
    | (with_reducible apply State.Within.step (State.memberGone_within ..)) <;> try decide
    | (with_reducible apply State.Within.foldl) <;> try intro _ _
    | with_reducible apply State.Within.ite
    | dsimp only
    | split

theorem execBerylSearch_within (dt : Nat) (search : SearchIn) (s : State) {t : State} (h : execBerylSearch dt search s = .next t) : s.Within [.out, .aon, .egr, .img, .str, .sch, .sto, .ber, .mem] t := by
  unfold execBerylSearch at h
  try dsimp only at h
  repeat' split at h
  all_goals cases h
  all_goals repeat' first
    | with_reducible apply State.Within.refl
    | (with_reducible apply State.Within.step (State.elapse_within ..)) <;> try decide
    | (with_reducible apply State.Within.step (State.upset_within ..)) <;> try decide
    | (with_reducible apply State.Within.step (State.onBer_within ..)) <;> try decide
    | (with_reducible apply State.Within.step (State.search_within ..)) <;> try decide
    | (with_reducible apply State.Within.step (State.drainBeryl_within ..)) <;> try decide
    | (with_reducible apply State.Within.foldl) <;> try intro _ _
    | with_reducible apply State.Within.ite
    | dsimp only
    | split

theorem execSlotStealingUpdate_within (dt : Nat) (channel : Nat) (bank : Nat) (update : BerylUpdate) (s : State) {t : State} (h : execSlotStealingUpdate dt channel bank update s = .next t) : s.Within [.out, .aon, .egr, .img, .str, .sch, .sto, .ber, .mem] t := by
  unfold execSlotStealingUpdate at h
  try dsimp only at h
  repeat' split at h
  all_goals cases h
  all_goals repeat' first
    | with_reducible apply State.Within.refl
    | (with_reducible apply State.Within.step (State.elapse_within ..)) <;> try decide
    | (with_reducible apply State.Within.step (State.updateOrWait_within ..)) <;> try decide
    | (with_reducible apply State.Within.step (State.drainBeryl_within ..)) <;> try decide
    | (with_reducible apply State.Within.foldl) <;> try intro _ _
    | with_reducible apply State.Within.ite
    | dsimp only
    | split

theorem execThreeStepUpdate_within (dt : Nat) (channel : Nat) (bank : Nat) (steps : UpdateSteps) (s : State) {t : State} (h : execThreeStepUpdate dt channel bank steps s = .next t) : s.Within [.out, .aon, .egr, .img, .str, .sch, .sto, .ber, .mem] t := by
  unfold execThreeStepUpdate at h
  try dsimp only at h
  repeat' split at h
  all_goals cases h
  all_goals repeat' first
    | with_reducible apply State.Within.refl
    | (with_reducible apply State.Within.step (State.stepWindow_within ..)) <;> try decide
    | (with_reducible apply State.Within.step (State.waitIn_within ..)) <;> try decide
    | (with_reducible apply State.Within.step (State.elapse_within ..)) <;> try decide
    | (with_reducible apply State.Within.step (State.updateOrWait_within ..)) <;> try decide
    | (with_reducible apply State.Within.step (State.openWindow_within ..)) <;> try decide
    | (with_reducible apply State.Within.step (State.drainBeryl_within ..)) <;> try decide
    | (with_reducible apply State.Within.foldl) <;> try intro _ _
    | with_reducible apply State.Within.ite
    | dsimp only
    | split

theorem execBerylMoveDone_within (dt : Nat) (bank : Nat) (s : State) {t : State} (h : execBerylMoveDone dt bank s = .next t) : s.Within [.out, .aon, .egr, .img, .str, .sch, .sto, .ber, .mem] t := by
  unfold execBerylMoveDone at h
  try dsimp only at h
  repeat' split at h
  all_goals cases h
  all_goals repeat' first
    | with_reducible apply State.Within.refl
    | (with_reducible apply State.Within.step (State.elapse_within ..)) <;> try decide
    | (with_reducible apply State.Within.step (State.moveRun_within ..)) <;> try decide
    | (with_reducible apply State.Within.step (State.onBer_within ..)) <;> try decide
    | (with_reducible apply State.Within.step (State.drainBeryl_within ..)) <;> try decide
    | (with_reducible apply State.Within.foldl) <;> try intro _ _
    | with_reducible apply State.Within.ite
    | dsimp only
    | split

theorem execCompactor_within (dt : Nat) (bank : Nat) (s : State) {t : State} (h : execCompactor dt bank s = .next t) : s.Within [.out, .aon, .egr, .img, .str, .sch, .sto, .ber, .mem] t := by
  unfold execCompactor at h
  try dsimp only at h
  repeat' split at h
  all_goals cases h
  all_goals repeat' first
    | with_reducible apply State.Within.refl
    | (with_reducible apply State.Within.step (State.elapse_within ..)) <;> try decide
    | (with_reducible apply State.Within.step (State.drainBeryl_within ..)) <;> try decide
    | (with_reducible apply State.Within.step (State.closeHole_within ..)) <;> try decide
    | (with_reducible apply State.Within.foldl) <;> try intro _ _
    | with_reducible apply State.Within.ite
    | dsimp only
    | split

theorem execCamScrub_within (dt : Nat) (scrub : ScrubIn) (s : State) {t : State} (h : execCamScrub dt scrub s = .next t) : s.Within [.out, .aon, .egr, .img, .str, .sch, .sto, .ber, .mem] t := by
  unfold execCamScrub at h
  try dsimp only at h
  repeat' split at h
  all_goals cases h
  all_goals repeat' first
    | with_reducible apply State.Within.refl
    | (with_reducible apply State.Within.step (State.bankCount_within ..)) <;> try decide
    | (with_reducible apply State.Within.step (State.elapse_within ..)) <;> try decide
    | (with_reducible apply State.Within.step (State.raise_within ..)) <;> try decide
    | (with_reducible apply State.Within.step (State.upset_within ..)) <;> try decide
    | (with_reducible apply State.Within.step (State.failBank_within ..)) <;> try decide
    | (with_reducible apply State.Within.step (State.onBer_within ..)) <;> try decide
    | (with_reducible apply State.Within.step (State.writeRow_within ..)) <;> try decide
    | (with_reducible apply State.Within.step (State.recordCorrection_within ..)) <;> try decide
    | (with_reducible apply State.Within.step (State.drainBeryl_within ..)) <;> try decide
    | (with_reducible apply State.Within.foldl) <;> try intro _ _
    | with_reducible apply State.Within.ite
    | dsimp only
    | split

theorem execBankReload_within (dt : Nat) (bank : Nat) (s : State) {t : State} (h : execBankReload dt bank s = .next t) :
    s.Within [.out, .aon, .egr, .img, .str, .sch, .sto, .ber, .mem] t := by
  have h0 : s.Within [.out, .aon, .egr, .img, .str, .sch, .sto, .ber, .mem] (s.elapse dt) := (State.elapse_within ..).mono (by decide)
  unfold execBankReload at h
  rw [Host.Outcome.next.injEq] at h
  subst h
  exact .ite (.step (State.drainBeryl_within ..) (by decide) (.step (State.failBank_within ..) (by decide)
    (.step (State.drainBeryl_within ..) (by decide) h0))) h0

theorem execBankReloadDone_within (dt : Nat) (bank : Nat) (s : State) {t : State} (h : execBankReloadDone dt bank s = .next t) : s.Within [.out, .aon, .egr, .img, .str, .sch, .sto, .ber, .mem] t := by
  unfold execBankReloadDone at h
  try dsimp only at h
  repeat' split at h
  all_goals cases h
  all_goals repeat' first
    | with_reducible apply State.Within.refl
    | (with_reducible apply State.Within.step (State.logicalCount_within ..)) <;> try decide
    | (with_reducible apply State.Within.step (State.elapse_within ..)) <;> try decide
    | (with_reducible apply State.Within.step (State.onBer_within ..)) <;> try decide
    | (with_reducible apply State.Within.step (State.drainBeryl_within ..)) <;> try decide
    | (with_reducible apply State.Within.foldl) <;> try intro _ _
    | with_reducible apply State.Within.ite
    | dsimp only
    | split

theorem execPatrolScrub_within (dt : Nat) (array : Nat) (scrub : PatrolIn) (s : State) {t : State} (h : execPatrolScrub dt array scrub s = .next t) : s.Within [.out, .freeCtr, .aon, .start, .ing, .egr, .img, .str, .sch, .sto, .ber, .mem, .cas] t := by
  unfold execPatrolScrub at h
  try dsimp only at h
  repeat' split at h
  all_goals cases h
  all_goals repeat' first
    | with_reducible apply State.Within.refl
    | (with_reducible apply State.Within.step (State.onMem_within ?_)) <;> try decide
    | exact fun _ h => ⟨h.units, h.arrays, h.patrol, h.counts, h.bound⟩
    | exact fun _ h => ⟨by simp [h.units], by simp [h.arrays], by simp [h.patrol], h.counts, h.bound⟩
    | (with_reducible apply State.Within.step (State.elapse_within ..)) <;> try decide
    | (with_reducible apply State.Within.step (State.scrubWord_within ..)) <;> try decide
    | (with_reducible apply State.Within.foldl) <;> try intro _ _
    | with_reducible apply State.Within.ite
    | dsimp only
    | split

theorem execUnitFault_within (dt : Nat) (kind : Nat) (inst : Nat) (work : FaultWork) (s : State) {t : State} (h : execUnitFault dt kind inst work s = .next t) : s.Within [.out, .freeCtr, .aon, .start, .ing, .egr, .img, .str, .sch, .sto, .ber, .mem] t := by
  unfold execUnitFault at h
  try dsimp only at h
  repeat' split at h
  all_goals cases h
  all_goals repeat' first
    | with_reducible apply State.Within.refl
    | (with_reducible apply State.Within.step (State.onUnit_within ..)) <;> try decide
    | (with_reducible apply State.Within.step (State.unitFails_within ..)) <;> try decide
    | (with_reducible apply State.Within.step (State.elapse_within ..)) <;> try decide
    | (with_reducible apply State.Within.step (State.failBank_within ..)) <;> try decide
    | (with_reducible apply State.Within.step (State.lockstep_within ..)) <;> try decide
    | (with_reducible apply State.Within.foldl) <;> try intro _ _
    | with_reducible apply State.Within.ite
    | dsimp only
    | split

theorem execLockstepMismatch_within (dt : Nat) (s : State) {t : State} (h : execLockstepMismatch dt s = .next t) : s.Within [.out, .freeCtr, .aon, .start, .ing, .egr, .str, .sch, .mem] t := by
  unfold execLockstepMismatch at h
  try dsimp only at h
  repeat' split at h
  all_goals cases h
  all_goals repeat' first
    | with_reducible apply State.Within.refl
    | (with_reducible apply State.Within.step (State.elapse_within ..)) <;> try decide
    | (with_reducible apply State.Within.step (State.lockstep_within ..)) <;> try decide
    | (with_reducible apply State.Within.foldl) <;> try intro _ _
    | with_reducible apply State.Within.ite
    | dsimp only
    | split

theorem execSillResume_within (dt : Nat) (passed : Bool) (s : State) {t : State} (h : execSillResume dt passed s = .next t) : s.Within [.out, .freeCtr, .aon, .start, .ing, .egr, .str, .sch, .mem] t := by
  unfold execSillResume at h
  try dsimp only at h
  repeat' split at h
  all_goals cases h
  all_goals repeat' first
    | with_reducible apply State.Within.refl
    | (with_reducible apply State.Within.step (State.onUnit_within ..)) <;> try decide
    | (with_reducible apply State.Within.step (State.onMem_within ?_)) <;> try decide
    | exact fun _ h => ⟨h.units, h.arrays, h.patrol, h.counts, h.bound⟩
    | exact fun _ h => ⟨by simp [h.units], by simp [h.arrays], by simp [h.patrol], h.counts, h.bound⟩
    | (with_reducible apply State.Within.step (State.elapse_within ..)) <;> try decide
    | (with_reducible apply State.Within.step (State.makeSuspect_within ..)) <;> try decide
    | (with_reducible apply State.Within.step (State.raise_within ..)) <;> try decide
    | (with_reducible apply State.Within.step (State.makePermanent_within ..)) <;> try decide
    | (with_reducible apply State.Within.step (State.blockDown_within ..)) <;> try decide
    | (with_reducible apply State.Within.step (State.event_within ..)) <;> try decide
    | (with_reducible apply State.Within.foldl) <;> try intro _ _
    | with_reducible apply State.Within.ite
    | dsimp only
    | split

theorem execInfieldTestDue_within (dt : Nat) (kind : Nat) (inst : Nat) (s : State) {t : State} (h : execInfieldTestDue dt kind inst s = .next t) : s.Within [.out, .aon, .egr, .str, .sch, .mem] t := by
  unfold execInfieldTestDue at h
  try dsimp only at h
  repeat' split at h
  all_goals cases h
  all_goals repeat' first
    | with_reducible apply State.Within.refl
    | (with_reducible apply State.Within.step (State.beginTest_within ..)) <;> try decide
    | (with_reducible apply State.Within.step (State.onUnit_within ..)) <;> try decide
    | (with_reducible apply State.Within.step (State.elapse_within ..)) <;> try decide
    | (with_reducible apply State.Within.foldl) <;> try intro _ _
    | with_reducible apply State.Within.ite
    | dsimp only
    | split

theorem execInfieldTestDone_within (dt : Nat) (kind : Nat) (inst : Nat) (passed : Bool) (agreed : Bool) (s : State) {t : State} (h : execInfieldTestDone dt kind inst passed agreed s = .next t) : s.Within [.out, .freeCtr, .aon, .start, .ing, .egr, .str, .sch, .mem] t := by
  unfold execInfieldTestDone at h
  try dsimp only at h
  repeat' split at h
  all_goals cases h
  all_goals repeat' first
    | with_reducible apply State.Within.refl
    | (with_reducible apply State.Within.step (State.endTest_within ..)) <;> try decide
    | (with_reducible apply State.Within.step (State.elapse_within ..)) <;> try decide
    | (with_reducible apply State.Within.foldl) <;> try intro _ _
    | with_reducible apply State.Within.ite
    | dsimp only
    | split

theorem execSuspectAgeExpiry_within (dt : Nat) (kind : Nat) (inst : Nat) (s : State) {t : State} (h : execSuspectAgeExpiry dt kind inst s = .next t) : s.Within [.aon, .mem] t := by
  unfold execSuspectAgeExpiry at h
  try dsimp only at h
  repeat' split at h
  all_goals cases h
  all_goals repeat' first
    | with_reducible apply State.Within.refl
    | (with_reducible apply State.Within.step (State.onUnit_within ..)) <;> try decide
    | (with_reducible apply State.Within.step (State.elapse_within ..)) <;> try decide
    | (with_reducible apply State.Within.step (State.noteUnit_within ..)) <;> try decide
    | (with_reducible apply State.Within.foldl) <;> try intro _ _
    | with_reducible apply State.Within.ite
    | dsimp only
    | split

theorem execHistoryWriteback_within (dt : Nat) (s : State) {t : State} (h : execHistoryWriteback dt s = .next t) : s.Within [.out, .aon, .mem] t := by
  unfold execHistoryWriteback at h
  try dsimp only at h
  repeat' split at h
  all_goals cases h
  all_goals repeat' first
    | with_reducible apply State.Within.refl
    | (with_reducible apply State.Within.step (State.onMem_within ?_)) <;> try decide
    | exact fun _ h => ⟨h.units, h.arrays, h.patrol, h.counts, h.bound⟩
    | exact fun _ h => ⟨by simp [h.units], by simp [h.arrays], by simp [h.patrol], h.counts, h.bound⟩
    | (with_reducible apply State.Within.step (State.elapse_within ..)) <;> try decide
    | (with_reducible apply State.Within.step (State.emit_within ..)) <;> try decide
    | (with_reducible apply State.Within.foldl) <;> try intro _ _
    | with_reducible apply State.Within.ite
    | dsimp only
    | split

theorem execMcDelivery_within (dt : Nat) (delivery : Delivery) (s : State) {t : State} (h : execMcDelivery dt delivery s = .next t) : s.Within [.out, .aon, .start, .egr, .img, .str, .sto, .ber, .mem, .cas] t := by
  unfold execMcDelivery at h
  try dsimp only at h
  repeat' split at h
  all_goals cases h
  all_goals repeat' first
    | with_reducible apply State.Within.refl
    | (with_reducible apply State.Within.step (State.takeBoot_within ..)) <;> try decide
    | (with_reducible apply State.Within.step (State.elapse_within ..)) <;> try decide
    | (with_reducible apply State.Within.step (State.takeHistory_within ..)) <;> try decide
    | (with_reducible apply State.Within.step (State.wakeCause_within ..)) <;> try decide
    | (with_reducible apply State.Within.step (State.takeFirmware_within ..)) <;> try decide
    | (with_reducible apply State.Within.foldl) <;> try intro _ _
    | with_reducible apply State.Within.ite
    | dsimp only
    | split

theorem execColdStart_within (dt : Nat) (fails : List (Nat × Cell)) (s : State) {t : State} (h : execColdStart dt fails s = .next t) : s.Within [.out, .aon, .start] t := by
  unfold execColdStart at h
  try dsimp only at h
  repeat' split at h
  all_goals cases h
  all_goals repeat' first
    | with_reducible apply State.Within.refl
    | (with_reducible apply State.Within.step (State.elapse_within ..)) <;> try decide
    | (with_reducible apply State.Within.step (State.beginStart_within ..)) <;> try decide
    | (with_reducible apply State.Within.foldl) <;> try intro _ _
    | with_reducible apply State.Within.ite
    | dsimp only
    | split

theorem execWarmStart_within (dt : Nat) (fails : List (Nat × Cell)) (s : State) {t : State} (h : execWarmStart dt fails s = .next t) : s.Within [.out, .aon, .start] t := by
  unfold execWarmStart at h
  try dsimp only at h
  repeat' split at h
  all_goals cases h
  all_goals repeat' first
    | with_reducible apply State.Within.refl
    | (with_reducible apply State.Within.step (State.elapse_within ..)) <;> try decide
    | (with_reducible apply State.Within.step (State.beginStart_within ..)) <;> try decide
    | (with_reducible apply State.Within.foldl) <;> try intro _ _
    | with_reducible apply State.Within.ite
    | dsimp only
    | split

theorem execRailLoss_within (dt : Nat) (aonKept : Bool) (s : State) {t : State} (h : execRailLoss dt aonKept s = .next t) : s.Within [.out, .freeCtr, .aon, .start, .ing, .egr, .img, .str, .sch, .sto, .ber, .mem, .cas] t := by
  unfold execRailLoss at h
  try dsimp only at h
  repeat' split at h
  all_goals cases h
  all_goals repeat' first
    | with_reducible apply State.Within.refl
    | (with_reducible apply State.Within.step (State.elapse_within ..)) <;> try decide
    | (with_reducible apply State.Within.step (State.onAon_within ?_)) <;> try decide
    | exact fun a h => Aon.ok_sensor _ h (fun x hx => ⟨hx.1, satInc_lt ..⟩)
    | exact fun a h => Aon.ok_sensor _ h (fun x hx => ⟨satInc_lt .., hx.2⟩)
    | exact fun a h => Aon.ok_sensor _ h (fun x hx => by split <;> first | exact ⟨hx.1, satInc_lt ..⟩ | exact ⟨satInc_lt .., hx.2⟩)
    | exact fun a h => Aon.ok_sensor _ h (fun x hx => hx)
    | exact fun a h => Aon.ok_cause h (by decide)
    | exact fun a h => ⟨h.sensors, h.domains, h.counters, h.vset, h.thresh, h.causes⟩
    | exact fun _ h => ⟨h.sensors, h.domains, h.counters, h.vset, h.thresh, h.causes⟩
    | exact fun _ h => ⟨by simp [h.sensors], by simp [h.domains], h.counters, h.vset, h.thresh, h.causes⟩
    | (with_reducible apply State.Within.step (State.lost_within ..)) <;> try decide
    | (with_reducible apply State.Within.foldl) <;> try intro _ _
    | with_reducible apply State.Within.ite
    | dsimp only
    | split

theorem execSleepEntry_within (dt : Nat) (s : State) {t : State} (h : execSleepEntry dt s = .next t) : s.Within [.out, .aon, .start] t := by
  unfold execSleepEntry at h
  try dsimp only at h
  repeat' split at h
  all_goals cases h
  all_goals repeat' first
    | with_reducible apply State.Within.refl
    | (with_reducible apply State.Within.step (State.elapse_within ..)) <;> try decide
    | (with_reducible apply State.Within.step (State.onStart_within ..)) <;> try decide
    | (with_reducible apply State.Within.step (State.onAon_within ?_)) <;> try decide
    | exact fun a h => Aon.ok_sensor _ h (fun x hx => ⟨hx.1, satInc_lt ..⟩)
    | exact fun a h => Aon.ok_sensor _ h (fun x hx => ⟨satInc_lt .., hx.2⟩)
    | exact fun a h => Aon.ok_sensor _ h (fun x hx => by split <;> first | exact ⟨hx.1, satInc_lt ..⟩ | exact ⟨satInc_lt .., hx.2⟩)
    | exact fun a h => Aon.ok_sensor _ h (fun x hx => hx)
    | exact fun a h => Aon.ok_cause h (by decide)
    | exact fun a h => ⟨h.sensors, h.domains, h.counters, h.vset, h.thresh, h.causes⟩
    | exact fun _ h => ⟨h.sensors, h.domains, h.counters, h.vset, h.thresh, h.causes⟩
    | exact fun _ h => ⟨by simp [h.sensors], by simp [h.domains], h.counters, h.vset, h.thresh, h.causes⟩
    | (with_reducible apply State.Within.step (State.send_within ..)) <;> try decide
    | (with_reducible apply State.Within.step (State.emit_within ..)) <;> try decide
    | (with_reducible apply State.Within.foldl) <;> try intro _ _
    | with_reducible apply State.Within.ite
    | dsimp only
    | split

theorem execWakeTimerExpiry_within (dt : Nat) (s : State) {t : State} (h : execWakeTimerExpiry dt s = .next t) : s.Within [.out, .aon, .start, .ber, .mem, .cas] t := by
  unfold execWakeTimerExpiry at h
  try dsimp only at h
  repeat' split at h
  all_goals cases h
  all_goals repeat' first
    | with_reducible apply State.Within.refl
    | (with_reducible apply State.Within.step (State.elapse_within ..)) <;> try decide
    | (with_reducible apply State.Within.step (State.wakeCause_within ..)) <;> try decide
    | (with_reducible apply State.Within.foldl) <;> try intro _ _
    | with_reducible apply State.Within.ite
    | dsimp only
    | split

theorem execFullWake_within (dt : Nat) (s : State) {t : State} (h : execFullWake dt s = .next t) : s.Within [.out, .aon, .start, .ber, .mem, .cas] t := by
  unfold execFullWake at h
  try dsimp only at h
  repeat' split at h
  all_goals cases h
  all_goals repeat' first
    | with_reducible apply State.Within.refl
    | (with_reducible apply State.Within.step (State.elapse_within ..)) <;> try decide
    | (with_reducible apply State.Within.step (State.wakeCause_within ..)) <;> try decide
    | (with_reducible apply State.Within.foldl) <;> try intro _ _
    | with_reducible apply State.Within.ite
    | dsimp only
    | split

theorem execDomainWake_within (dt : Nat) (domain : Nat) (s : State) {t : State} (h : execDomainWake dt domain s = .next t) : s.Within [.aon] t := by
  unfold execDomainWake at h
  try dsimp only at h
  repeat' split at h
  all_goals cases h
  all_goals repeat' first
    | with_reducible apply State.Within.refl
    | (with_reducible apply State.Within.step (State.setDomain_within ..)) <;> try decide
    | (with_reducible apply State.Within.step (State.elapse_within ..)) <;> try decide
    | (with_reducible apply State.Within.foldl) <;> try intro _ _
    | with_reducible apply State.Within.ite
    | dsimp only
    | split

theorem execDomainPark_within (dt : Nat) (domain : Nat) (s : State) {t : State} (h : execDomainPark dt domain s = .next t) : s.Within [.aon] t := by
  unfold execDomainPark at h
  try dsimp only at h
  repeat' split at h
  all_goals cases h
  all_goals repeat' first
    | with_reducible apply State.Within.refl
    | (with_reducible apply State.Within.step (State.setDomain_within ..)) <;> try decide
    | (with_reducible apply State.Within.step (State.elapse_within ..)) <;> try decide
    | (with_reducible apply State.Within.foldl) <;> try intro _ _
    | with_reducible apply State.Within.ite
    | dsimp only
    | split

theorem execDomainOff_within (dt : Nat) (domain : Nat) (s : State) {t : State} (h : execDomainOff dt domain s = .next t) : s.Within [.aon] t := by
  unfold execDomainOff at h
  try dsimp only at h
  repeat' split at h
  all_goals cases h
  all_goals repeat' first
    | with_reducible apply State.Within.refl
    | (with_reducible apply State.Within.step (State.setDomain_within ..)) <;> try decide
    | (with_reducible apply State.Within.step (State.elapse_within ..)) <;> try decide
    | (with_reducible apply State.Within.foldl) <;> try intro _ _
    | with_reducible apply State.Within.ite
    | dsimp only
    | split

theorem execDroopTrip_within (dt : Nat) (sensor : Nat) (deep : Bool) (s : State) {t : State} (h : execDroopTrip dt sensor deep s = .next t) : s.Within [.aon] t := by
  unfold execDroopTrip at h
  try dsimp only at h
  repeat' split at h
  all_goals cases h
  all_goals repeat' first
    | with_reducible apply State.Within.refl
    | (with_reducible apply State.Within.step (State.elapse_within ..)) <;> try decide
    | (with_reducible apply State.Within.step (State.onAon_within ?_)) <;> try decide
    | exact fun a h => Aon.ok_sensor _ h (fun x hx => ⟨hx.1, satInc_lt ..⟩)
    | exact fun a h => Aon.ok_sensor _ h (fun x hx => ⟨satInc_lt .., hx.2⟩)
    | exact fun a h => Aon.ok_sensor _ h (fun x hx => by split <;> first | exact ⟨hx.1, satInc_lt ..⟩ | exact ⟨satInc_lt .., hx.2⟩)
    | exact fun a h => Aon.ok_sensor _ h (fun x hx => hx)
    | exact fun a h => Aon.ok_cause h (by decide)
    | exact fun a h => ⟨h.sensors, h.domains, h.counters, h.vset, h.thresh, h.causes⟩
    | exact fun _ h => ⟨h.sensors, h.domains, h.counters, h.vset, h.thresh, h.causes⟩
    | exact fun _ h => ⟨by simp [h.sensors], by simp [h.domains], h.counters, h.vset, h.thresh, h.causes⟩
    | (with_reducible apply State.Within.foldl) <;> try intro _ _
    | with_reducible apply State.Within.ite
    | dsimp only
    | split

theorem execDroopRelease_within (dt : Nat) (sensor : Nat) (s : State) {t : State} (h : execDroopRelease dt sensor s = .next t) : s.Within [.aon] t := by
  unfold execDroopRelease at h
  try dsimp only at h
  repeat' split at h
  all_goals cases h
  all_goals repeat' first
    | with_reducible apply State.Within.refl
    | (with_reducible apply State.Within.step (State.elapse_within ..)) <;> try decide
    | (with_reducible apply State.Within.step (State.onAon_within ?_)) <;> try decide
    | exact fun a h => Aon.ok_sensor _ h (fun x hx => ⟨hx.1, satInc_lt ..⟩)
    | exact fun a h => Aon.ok_sensor _ h (fun x hx => ⟨satInc_lt .., hx.2⟩)
    | exact fun a h => Aon.ok_sensor _ h (fun x hx => by split <;> first | exact ⟨hx.1, satInc_lt ..⟩ | exact ⟨satInc_lt .., hx.2⟩)
    | exact fun a h => Aon.ok_sensor _ h (fun x hx => hx)
    | exact fun a h => Aon.ok_cause h (by decide)
    | exact fun a h => ⟨h.sensors, h.domains, h.counters, h.vset, h.thresh, h.causes⟩
    | exact fun _ h => ⟨h.sensors, h.domains, h.counters, h.vset, h.thresh, h.causes⟩
    | exact fun _ h => ⟨by simp [h.sensors], by simp [h.domains], h.counters, h.vset, h.thresh, h.causes⟩
    | (with_reducible apply State.Within.foldl) <;> try intro _ _
    | with_reducible apply State.Within.ite
    | dsimp only
    | split

theorem execSleepRequest_within (dt : Nat) (vset : Nat) (autoGate : Bool) (s : State) {t : State} (h : execSleepRequest dt vset autoGate s = .next t) : s.Within [.out, .aon, .start, .ber, .mem, .cas] t := by
  unfold execSleepRequest at h
  try dsimp only at h
  repeat' split at h
  all_goals cases h
  all_goals repeat' first
    | with_reducible apply State.Within.refl
    | (with_reducible apply State.Within.step (State.aonCtl_within ..)) <;> try decide
    | (with_reducible apply State.Within.step (State.elapse_within ..)) <;> try decide
    | (with_reducible apply State.Within.foldl) <;> try intro _ _
    | with_reducible apply State.Within.ite
    | dsimp only
    | split

theorem execSleepClear_within (dt : Nat) (vset : Nat) (autoGate : Bool) (s : State) {t : State} (h : execSleepClear dt vset autoGate s = .next t) : s.Within [.out, .aon, .start, .ber, .mem, .cas] t := by
  unfold execSleepClear at h
  try dsimp only at h
  repeat' split at h
  all_goals cases h
  all_goals repeat' first
    | with_reducible apply State.Within.refl
    | (with_reducible apply State.Within.step (State.aonCtl_within ..)) <;> try decide
    | (with_reducible apply State.Within.step (State.elapse_within ..)) <;> try decide
    | (with_reducible apply State.Within.foldl) <;> try intro _ _
    | with_reducible apply State.Within.ite
    | dsimp only
    | split

theorem execWarmReset_within (dt : Nat) (_vset : Nat) (_autoGate : Bool) (sleep : Bool) (s : State) {t : State} (h : execWarmReset dt _vset _autoGate sleep s = .next t) : s.Within [.out, .freeCtr, .aon, .start, .ing, .egr, .img, .str, .sch, .sto, .ber, .mem, .cas] t := by
  unfold execWarmReset at h
  try dsimp only at h
  repeat' split at h
  all_goals cases h
  all_goals repeat' first
    | with_reducible apply State.Within.refl
    | (with_reducible apply State.Within.step (State.elapse_within ..)) <;> try decide
    | (with_reducible apply State.Within.step (State.onAon_within ?_)) <;> try decide
    | exact fun a h => Aon.ok_sensor _ h (fun x hx => ⟨hx.1, satInc_lt ..⟩)
    | exact fun a h => Aon.ok_sensor _ h (fun x hx => ⟨satInc_lt .., hx.2⟩)
    | exact fun a h => Aon.ok_sensor _ h (fun x hx => by split <;> first | exact ⟨hx.1, satInc_lt ..⟩ | exact ⟨satInc_lt .., hx.2⟩)
    | exact fun a h => Aon.ok_sensor _ h (fun x hx => hx)
    | exact fun a h => Aon.ok_cause h (by decide)
    | exact fun a h => ⟨h.sensors, h.domains, h.counters, h.vset, h.thresh, h.causes⟩
    | exact fun _ h => ⟨h.sensors, h.domains, h.counters, h.vset, h.thresh, h.causes⟩
    | exact fun _ h => ⟨by simp [h.sensors], by simp [h.domains], h.counters, h.vset, h.thresh, h.causes⟩
    | (with_reducible apply State.Within.step (State.lost_within ..)) <;> try decide
    | (with_reducible apply State.Within.foldl) <;> try intro _ _
    | with_reducible apply State.Within.ite
    | dsimp only
    | split

theorem execVsetWrite_within (dt : Nat) (vset : Nat) (autoGate : Bool) (sleep : Bool) (s : State) {t : State} (h : execVsetWrite dt vset autoGate sleep s = .next t) : s.Within [.out, .aon, .start, .ber, .mem, .cas] t := by
  unfold execVsetWrite at h
  try dsimp only at h
  repeat' split at h
  all_goals cases h
  all_goals repeat' first
    | with_reducible apply State.Within.refl
    | (with_reducible apply State.Within.step (State.aonCtl_within ..)) <;> try decide
    | (with_reducible apply State.Within.step (State.elapse_within ..)) <;> try decide
    | (with_reducible apply State.Within.foldl) <;> try intro _ _
    | with_reducible apply State.Within.ite
    | dsimp only
    | split

theorem execCauseClear_within (dt : Nat) (word : Word) (hardware : Word) (s : State) {t : State} (h : execCauseClear dt word hardware s = .next t) : s.Within [.out, .aon] t := by
  unfold execCauseClear at h
  try dsimp only at h
  repeat' split at h
  all_goals cases h
  all_goals repeat' first
    | with_reducible apply State.Within.refl
    | (with_reducible apply State.Within.step (State.clearCause_within ..)) <;> try decide
    | (with_reducible apply State.Within.step (State.elapse_within ..)) <;> try decide
    | (with_reducible apply State.Within.foldl) <;> try intro _ _
    | with_reducible apply State.Within.ite
    | dsimp only
    | split

theorem execCauseMaskWrite_within (dt : Nat) (word : Word) (s : State) {t : State} (h : execCauseMaskWrite dt word s = .next t) : s.Within [.out, .aon] t := by
  unfold execCauseMaskWrite at h
  try dsimp only at h
  repeat' split at h
  all_goals cases h
  all_goals repeat' first
    | with_reducible apply State.Within.refl
    | (with_reducible apply State.Within.step (State.elapse_within ..)) <;> try decide
    | (with_reducible apply State.Within.step (State.writeMask_within ..)) <;> try decide
    | (with_reducible apply State.Within.foldl) <;> try intro _ _
    | with_reducible apply State.Within.ite
    | dsimp only
    | split

theorem execApertureCtlReset_within (dt : Nat) (ap : Nat) (s : State) {t : State} (h : execApertureCtlReset dt ap s = .next t) : s.Within [.out, .aon, .start, .ing, .ber, .mem, .cas] t := by
  unfold execApertureCtlReset at h
  try dsimp only at h
  repeat' split at h
  all_goals cases h
  all_goals repeat' first
    | with_reducible apply State.Within.refl
    | (with_reducible apply State.Within.step (State.elapse_within ..)) <;> try decide
    | (with_reducible apply State.Within.step (State.wakeCause_within ..)) <;> try decide
    | (with_reducible apply State.Within.step (State.resetAp_within ..)) <;> try decide
    | (with_reducible apply State.Within.foldl) <;> try intro _ _
    | with_reducible apply State.Within.ite
    | dsimp only
    | split

theorem execApertureViolClear_within (dt : Nat) (ap : Nat) (credit : Bool) (port : Bool) (hardware : Word) (s : State) {t : State} (h : execApertureViolClear dt ap credit port hardware s = .next t) : s.Within [.out, .aon, .start, .ing, .ber, .mem, .cas] t := by
  unfold execApertureViolClear at h
  try dsimp only at h
  repeat' split at h
  all_goals cases h
  all_goals repeat' first
    | with_reducible apply State.Within.refl
    | (with_reducible apply State.Within.step (State.elapse_within ..)) <;> try decide
    | (with_reducible apply State.Within.step (State.violBit_within ..)) <;> try decide
    | (with_reducible apply State.Within.step (State.wakeCause_within ..)) <;> try decide
    | (with_reducible apply State.Within.foldl) <;> try intro _ _
    | with_reducible apply State.Within.ite
    | dsimp only
    | split

theorem execMarchCtlPreserving_within (dt : Nat) (target : Bool) (first : Nat) (last : Nat) (s : State) {t : State} (h : execMarchCtlPreserving dt target first last s = .next t) : s.Within [.out, .aon, .start, .img, .ber, .mem, .cas] t := by
  unfold execMarchCtlPreserving at h
  try dsimp only at h
  repeat' split at h
  all_goals cases h
  all_goals repeat' first
    | with_reducible apply State.Within.refl
    | (with_reducible apply State.Within.step (State.elapse_within ..)) <;> try decide
    | (with_reducible apply State.Within.step (State.marchCtl_within ..)) <;> try decide
    | (with_reducible apply State.Within.step (State.wakeCause_within ..)) <;> try decide
    | (with_reducible apply State.Within.foldl) <;> try intro _ _
    | with_reducible apply State.Within.ite
    | dsimp only
    | split

theorem execMarchCtlDestructive_within (dt : Nat) (target : Bool) (first : Nat) (last : Nat) (s : State) {t : State} (h : execMarchCtlDestructive dt target first last s = .next t) : s.Within [.out, .aon, .start, .img, .ber, .mem, .cas] t := by
  unfold execMarchCtlDestructive at h
  try dsimp only at h
  repeat' split at h
  all_goals cases h
  all_goals repeat' first
    | with_reducible apply State.Within.refl
    | (with_reducible apply State.Within.step (State.elapse_within ..)) <;> try decide
    | (with_reducible apply State.Within.step (State.marchCtl_within ..)) <;> try decide
    | (with_reducible apply State.Within.step (State.wakeCause_within ..)) <;> try decide
    | (with_reducible apply State.Within.foldl) <;> try intro _ _
    | with_reducible apply State.Within.ite
    | dsimp only
    | split

theorem execMarchCtlAbort_within (dt : Nat) (target : Bool) (first : Nat) (last : Nat) (s : State) {t : State} (h : execMarchCtlAbort dt target first last s = .next t) : s.Within [.out, .aon, .start, .img, .ber, .mem, .cas] t := by
  unfold execMarchCtlAbort at h
  try dsimp only at h
  repeat' split at h
  all_goals cases h
  all_goals repeat' first
    | with_reducible apply State.Within.refl
    | (with_reducible apply State.Within.step (State.elapse_within ..)) <;> try decide
    | (with_reducible apply State.Within.step (State.marchCtl_within ..)) <;> try decide
    | (with_reducible apply State.Within.step (State.wakeCause_within ..)) <;> try decide
    | (with_reducible apply State.Within.foldl) <;> try intro _ _
    | with_reducible apply State.Within.ite
    | dsimp only
    | split

theorem execRepairMapReadLo_within (dt : Nat) (port : Bool) (s : State) {t : State} (h : execRepairMapReadLo dt port s = .next t) : s.Within [.out, .aon, .start, .ing, .ber, .mem, .cas] t := by
  unfold execRepairMapReadLo at h
  try dsimp only at h
  repeat' split at h
  all_goals cases h
  all_goals repeat' first
    | with_reducible apply State.Within.refl
    | (with_reducible apply State.Within.step (State.elapse_within ..)) <;> try decide
    | (with_reducible apply State.Within.step (State.hostRead_within ..)) <;> try decide
    | (with_reducible apply State.Within.foldl) <;> try intro _ _
    | with_reducible apply State.Within.ite
    | dsimp only
    | split

theorem execRepairMapReadHi_within (dt : Nat) (port : Bool) (s : State) {t : State} (h : execRepairMapReadHi dt port s = .next t) : s.Within [.out, .aon, .start, .ing, .ber, .mem, .cas] t := by
  unfold execRepairMapReadHi at h
  try dsimp only at h
  repeat' split at h
  all_goals cases h
  all_goals repeat' first
    | with_reducible apply State.Within.refl
    | (with_reducible apply State.Within.step (State.elapse_within ..)) <;> try decide
    | (with_reducible apply State.Within.step (State.hostRead_within ..)) <;> try decide
    | (with_reducible apply State.Within.foldl) <;> try intro _ _
    | with_reducible apply State.Within.ite
    | dsimp only
    | split

theorem execLoReadLatch_within (dt : Nat) (port : Bool) (offset : Nat) (s : State) {t : State} (h : execLoReadLatch dt port offset s = .next t) : s.Within [.out, .aon, .start, .ing, .ber, .mem, .cas] t := by
  unfold execLoReadLatch at h
  try dsimp only at h
  repeat' split at h
  all_goals cases h
  all_goals repeat' first
    | with_reducible apply State.Within.refl
    | (with_reducible apply State.Within.step (State.elapse_within ..)) <;> try decide
    | (with_reducible apply State.Within.step (State.hostRead_within ..)) <;> try decide
    | (with_reducible apply State.Within.foldl) <;> try intro _ _
    | with_reducible apply State.Within.ite
    | dsimp only
    | split

theorem execRcRead_within (dt : Nat) (port : Bool) (offset : Nat) (size : Nat) (s : State) {t : State} (h : execRcRead dt port offset size s = .next t) : s.Within [.out, .freeCtr, .aon, .start, .ing, .ber, .mem, .cas] t := by
  unfold execRcRead at h
  try dsimp only at h
  repeat' split at h
  all_goals cases h
  all_goals repeat' first
    | with_reducible apply State.Within.refl
    | (with_reducible apply State.Within.step (State.elapse_within ..)) <;> try decide
    | (with_reducible apply State.Within.step (State.hostRead_within ..)) <;> try decide
    | (with_reducible apply State.Within.step (State.access_within ..)) <;> try decide
    | (with_reducible apply State.Within.step (State.drawn_within ..)) <;> try decide
    | (with_reducible apply State.Within.step (State.emit_within ..)) <;> try decide
    | (with_reducible apply State.Within.foldl) <;> try intro _ _
    | with_reducible apply State.Within.ite
    | dsimp only
    | split

theorem execCamDbgSearch_within (dt : Nat) (s : State) {t : State} (h : execCamDbgSearch dt s = .next t) : s.Within [.out, .aon, .start, .egr, .img, .str, .sch, .sto, .ber, .mem, .cas] t := by
  unfold execCamDbgSearch at h
  try dsimp only at h
  repeat' split at h
  all_goals cases h
  all_goals repeat' first
    | with_reducible apply State.Within.refl
    | (with_reducible apply State.Within.step (State.elapse_within ..)) <;> try decide
    | (with_reducible apply State.Within.step (State.wakeCause_within ..)) <;> try decide
    | (with_reducible apply State.Within.step (State.dbgSearch_within ..)) <;> try decide
    | (with_reducible apply State.Within.foldl) <;> try intro _ _
    | with_reducible apply State.Within.ite
    | dsimp only
    | split

theorem execCamDbgReadRow_within (dt : Nat) (s : State) {t : State} (h : execCamDbgReadRow dt s = .next t) : s.Within [.out, .aon, .start, .ber, .mem, .cas] t := by
  unfold execCamDbgReadRow at h
  try dsimp only at h
  repeat' split at h
  all_goals cases h
  all_goals repeat' first
    | with_reducible apply State.Within.refl
    | (with_reducible apply State.Within.step (State.elapse_within ..)) <;> try decide
    | (with_reducible apply State.Within.step (State.dbgReadRow_within ..)) <;> try decide
    | (with_reducible apply State.Within.step (State.wakeCause_within ..)) <;> try decide
    | (with_reducible apply State.Within.foldl) <;> try intro _ _
    | with_reducible apply State.Within.ite
    | dsimp only
    | split

theorem execCamCorrClear_within (dt : Nat) (hardware : Bool) (s : State) {t : State} (h : execCamCorrClear dt hardware s = .next t) : s.Within [.out, .aon, .start, .ber, .mem, .cas] t := by
  unfold execCamCorrClear at h
  try dsimp only at h
  repeat' split at h
  all_goals cases h
  all_goals repeat' first
    | with_reducible apply State.Within.refl
    | (with_reducible apply State.Within.step (State.elapse_within ..)) <;> try decide
    | (with_reducible apply State.Within.step (State.wakeCause_within ..)) <;> try decide
    | (with_reducible apply State.Within.step (State.clearCorr_within ..)) <;> try decide
    | (with_reducible apply State.Within.foldl) <;> try intro _ _
    | with_reducible apply State.Within.ite
    | dsimp only
    | split

theorem execRegisterWrite_within (dt : Nat) (_port : Bool) (offset : Nat) (size : Nat) (data : Nat) (s : State) {t : State} (h : execRegisterWrite dt _port offset size data s = .next t) : s.Within [.out, .freeCtr, .aon, .start, .ing, .egr, .img, .str, .sch, .sto, .ber, .mem, .cas] t := by
  unfold execRegisterWrite at h
  try dsimp only at h
  repeat' split at h
  all_goals cases h
  all_goals repeat' first
    | with_reducible apply State.Within.refl
    | (with_reducible apply State.Within.step (State.elapse_within ..)) <;> try decide
    | (with_reducible apply State.Within.step (State.writeReg_within ..)) <;> try decide
    | (with_reducible apply State.Within.step (State.access_within ..)) <;> try decide
    | (with_reducible apply State.Within.foldl) <;> try intro _ _
    | with_reducible apply State.Within.ite
    | dsimp only
    | split

theorem execLedgerAcknowledgement_within (dt : Nat) (hdr : MsgHdr) (s : State) {t : State} (h : execLedgerAcknowledgement dt hdr s = .next t) : s.Within [.out, .freeCtr, .aon, .start, .ing, .egr, .str, .sto, .ber, .mem, .cas] t := by
  unfold execLedgerAcknowledgement at h
  try dsimp only at h
  repeat' split at h
  all_goals cases h
  all_goals repeat' first
    | with_reducible apply State.Within.refl
    | (with_reducible apply State.Within.step (State.payOwed_within ..)) <;> try decide
    | (with_reducible apply State.Within.step (State.elapse_within ..)) <;> try decide
    | (with_reducible apply State.Within.step (State.hear_within (D := [.out, .freeCtr, .aon, .start, .ing, .egr, .str, .sto, .ber, .mem, .cas]) (by decide) ?_  ..)) <;> try decide
    | intro _
    | (with_reducible apply State.Within.step (State.onCas_within ..)) <;> try decide
    | (with_reducible apply State.Within.foldl) <;> try intro _ _
    | with_reducible apply State.Within.ite
    | dsimp only
    | split

theorem execKvTierPauseComplete_within (dt : Nat) (slot : Nat) (s : State) {t : State} (h : execKvTierPauseComplete dt slot s = .next t) : s.Within [.out, .freeCtr, .aon, .ing, .egr, .str, .sto, .mem] t := by
  unfold execKvTierPauseComplete at h
  try dsimp only at h
  repeat' split at h
  all_goals cases h
  all_goals repeat' first
    | with_reducible apply State.Within.refl
    | (with_reducible apply State.Within.step (State.onStream_within ..)) <;> try decide
    | (with_reducible apply State.Within.step (State.elapse_within ..)) <;> try decide
    | (with_reducible apply State.Within.step (State.pauseDone_within ..)) <;> try decide
    | (with_reducible apply State.Within.step (State.setPaused_within ..)) <;> try decide
    | (with_reducible apply State.Within.step (State.freePages_within ..)) <;> try decide
    | (with_reducible apply State.Within.foldl) <;> try intro _ _
    | with_reducible apply State.Within.ite
    | dsimp only
    | split

theorem execWaitingGrantRequest_within (dt : Nat) (tenant : Nat) (s : State) {t : State} (h : execWaitingGrantRequest dt tenant s = .next t) : s.Within [.out, .aon, .egr, .str, .sto, .mem, .cas] t := by
  unfold execWaitingGrantRequest at h
  try dsimp only at h
  repeat' split at h
  all_goals cases h
  all_goals repeat' first
    | with_reducible apply State.Within.refl
    | (with_reducible apply State.Within.step (State.elapse_within ..)) <;> try decide
    | (with_reducible apply State.Within.step (State.mirrored_within (D := [.out, .aon, .egr, .str, .sto, .mem, .cas]) (by decide) ?_  ..)) <;> try decide
    | intro _
    | (with_reducible apply State.Within.step (State.onCas_within ..)) <;> try decide
    | (with_reducible apply State.Within.step (State.sendGrant_within ..)) <;> try decide
    | (with_reducible apply State.Within.step (State.unholdTenant_within ..)) <;> try decide
    | (with_reducible apply State.Within.foldl) <;> try intro _ _
    | with_reducible apply State.Within.ite
    | dsimp only
    | split

theorem execGrpLocateAnswer_within (dt : Nat) (hdr : MsgHdr) (tag : Nat) (answer : Option (Nat × Nat)) (s : State) {t : State} (h : execGrpLocateAnswer dt hdr tag answer s = .next t) : s.Within [.out, .freeCtr, .aon, .start, .ing, .egr, .str, .ber, .mem, .cas] t := by
  unfold execGrpLocateAnswer at h
  try dsimp only at h
  repeat' split at h
  all_goals cases h
  all_goals repeat' first
    | with_reducible apply State.Within.refl
    | (with_reducible apply State.Within.step (State.elapse_within ..)) <;> try decide
    | (with_reducible apply State.Within.step (State.hear_within (D := [.out, .freeCtr, .aon, .start, .ing, .egr, .str, .ber, .mem, .cas]) (by decide) ?_  ..)) <;> try decide
    | intro _
    | (with_reducible apply State.Within.step (State.locateDone_within ..)) <;> try decide
    | (with_reducible apply State.Within.step (State.onCas_within ..)) <;> try decide
    | (with_reducible apply State.Within.foldl) <;> try intro _ _
    | with_reducible apply State.Within.ite
    | dsimp only
    | split

end Sys2Proof.Machine
end

