-- ==== Sys2Proof/Laws/PerInstr.lean ====
section
/-! SUPPORT. The laws that hold of each command as syntax: its time stands apart from everything else it carries (log 1). -/
namespace Sys2Proof.Laws.Timed
open Sys2Proof

/-- The time of a command can be replaced, the last replacement counts, one by its own time changes nothing, and no replacement makes a
command well formed or ill formed. -/
def Statement (i : Instr) : Prop :=
  (∀ d, (i.withDt d).dt = d) ∧ i.withDt i.dt = i ∧ (∀ d e, (i.withDt d).withDt e = i.withDt e) ∧ ∀ d, (i.withDt d).wellFormed = i.wellFormed

theorem apertureWrite (dt : Nat) (port : Bool) (offset : Nat) (data : List Dword) : Statement (.apertureWrite dt port offset data) := ⟨fun _ => rfl, rfl, fun _ _ => rfl, fun _ => rfl⟩
theorem apertureRead (dt : Nat) (port : Bool) (offset : Nat) (size : Nat) : Statement (.apertureRead dt port offset size) := ⟨fun _ => rfl, rfl, fun _ _ => rfl, fun _ => rfl⟩
theorem packetConsume (dt : Nat) (ap : Nat) : Statement (.packetConsume dt ap) := ⟨fun _ => rfl, rfl, fun _ _ => rfl, fun _ => rfl⟩
theorem creditWordTimer (dt : Nat) (ap : Nat) : Statement (.creditWordTimer dt ap) := ⟨fun _ => rfl, rfl, fun _ _ => rfl, fun _ => rfl⟩
theorem sysHello (dt : Nat) (ap pos : Nat) : Statement (.sysHello dt ap pos) := ⟨fun _ => rfl, rfl, fun _ _ => rfl, fun _ => rfl⟩
theorem sysHelloApertureReset (dt : Nat) (ap pos : Nat) : Statement (.sysHelloApertureReset dt ap pos) := ⟨fun _ => rfl, rfl, fun _ _ => rfl, fun _ => rfl⟩
theorem sysRingEnable (dt : Nat) (ap pos : Nat) : Statement (.sysRingEnable dt ap pos) := ⟨fun _ => rfl, rfl, fun _ _ => rfl, fun _ => rfl⟩
theorem sysRingDisable (dt : Nat) (ap pos : Nat) : Statement (.sysRingDisable dt ap pos) := ⟨fun _ => rfl, rfl, fun _ _ => rfl, fun _ => rfl⟩
theorem sysTime (dt : Nat) (ap pos : Nat) : Statement (.sysTime dt ap pos) := ⟨fun _ => rfl, rfl, fun _ _ => rfl, fun _ => rfl⟩
theorem imgLoad (dt : Nat) (ap pos : Nat) : Statement (.imgLoad dt ap pos) := ⟨fun _ => rfl, rfl, fun _ _ => rfl, fun _ => rfl⟩
theorem imageStaged (dt : Nat) (slot : Nat) : Statement (.imageStaged dt slot) := ⟨fun _ => rfl, rfl, fun _ _ => rfl, fun _ => rfl⟩
theorem imgCommit (dt : Nat) (ap pos : Nat) : Statement (.imgCommit dt ap pos) := ⟨fun _ => rfl, rfl, fun _ _ => rfl, fun _ => rfl⟩
theorem commitTakesEffect (dt : Nat) : Statement (.commitTakesEffect dt) := ⟨fun _ => rfl, rfl, fun _ _ => rfl, fun _ => rfl⟩
theorem imgDropSlot (dt : Nat) (ap pos : Nat) : Statement (.imgDropSlot dt ap pos) := ⟨fun _ => rfl, rfl, fun _ _ => rfl, fun _ => rfl⟩
theorem imgDropGrammar (dt : Nat) (ap pos : Nat) : Statement (.imgDropGrammar dt ap pos) := ⟨fun _ => rfl, rfl, fun _ _ => rfl, fun _ => rfl⟩
theorem imgQuery (dt : Nat) (ap pos : Nat) : Statement (.imgQuery dt ap pos) := ⟨fun _ => rfl, rfl, fun _ _ => rfl, fun _ => rfl⟩
theorem strOpen (dt : Nat) (ap pos : Nat) : Statement (.strOpen dt ap pos) := ⟨fun _ => rfl, rfl, fun _ _ => rfl, fun _ => rfl⟩
theorem strClose (dt : Nat) (ap : Nat) (pkt : StreamPkt) : Statement (.strClose dt ap pkt) := ⟨fun _ => rfl, rfl, fun _ _ => rfl, fun _ => rfl⟩
theorem strCancel (dt : Nat) (ap : Nat) (pkt : StreamPkt) : Statement (.strCancel dt ap pkt) := ⟨fun _ => rfl, rfl, fun _ _ => rfl, fun _ => rfl⟩
theorem streamRelease (dt : Nat) (slot : Nat) : Statement (.streamRelease dt slot) := ⟨fun _ => rfl, rfl, fun _ _ => rfl, fun _ => rfl⟩
theorem quarantineEnd (dt : Nat) (slot : Nat) : Statement (.quarantineEnd dt slot) := ⟨fun _ => rfl, rfl, fun _ _ => rfl, fun _ => rfl⟩
theorem strPause (dt : Nat) (ap : Nat) (pkt : PausePkt) : Statement (.strPause dt ap pkt) := ⟨fun _ => rfl, rfl, fun _ _ => rfl, fun _ => rfl⟩
theorem pauseTakesEffect (dt : Nat) (slot : Nat) : Statement (.pauseTakesEffect dt slot) := ⟨fun _ => rfl, rfl, fun _ _ => rfl, fun _ => rfl⟩
theorem pauseExpired (dt : Nat) (slot : Nat) : Statement (.pauseExpired dt slot) := ⟨fun _ => rfl, rfl, fun _ _ => rfl, fun _ => rfl⟩
theorem strResume (dt : Nat) (ap pos : Nat) : Statement (.strResume dt ap pos) := ⟨fun _ => rfl, rfl, fun _ _ => rfl, fun _ => rfl⟩
theorem strPin (dt : Nat) (ap : Nat) (pkt : StreamPkt) : Statement (.strPin dt ap pkt) := ⟨fun _ => rfl, rfl, fun _ _ => rfl, fun _ => rfl⟩
theorem strMigrate (dt : Nat) (ap : Nat) (pkt : StreamPkt) : Statement (.strMigrate dt ap pkt) := ⟨fun _ => rfl, rfl, fun _ _ => rfl, fun _ => rfl⟩
theorem migrationSend (dt : Nat) (slot : Nat) : Statement (.migrationSend dt slot) := ⟨fun _ => rfl, rfl, fun _ _ => rfl, fun _ => rfl⟩
theorem migrationAnswer (dt : Nat) (slot : Nat) (answer : MigAnswer) : Statement (.migrationAnswer dt slot answer) := ⟨fun _ => rfl, rfl, fun _ _ => rfl, fun _ => rfl⟩
theorem encText (dt : Nat) (ap pos : Nat) : Statement (.encText dt ap pos) := ⟨fun _ => rfl, rfl, fun _ _ => rfl, fun _ => rfl⟩
theorem encRaw (dt : Nat) (ap pos : Nat) : Statement (.encRaw dt ap pos) := ⟨fun _ => rfl, rfl, fun _ _ => rfl, fun _ => rfl⟩
theorem segmentDone (dt : Nat) (ap : Nat) (seg : SegmentEnd) : Statement (.segmentDone dt ap seg) := ⟨fun _ => rfl, rfl, fun _ _ => rfl, fun _ => rfl⟩
theorem transomPieceDone (dt : Nat) (ap pos : Nat) : Statement (.transomPieceDone dt ap pos) := ⟨fun _ => rfl, rfl, fun _ _ => rfl, fun _ => rfl⟩
theorem decTok (dt : Nat) (ap pos : Nat) : Statement (.decTok dt ap pos) := ⟨fun _ => rfl, rfl, fun _ _ => rfl, fun _ => rfl⟩
theorem tokChoose (dt : Nat) (ap pos : Nat) : Statement (.tokChoose dt ap pos) := ⟨fun _ => rfl, rfl, fun _ _ => rfl, fun _ => rfl⟩
theorem choiceGrant (dt : Nat) (slot : Nat) : Statement (.choiceGrant dt slot) := ⟨fun _ => rfl, rfl, fun _ _ => rfl, fun _ => rfl⟩
theorem commitDecodeDone (dt : Nat) (slot : Nat) : Statement (.commitDecodeDone dt slot) := ⟨fun _ => rfl, rfl, fun _ _ => rfl, fun _ => rfl⟩
theorem specTree (dt : Nat) (ap pos : Nat) : Statement (.specTree dt ap pos) := ⟨fun _ => rfl, rfl, fun _ _ => rfl, fun _ => rfl⟩
theorem specTreeReply (dt : Nat) (ap pos : Nat) : Statement (.specTreeReply dt ap pos) := ⟨fun _ => rfl, rfl, fun _ _ => rfl, fun _ => rfl⟩
theorem treeResolveAck (dt : Nat) (slot : Nat) : Statement (.treeResolveAck dt slot) := ⟨fun _ => rfl, rfl, fun _ _ => rfl, fun _ => rfl⟩
theorem pfxBind (dt : Nat) (ap pos : Nat) : Statement (.pfxBind dt ap pos) := ⟨fun _ => rfl, rfl, fun _ _ => rfl, fun _ => rfl⟩
theorem pfxFind (dt : Nat) (ap pos : Nat) : Statement (.pfxFind dt ap pos) := ⟨fun _ => rfl, rfl, fun _ _ => rfl, fun _ => rfl⟩
theorem pfxDrop (dt : Nat) (ap pos : Nat) : Statement (.pfxDrop dt ap pos) := ⟨fun _ => rfl, rfl, fun _ _ => rfl, fun _ => rfl⟩
theorem budSet (dt : Nat) (ap pos : Nat) : Statement (.budSet dt ap pos) := ⟨fun _ => rfl, rfl, fun _ _ => rfl, fun _ => rfl⟩
theorem lintelRaise (dt : Nat) (ap pos : Nat) : Statement (.lintelRaise dt ap pos) := ⟨fun _ => rfl, rfl, fun _ _ => rfl, fun _ => rfl⟩
theorem lintelLower (dt : Nat) (ap pos : Nat) : Statement (.lintelLower dt ap pos) := ⟨fun _ => rfl, rfl, fun _ _ => rfl, fun _ => rfl⟩
theorem grpQuery (dt : Nat) (ap pos : Nat) : Statement (.grpQuery dt ap pos) := ⟨fun _ => rfl, rfl, fun _ _ => rfl, fun _ => rfl⟩
theorem grpLocate (dt : Nat) (ap pos : Nat) : Statement (.grpLocate dt ap pos) := ⟨fun _ => rfl, rfl, fun _ _ => rfl, fun _ => rfl⟩
theorem grpLeave (dt : Nat) (ap pos : Nat) : Statement (.grpLeave dt ap pos) := ⟨fun _ => rfl, rfl, fun _ _ => rfl, fun _ => rfl⟩
theorem grpHandover (dt : Nat) (ap pos : Nat) : Statement (.grpHandover dt ap pos) := ⟨fun _ => rfl, rfl, fun _ _ => rfl, fun _ => rfl⟩
theorem grpJoin (dt : Nat) (ap pos : Nat) : Statement (.grpJoin dt ap pos) := ⟨fun _ => rfl, rfl, fun _ _ => rfl, fun _ => rfl⟩
theorem testMarchPreserving (dt : Nat) (ap pos : Nat) : Statement (.testMarchPreserving dt ap pos) := ⟨fun _ => rfl, rfl, fun _ _ => rfl, fun _ => rfl⟩
theorem testMarchDestructive (dt : Nat) (ap pos : Nat) : Statement (.testMarchDestructive dt ap pos) := ⟨fun _ => rfl, rfl, fun _ _ => rfl, fun _ => rfl⟩
theorem testMarchAbort (dt : Nat) (ap pos : Nat) : Statement (.testMarchAbort dt ap pos) := ⟨fun _ => rfl, rfl, fun _ _ => rfl, fun _ => rfl⟩
theorem destructiveMarchStart (dt : Nat) (array : Nat) : Statement (.destructiveMarchStart dt array) := ⟨fun _ => rfl, rfl, fun _ _ => rfl, fun _ => rfl⟩
theorem destructiveMarchTimeout (dt : Nat) (array : Nat) : Statement (.destructiveMarchTimeout dt array) := ⟨fun _ => rfl, rfl, fun _ _ => rfl, fun _ => rfl⟩
theorem marchBorrow (dt : Nat) (array : Nat) (found : Borrow) : Statement (.marchBorrow dt array found) := ⟨fun _ => rfl, rfl, fun _ _ => rfl, fun _ => rfl⟩
theorem marchEnd (dt : Nat) (fails : List (Nat × Cell)) : Statement (.marchEnd dt fails) := ⟨fun _ => rfl, rfl, fun _ _ => rfl, fun _ => rfl⟩
theorem testLane (dt : Nat) (ap pos : Nat) : Statement (.testLane dt ap pos) := ⟨fun _ => rfl, rfl, fun _ _ => rfl, fun _ => rfl⟩
theorem ringHeadPoll (dt : Nat) (ring value : Nat) : Statement (.ringHeadPoll dt ring value) := ⟨fun _ => rfl, rfl, fun _ _ => rfl, fun _ => rfl⟩
theorem ringStall (dt : Nat) (ring : Nat) : Statement (.ringStall dt ring) := ⟨fun _ => rfl, rfl, fun _ _ => rfl, fun _ => rfl⟩
theorem recordsLost (dt : Nat) (ring : Nat) : Statement (.recordsLost dt ring) := ⟨fun _ => rfl, rfl, fun _ _ => rfl, fun _ => rfl⟩
theorem modTimeExpiry (dt : Nat) (ring : Nat) : Statement (.modTimeExpiry dt ring) := ⟨fun _ => rfl, rfl, fun _ _ => rfl, fun _ => rfl⟩
theorem ringFault (dt : Nat) (target : PortFault) : Statement (.ringFault dt target) := ⟨fun _ => rfl, rfl, fun _ _ => rfl, fun _ => rfl⟩
theorem stepIssue (dt : Nat) (entries tokens : Nat) : Statement (.stepIssue dt entries tokens) := ⟨fun _ => rfl, rfl, fun _ _ => rfl, fun _ => rfl⟩
theorem idleBoundary (dt : Nat) : Statement (.idleBoundary dt) := ⟨fun _ => rfl, rfl, fun _ _ => rfl, fun _ => rfl⟩
theorem logitBurst (dt : Nat) (facet : Nat) (burst : Burst) : Statement (.logitBurst dt facet burst) := ⟨fun _ => rfl, rfl, fun _ _ => rfl, fun _ => rfl⟩
theorem rowShaped (dt : Nat) (step slot node : Nat) : Statement (.rowShaped dt step slot node) := ⟨fun _ => rfl, rfl, fun _ _ => rfl, fun _ => rfl⟩
theorem verdictPass (dt : Nat) (step : Nat) : Statement (.verdictPass dt step) := ⟨fun _ => rfl, rfl, fun _ _ => rfl, fun _ => rfl⟩
theorem verdictFail (dt : Nat) (step : Nat) : Statement (.verdictFail dt step) := ⟨fun _ => rfl, rfl, fun _ _ => rfl, fun _ => rfl⟩
theorem verdictTimeout (dt : Nat) (step : Nat) : Statement (.verdictTimeout dt step) := ⟨fun _ => rfl, rfl, fun _ _ => rfl, fun _ => rfl⟩
theorem chunkKvWritten (dt : Nat) (step : Nat) (what : KvReport) : Statement (.chunkKvWritten dt step what) := ⟨fun _ => rfl, rfl, fun _ _ => rfl, fun _ => rfl⟩
theorem pageRetire (dt : Nat) (page : Nat) : Statement (.pageRetire dt page) := ⟨fun _ => rfl, rfl, fun _ _ => rfl, fun _ => rfl⟩
theorem pageSummary (dt : Nat) (slot handle size loc : Nat) : Statement (.pageSummary dt slot handle size loc) := ⟨fun _ => rfl, rfl, fun _ _ => rfl, fun _ => rfl⟩
theorem pageMoved (dt : Nat) (slot : Nat) : Statement (.pageMoved dt slot) := ⟨fun _ => rfl, rfl, fun _ _ => rfl, fun _ => rfl⟩
theorem pageRestored (dt : Nat) (slot : Nat) : Statement (.pageRestored dt slot) := ⟨fun _ => rfl, rfl, fun _ _ => rfl, fun _ => rfl⟩
theorem backgroundBuild (dt : Nat) (slot : Nat) : Statement (.backgroundBuild dt slot) := ⟨fun _ => rfl, rfl, fun _ _ => rfl, fun _ => rfl⟩
theorem shutterBuildDone (dt : Nat) (slot : Nat) (part : BuildPart) : Statement (.shutterBuildDone dt slot part) := ⟨fun _ => rfl, rfl, fun _ _ => rfl, fun _ => rfl⟩
theorem stackRefillDone (dt : Nat) (slot : Nat) : Statement (.stackRefillDone dt slot) := ⟨fun _ => rfl, rfl, fun _ _ => rfl, fun _ => rfl⟩
theorem deadlinePolicy (dt : Nat) (slot : Nat) : Statement (.deadlinePolicy dt slot) := ⟨fun _ => rfl, rfl, fun _ _ => rfl, fun _ => rfl⟩
theorem sealNotice (dt : Nat) (hdr : MsgHdr) (sealId kind : Nat) : Statement (.sealNotice dt hdr sealId kind) := ⟨fun _ => rfl, rfl, fun _ _ => rfl, fun _ => rfl⟩
theorem package (dt : Nat) (hdr : MsgHdr) (body : PkgBody) : Statement (.package dt hdr body) := ⟨fun _ => rfl, rfl, fun _ _ => rfl, fun _ => rfl⟩
theorem join (dt : Nat) (hdr : MsgHdr) (frameCrc time : Nat) : Statement (.join dt hdr frameCrc time) := ⟨fun _ => rfl, rfl, fun _ _ => rfl, fun _ => rfl⟩
theorem joinTimer (dt : Nat) : Statement (.joinTimer dt) := ⟨fun _ => rfl, rfl, fun _ _ => rfl, fun _ => rfl⟩
theorem formTimeout (dt : Nat) : Statement (.formTimeout dt) := ⟨fun _ => rfl, rfl, fun _ _ => rfl, fun _ => rfl⟩
theorem welcome (dt : Nat) (hdr : MsgHdr) (newEpoch live asleep master deputy time : Nat) (tenants : List BudSet) : Statement (.welcome dt hdr newEpoch live asleep master deputy time tenants) := ⟨fun _ => rfl, rfl, fun _ _ => rfl, fun _ => rfl⟩
theorem beatTimer (dt : Nat) : Statement (.beatTimer dt) := ⟨fun _ => rfl, rfl, fun _ _ => rfl, fun _ => rfl⟩
theorem beat (dt : Nat) (hdr : MsgHdr) (time live deputy delay : Nat) (figures : List (Nat × Figures)) : Statement (.beat dt hdr time live deputy delay figures) := ⟨fun _ => rfl, rfl, fun _ _ => rfl, fun _ => rfl⟩
theorem beatAck (dt : Nat) (hdr : MsgHdr) (echo received turnaround : Nat) (figures : Figures) : Statement (.beatAck dt hdr echo received turnaround figures) := ⟨fun _ => rfl, rfl, fun _ _ => rfl, fun _ => rfl⟩
theorem memberDepartTimeout (dt : Nat) (member : Nat) : Statement (.memberDepartTimeout dt member) := ⟨fun _ => rfl, rfl, fun _ _ => rfl, fun _ => rfl⟩
theorem quorumLossTimeout (dt : Nat) : Statement (.quorumLossTimeout dt) := ⟨fun _ => rfl, rfl, fun _ _ => rfl, fun _ => rfl⟩
theorem deputyPollTimeout (dt : Nat) : Statement (.deputyPollTimeout dt) := ⟨fun _ => rfl, rfl, fun _ _ => rfl, fun _ => rfl⟩
theorem poll (dt : Nat) (hdr : MsgHdr) : Statement (.poll dt hdr) := ⟨fun _ => rfl, rfl, fun _ _ => rfl, fun _ => rfl⟩
theorem pollAns (dt : Nat) (hdr : MsgHdr) (recent : Bool) : Statement (.pollAns dt hdr recent) := ⟨fun _ => rfl, rfl, fun _ _ => rfl, fun _ => rfl⟩
theorem takeover (dt : Nat) (hdr : MsgHdr) (newEpoch newDeputy : Nat) : Statement (.takeover dt hdr newEpoch newDeputy) := ⟨fun _ => rfl, rfl, fun _ _ => rfl, fun _ => rfl⟩
theorem orphanTimeout (dt : Nat) : Statement (.orphanTimeout dt) := ⟨fun _ => rfl, rfl, fun _ _ => rfl, fun _ => rfl⟩
theorem timeSlewTick (dt : Nat) : Statement (.timeSlewTick dt) := ⟨fun _ => rfl, rfl, fun _ _ => rfl, fun _ => rfl⟩
theorem grantReq (dt : Nat) (hdr : MsgHdr) (tenant units : Nat) : Statement (.grantReq dt hdr tenant units) := ⟨fun _ => rfl, rfl, fun _ _ => rfl, fun _ => rfl⟩
theorem grant (dt : Nat) (hdr : MsgHdr) (tenant units : Nat) : Statement (.grant dt hdr tenant units) := ⟨fun _ => rfl, rfl, fun _ _ => rfl, fun _ => rfl⟩
theorem ledger (dt : Nat) (hdr : MsgHdr) (change : LedgerChange) : Statement (.ledger dt hdr change) := ⟨fun _ => rfl, rfl, fun _ _ => rfl, fun _ => rfl⟩
theorem budFwd (dt : Nat) (hdr : MsgHdr) (set : BudSet) (tag : Nat) : Statement (.budFwd dt hdr set tag) := ⟨fun _ => rfl, rfl, fun _ _ => rfl, fun _ => rfl⟩
theorem budDone (dt : Nat) (hdr : MsgHdr) (tag status : Nat) (level : Int) : Statement (.budDone dt hdr tag status level) := ⟨fun _ => rfl, rfl, fun _ _ => rfl, fun _ => rfl⟩
theorem chainFind (dt : Nat) (hdr : MsgHdr) (handle tenant request : Nat) : Statement (.chainFind dt hdr handle tenant request) := ⟨fun _ => rfl, rfl, fun _ _ => rfl, fun _ => rfl⟩
theorem chainAns (dt : Nat) (hdr : MsgHdr) (request : Nat) (hit : Option ChainRec) : Statement (.chainAns dt hdr request hit) := ⟨fun _ => rfl, rfl, fun _ _ => rfl, fun _ => rfl⟩
theorem chainFindTimeout (dt : Nat) (request : Nat) : Statement (.chainFindTimeout dt request) := ⟨fun _ => rfl, rfl, fun _ _ => rfl, fun _ => rfl⟩
theorem pfxCopy (dt : Nat) (hdr : MsgHdr) (handle tenant : Nat) (pages : List Nat) : Statement (.pfxCopy dt hdr handle tenant pages) := ⟨fun _ => rfl, rfl, fun _ _ => rfl, fun _ => rfl⟩
theorem pfxCopyDone (dt : Nat) (handle tenant : Nat) : Statement (.pfxCopyDone dt handle tenant) := ⟨fun _ => rfl, rfl, fun _ _ => rfl, fun _ => rfl⟩
theorem leave (dt : Nat) (hdr : MsgHdr) (sleep : Bool) (units : List (Nat × Nat)) : Statement (.leave dt hdr sleep units) := ⟨fun _ => rfl, rfl, fun _ _ => rfl, fun _ => rfl⟩
theorem down (dt : Nat) (hdr : MsgHdr) (lost : Nat) : Statement (.down dt hdr lost) := ⟨fun _ => rfl, rfl, fun _ _ => rfl, fun _ => rfl⟩
theorem rescue (dt : Nat) (hdr : MsgHdr) (lost : Nat) (streams : List PkgBody) : Statement (.rescue dt hdr lost streams) := ⟨fun _ => rfl, rfl, fun _ _ => rfl, fun _ => rfl⟩
theorem linkUnreachable (dt : Nat) (member : Nat) : Statement (.linkUnreachable dt member) := ⟨fun _ => rfl, rfl, fun _ _ => rfl, fun _ => rfl⟩
theorem berylSearch (dt : Nat) (search : SearchIn) : Statement (.berylSearch dt search) := ⟨fun _ => rfl, rfl, fun _ _ => rfl, fun _ => rfl⟩
theorem slotStealingUpdate (dt : Nat) (channel bank : Nat) (update : BerylUpdate) : Statement (.slotStealingUpdate dt channel bank update) := ⟨fun _ => rfl, rfl, fun _ _ => rfl, fun _ => rfl⟩
theorem threeStepUpdate (dt : Nat) (channel : Nat) (bank : Nat) (steps : UpdateSteps) : Statement (.threeStepUpdate dt channel bank steps) := ⟨fun _ => rfl, rfl, fun _ _ => rfl, fun _ => rfl⟩
theorem berylMoveDone (dt : Nat) (bank : Nat) : Statement (.berylMoveDone dt bank) := ⟨fun _ => rfl, rfl, fun _ _ => rfl, fun _ => rfl⟩
theorem compactor (dt : Nat) (bank : Nat) : Statement (.compactor dt bank) := ⟨fun _ => rfl, rfl, fun _ _ => rfl, fun _ => rfl⟩
theorem camScrub (dt : Nat) (scrub : ScrubIn) : Statement (.camScrub dt scrub) := ⟨fun _ => rfl, rfl, fun _ _ => rfl, fun _ => rfl⟩
theorem bankReload (dt : Nat) (bank : Nat) : Statement (.bankReload dt bank) := ⟨fun _ => rfl, rfl, fun _ _ => rfl, fun _ => rfl⟩
theorem bankReloadDone (dt : Nat) (bank : Nat) : Statement (.bankReloadDone dt bank) := ⟨fun _ => rfl, rfl, fun _ _ => rfl, fun _ => rfl⟩
theorem patrolScrub (dt : Nat) (array : Nat) (scrub : PatrolIn) : Statement (.patrolScrub dt array scrub) := ⟨fun _ => rfl, rfl, fun _ _ => rfl, fun _ => rfl⟩
theorem unitFault (dt : Nat) (kind inst : Nat) (work : FaultWork) : Statement (.unitFault dt kind inst work) := ⟨fun _ => rfl, rfl, fun _ _ => rfl, fun _ => rfl⟩
theorem lockstepMismatch (dt : Nat) : Statement (.lockstepMismatch dt) := ⟨fun _ => rfl, rfl, fun _ _ => rfl, fun _ => rfl⟩
theorem sillResume (dt : Nat) (passed : Bool) : Statement (.sillResume dt passed) := ⟨fun _ => rfl, rfl, fun _ _ => rfl, fun _ => rfl⟩
theorem infieldTestDue (dt : Nat) (kind inst : Nat) : Statement (.infieldTestDue dt kind inst) := ⟨fun _ => rfl, rfl, fun _ _ => rfl, fun _ => rfl⟩
theorem infieldTestDone (dt : Nat) (kind inst : Nat) (passed agreed : Bool) : Statement (.infieldTestDone dt kind inst passed agreed) := ⟨fun _ => rfl, rfl, fun _ _ => rfl, fun _ => rfl⟩
theorem suspectAgeExpiry (dt : Nat) (kind inst : Nat) : Statement (.suspectAgeExpiry dt kind inst) := ⟨fun _ => rfl, rfl, fun _ _ => rfl, fun _ => rfl⟩
theorem historyWriteback (dt : Nat) : Statement (.historyWriteback dt) := ⟨fun _ => rfl, rfl, fun _ _ => rfl, fun _ => rfl⟩
theorem mcDelivery (dt : Nat) (delivery : Delivery) : Statement (.mcDelivery dt delivery) := ⟨fun _ => rfl, rfl, fun _ _ => rfl, fun _ => rfl⟩
theorem coldStart (dt : Nat) (fails : List (Nat × Cell)) : Statement (.coldStart dt fails) := ⟨fun _ => rfl, rfl, fun _ _ => rfl, fun _ => rfl⟩
theorem warmStart (dt : Nat) (fails : List (Nat × Cell)) : Statement (.warmStart dt fails) := ⟨fun _ => rfl, rfl, fun _ _ => rfl, fun _ => rfl⟩
theorem railLoss (dt : Nat) (aonKept : Bool) : Statement (.railLoss dt aonKept) := ⟨fun _ => rfl, rfl, fun _ _ => rfl, fun _ => rfl⟩
theorem sleepEntry (dt : Nat) : Statement (.sleepEntry dt) := ⟨fun _ => rfl, rfl, fun _ _ => rfl, fun _ => rfl⟩
theorem wakeTimerExpiry (dt : Nat) : Statement (.wakeTimerExpiry dt) := ⟨fun _ => rfl, rfl, fun _ _ => rfl, fun _ => rfl⟩
theorem fullWake (dt : Nat) : Statement (.fullWake dt) := ⟨fun _ => rfl, rfl, fun _ _ => rfl, fun _ => rfl⟩
theorem domainWake (dt : Nat) (domain : Nat) : Statement (.domainWake dt domain) := ⟨fun _ => rfl, rfl, fun _ _ => rfl, fun _ => rfl⟩
theorem domainPark (dt : Nat) (domain : Nat) : Statement (.domainPark dt domain) := ⟨fun _ => rfl, rfl, fun _ _ => rfl, fun _ => rfl⟩
theorem domainOff (dt : Nat) (domain : Nat) : Statement (.domainOff dt domain) := ⟨fun _ => rfl, rfl, fun _ _ => rfl, fun _ => rfl⟩
theorem droopTrip (dt : Nat) (sensor : Nat) (deep : Bool) : Statement (.droopTrip dt sensor deep) := ⟨fun _ => rfl, rfl, fun _ _ => rfl, fun _ => rfl⟩
theorem droopRelease (dt : Nat) (sensor : Nat) : Statement (.droopRelease dt sensor) := ⟨fun _ => rfl, rfl, fun _ _ => rfl, fun _ => rfl⟩
theorem sleepRequest (dt : Nat) (vset : Nat) (autoGate : Bool) : Statement (.sleepRequest dt vset autoGate) := ⟨fun _ => rfl, rfl, fun _ _ => rfl, fun _ => rfl⟩
theorem sleepClear (dt : Nat) (vset : Nat) (autoGate : Bool) : Statement (.sleepClear dt vset autoGate) := ⟨fun _ => rfl, rfl, fun _ _ => rfl, fun _ => rfl⟩
theorem warmReset (dt : Nat) (vset : Nat) (autoGate sleep : Bool) : Statement (.warmReset dt vset autoGate sleep) := ⟨fun _ => rfl, rfl, fun _ _ => rfl, fun _ => rfl⟩
theorem vsetWrite (dt : Nat) (vset : Nat) (autoGate sleep : Bool) : Statement (.vsetWrite dt vset autoGate sleep) := ⟨fun _ => rfl, rfl, fun _ _ => rfl, fun _ => rfl⟩
theorem causeClear (dt : Nat) (word hardware : Word) : Statement (.causeClear dt word hardware) := ⟨fun _ => rfl, rfl, fun _ _ => rfl, fun _ => rfl⟩
theorem causeMaskWrite (dt : Nat) (word : Word) : Statement (.causeMaskWrite dt word) := ⟨fun _ => rfl, rfl, fun _ _ => rfl, fun _ => rfl⟩
theorem apertureCtlReset (dt : Nat) (ap : Nat) : Statement (.apertureCtlReset dt ap) := ⟨fun _ => rfl, rfl, fun _ _ => rfl, fun _ => rfl⟩
theorem apertureViolClear (dt : Nat) (ap : Nat) (credit port : Bool) (hardware : Word) : Statement (.apertureViolClear dt ap credit port hardware) := ⟨fun _ => rfl, rfl, fun _ _ => rfl, fun _ => rfl⟩
theorem marchCtlPreserving (dt : Nat) (target : Bool) (first last : Nat) : Statement (.marchCtlPreserving dt target first last) := ⟨fun _ => rfl, rfl, fun _ _ => rfl, fun _ => rfl⟩
theorem marchCtlDestructive (dt : Nat) (target : Bool) (first last : Nat) : Statement (.marchCtlDestructive dt target first last) := ⟨fun _ => rfl, rfl, fun _ _ => rfl, fun _ => rfl⟩
theorem marchCtlAbort (dt : Nat) (target : Bool) (first last : Nat) : Statement (.marchCtlAbort dt target first last) := ⟨fun _ => rfl, rfl, fun _ _ => rfl, fun _ => rfl⟩
theorem repairMapReadLo (dt : Nat) (port : Bool) : Statement (.repairMapReadLo dt port) := ⟨fun _ => rfl, rfl, fun _ _ => rfl, fun _ => rfl⟩
theorem repairMapReadHi (dt : Nat) (port : Bool) : Statement (.repairMapReadHi dt port) := ⟨fun _ => rfl, rfl, fun _ _ => rfl, fun _ => rfl⟩
theorem loReadLatch (dt : Nat) (port : Bool) (offset : Nat) : Statement (.loReadLatch dt port offset) := ⟨fun _ => rfl, rfl, fun _ _ => rfl, fun _ => rfl⟩
theorem rcRead (dt : Nat) (port : Bool) (offset size : Nat) : Statement (.rcRead dt port offset size) := ⟨fun _ => rfl, rfl, fun _ _ => rfl, fun _ => rfl⟩
theorem camDbgSearch (dt : Nat) : Statement (.camDbgSearch dt) := ⟨fun _ => rfl, rfl, fun _ _ => rfl, fun _ => rfl⟩
theorem camDbgReadRow (dt : Nat) : Statement (.camDbgReadRow dt) := ⟨fun _ => rfl, rfl, fun _ _ => rfl, fun _ => rfl⟩
theorem camCorrClear (dt : Nat) (hardware : Bool) : Statement (.camCorrClear dt hardware) := ⟨fun _ => rfl, rfl, fun _ _ => rfl, fun _ => rfl⟩
theorem registerWrite (dt : Nat) (port : Bool) (offset size : Nat) (data : Nat) : Statement (.registerWrite dt port offset size data) := ⟨fun _ => rfl, rfl, fun _ _ => rfl, fun _ => rfl⟩
theorem ledgerAcknowledgement (dt : Nat) (hdr : MsgHdr) : Statement (.ledgerAcknowledgement dt hdr) := ⟨fun _ => rfl, rfl, fun _ _ => rfl, fun _ => rfl⟩
theorem kvTierPauseComplete (dt : Nat) (slot : Nat) : Statement (.kvTierPauseComplete dt slot) := ⟨fun _ => rfl, rfl, fun _ _ => rfl, fun _ => rfl⟩
theorem waitingGrantRequest (dt : Nat) (tenant : Nat) : Statement (.waitingGrantRequest dt tenant) := ⟨fun _ => rfl, rfl, fun _ _ => rfl, fun _ => rfl⟩
theorem grpLocateAnswer (dt : Nat) (hdr : MsgHdr) (tag : Nat) (answer : Option (Nat × Nat)) : Statement (.grpLocateAnswer dt hdr tag answer) := ⟨fun _ => rfl, rfl, fun _ _ => rfl, fun _ => rfl⟩

end Sys2Proof.Laws.Timed
end

