-- ==== Sys2Proof/Laws/Taken.lean ====
section
/-! SUPPORT. A staged packet that is taken up runs its own work, and a group message that is heard is acted on. -/
set_option linter.unusedTactic false
set_option linter.unreachableTactic false
set_option linter.unusedSimpArgs false
set_option linter.unusedVariables false
namespace Sys2Proof.Machine
open Sys2Proof

/-- A packet that is taken up runs its work on the state in which it is at work. -/
theorem State.runPacket_takesUp {s : State} {form : Pkt → Bool} {ap pos : Nat} {p : Pkt} (h : s.takesUp form ap pos p)
    (work : Pkt → State → State) : s.runPacket form ap pos work = work p (s.start_ p) := by
  have hm : (s.start_ p).str.memCancel = s.str.memCancel := by simp [State.start_]
  have ha := h.alive
  have hd : (s.start_ p).start.down = false := by simpa [State.start_] using h.up
  simp [State.runPacket, h.staged, h.isForm, h.turn, h.serves, h.core, hd, hm, h.checks]
  intro h1 h2
  simp [h1, h2] at ha

/-- A packet that uses Beryl runs its work once what waits there has gone on and its banks are quiet. -/
theorem State.runBeryl_takesUp {s : State} {form : Pkt → Bool} {uses : Pkt → List Nat} {ap pos : Nat} {p : Pkt}
    (h : s.settleBeryl.takesUp (fun p => form p && s.settleBeryl.quiet (uses p)) ap pos p) (work : Pkt → State → State) :
    s.runBeryl form uses ap pos work = work p (s.settleBeryl.start_ p) := State.runPacket_takesUp h work

/-- The form of a packet is looked at only once it is staged: a packet of another form, or out of its turn, leaves nothing to do. -/
theorem State.runPacket_late {s : State} {form : Pkt → Bool} {ap pos : Nat} {p : Pkt} (h1 : s.stagedAt ap pos = some p)
    (h2 : form p = false ∨ s.mayStart p = false) (work : Pkt → State → State) : s.runPacket form ap pos work = s := by
  rcases h2 with h2 | h2 <;> simp [State.runPacket, h1, h2]

/-- A packet that is not staged leaves nothing to do. -/
theorem State.runPacket_none {s : State} {ap pos : Nat} (h : s.stagedAt ap pos = none) (form : Pkt → Bool)
    (work : Pkt → State → State) : s.runPacket form ap pos work = s := by
  simp [State.runPacket, h]

theorem State.hear_of_hears {s : State} {hdr : MsgHdr} {checked : Bool} (h : s.hears hdr checked) (act : State → State) :
    s.hear hdr checked act = act s := by
  have hw : s.wakeCause = s := by simp [State.wakeCause, h.run]
  cases checked <;> simp [State.hear, State.arrives, hw, h.run, h.up, h.crc, h.epoch, State.isolated]

end Sys2Proof.Machine

/-! ### The stream table -/
namespace Sys2Proof.Machine
open Sys2Proof

/-- The stream found in a slot has that slot. -/
theorem State.stream?_slot {s : State} {slot : Nat} {t : Stream} (h : s.stream? slot = some t) : t.id.slot = slot := by
  simpa using List.find?_some h

/-- The stream that a handle names is the stream of its slot. -/
theorem State.live?_stream? {s : State} {h : Nat} {t : Stream} (hl : s.live? h = some t) : s.stream? t.id.slot = some t := by
  unfold State.live? at hl
  split at hl
  · rename_i u hu
    split at hl
    · cases hl
      rw [State.stream?_slot hu]
      exact hu
    · cases hl
  · cases hl

/-- The stream of a slot after it was changed. -/
theorem State.stream?_onStream {s : State} {slot : Nat} {f : Stream → Stream} {t : Stream} (h : s.stream? slot = some t)
    (hf : (f t).id.slot = slot) : (s.onStream slot f).stream? slot = some (f t) := by
  unfold State.stream? at *
  show List.find? _ (s.str.tab.map _) = _
  generalize s.str.tab = l at *
  induction l with
  | nil => cases h
  | cons a l ih =>
    by_cases ha : a.id.slot = slot
    · have : a = t := by simpa [ha] using h
      subst this
      simp [ha, hf]
    · have := ih (by simpa [ha] using h)
      simpa [ha] using this
end Sys2Proof.Machine
end

