-- ==== Sys2Proof/Machine/Entry.lean ====
section
/-! DEFINITION. The byte layouts of what the block keeps in its tables, pools and the memory stacks, as views of State: the stream table entry
(R210, R224, R306, R362), stack chunks (R211), tree records (R361), pause records (R336), prefix records (R340), migration packages (R346)
and step descriptors (R318, R363). The places that the manual leaves to the block are log 136. -/
namespace Sys2Proof.Machine
open Sys2Proof

/-- An index that may be absent, with its VALID bit 31. -/
def validIndex (o : Option Nat) : Nat := match o with | some n => n + 2 ^ 31 | none => 0

/-- A byte string in a field of n bytes, zero beyond its end. -/
def padded (n : Nat) (bs : Bytes) : Bytes := (bs ++ List.replicate n 0#8).take n

/-- Values packed in order from bit 0, w bits each. -/
def packed (w : Nat) : List Nat → Nat
  | [] => 0
  | v :: vs => v % 2 ^ w + 2 ^ w * packed w vs

/-! ### Parse states, shutters and stack chunks -/

/-- The 16 bytes of a parse state (R210). -/
def Parse.bytes (ps : Parse) : Bytes :=
  leBytes 2 ps.gid ++ leBytes 1 (gstateCode ps.gstate + 4 * ps.bcause) ++ leBytes 1 (flag (ps.spilled != 0) 0 + flag ps.refill 1) ++
  leBytes 2 ps.lex ++ leBytes 2 ps.stack.length ++ leBytes 4 (ps.chunks.getLast?.getD 0) ++ leBytes 2 (ps.stack.getLast?.getD 0) ++
  leBytes 2 (ps.stack.length - ps.spilled)

/-- The code of a shutter's KIND (R224). -/
def skindCode : SKind → Nat
  | .open => 0
  | .pending => 1
  | .building => 2
  | .ready => 3
  | .heal => 4

/-- RESULT of a shutter: the first block of what it names (R224, R229). -/
def State.resultIndex (s : State) (r : SResult) : Option Nat :=
  match r with
  | .none => none
  | .cached n => (s.str.cache.find? (fun e => e.num == n)).bind (fun e => e.blocks.head?)
  | .priv _ bs => bs.head?
  | .heal _ bs => bs.head?

/-- The 16 bytes of a shutter descriptor (R224). -/
def State.descBytes (s : State) (d : Shutter) : Bytes :=
  leBytes 4 (d.base.getD 0xFFFFFFFF) ++ leBytes 4 ((s.resultIndex d.result).getD 0xFFFFFFFF) ++ leBytes 4 d.config ++
  leBytes 1 (skindCode d.kind + flag d.endOk 3 + flag d.guard 4) ++ leBytes 3 0

/-- Chunk number j of a stack that lies in the pool: its link and its entries (R211). -/
def State.chunkBytes (s : State) (ps : Parse) (j : Nat) : Bytes :=
  let es := (ps.stack.drop (28 * j)).take 28
  let ovf := decide (0 < j) && decide (j - 1 < ps.firstChunk)
  let prev := if j == 0 then 0 else if ovf then j - 1 else (ps.chunks[j - 1 - ps.firstChunk]?).getD 0
  let ref := match ps.chunks[j - ps.firstChunk]? with | some c => s.chunkRef c | none => 1
  leBytes 8 (prev + flag ovf 24 + flag (j == 0) 25 + es.length * 2 ^ 26 + ref * 2 ^ 32) ++ padded 56 (es.flatMap (leBytes 2))

/-! ### The stream table entry (R306) -/

/-- SPEC (R362). -/
def Stream.spec (t : Stream) : Nat :=
  match t.tree with
  | none => 0
  | some tr => tr.record + tr.nodes.length * 2 ^ 16 + 2 ^ 22 + flag tr.inStep 23

/-- MODE (R306). -/
def Stream.mode (t : Stream) : Nat :=
  flag t.id.force 0 + flag t.id.gang 1 + flag t.id.pin 2 + flag t.enc.heal.isSome 3 + flag t.enc.docOpen 4 + flag t.lpause 5 +
  flag t.pausePending.isSome 6 + flag t.cancelPending 7

/-- The 32-byte header of a shaping block (R254), whose first 16 bytes are SHAPE of the entry. -/
def shapeHeader (rt topP minP topK count : Nat) (gang : Bool) : Bytes :=
  leBytes 4 rt ++ leBytes 4 topP ++ leBytes 4 minP ++ leBytes 2 topK ++ leBytes 2 count ++ leBytes 1 (flag gang 0) ++ leBytes 15 0

/-- A bias list as it stands in a shaping block (R254). -/
def biasBytes (l : List (Nat × Nat)) : Bytes := l.flatMap (fun e => leBytes 4 e.1 ++ leBytes 4 e.2)

/-- The bytes of a stream table entry up to its firmware-private part (R306). -/
def State.entryHead (s : State) (t : Stream) : Bytes :=
  let l := t.lat.endAll s.aon.time
  leBytes 2 t.id.gen ++ leBytes 1 (stateCode t.state) ++ leBytes 1 t.mode ++
  leBytes 4 (t.id.tenant + t.id.priority * 2 ^ 24 + t.id.policy * 2 ^ 26) ++ leBytes 1 t.id.profile ++
  leBytes 1 (match s.img.versions.find? (fun v => v.uid == t.id.vuid) with | some v => v.handle | none => 0) ++
  leBytes 1 t.id.ap ++ leBytes 1 t.id.ring ++ leBytes 2 t.id.modelGen ++ leBytes 1 t.epoch ++
  leBytes 1 (t.id.specialOut + 4 * t.id.outInvalid + 16 * t.id.pmode + flag t.enc.promptDone 6) ++ t.parse.bytes ++
  s.descBytes t.shutter ++ leBytes 4 (validIndex t.kv.head?) ++ leBytes 4 (validIndex t.kv.getLast?) ++ leBytes 4 t.kv.length ++
  leBytes 4 t.length ++ leBytes 4 t.enc.prompt ++ leBytes 4 t.generated ++ leBytes 4 t.id.maxGen ++
  leBytes 4 (t.blocks.queue.head?.getD 0) ++ leBytes 8 l.readyTime ++ leBytes 8 (l.deadline.getD allOnes64) ++ leBytes 4 l.ttft ++
  leBytes 4 l.tbt ++ leBytes 4 l.lateCount ++ leBytes 4 (l.stallLintel / 1000) ++ leBytes 4 (l.stallHold / 1000) ++
  leBytes 4 (l.stallRing / 1000) ++ leBytes 4 l.tbtMax ++
  leBytes 4 (le t.dec.carry + t.dec.carry.length * 2 ^ 24 + t.dec.hold * 2 ^ 26) ++
  ((List.range 16).flatMap (fun i => leBytes 2 (((t.id.stops[i]?).map (·.1)).getD 0xFFFF))) ++ leBytes 4 (validIndex t.blocks.window) ++
  leBytes 4 (match t.enc.heal with | some h => validIndex (some (t.blocks.heal.getD 0 + h.1.length * 2 ^ 24)) | none => 0) ++
  (shapeHeader t.id.rt t.id.topP t.id.minP t.id.topK t.id.bias.length t.id.gang).take 16 ++ leBytes 4 (validIndex t.blocks.bias.head?) ++
  leBytes 4 t.queue.length ++ leBytes 8 t.lastStep ++ leBytes 8 t.spec ++
  leBytes 4 (match t.choice with | some c => validIndex (some c.token) | none => 0) ++
  leBytes 12 (packed 20 ((List.range 4).map (fun i => (t.id.ends[i]?).getD 0xFFFFF))) ++ leBytes 8 t.id.openTime ++
  leBytes 4 (validIndex t.pfx)

/-- The 256 bytes of a stream table entry, with what firmware keeps in its private part (R306). -/
def State.entryBytes (s : State) (t : Stream) (priv : Bytes) : Bytes := s.entryHead t ++ padded 20 priv

/-! ### Tree records (R361) -/

/-- The 64 bytes of a draft node. -/
def State.nodeBytes (s : State) (n : TNode) : Bytes :=
  leBytes 4 n.token ++ leBytes 1 n.parent ++ leBytes 1 n.depth ++ leBytes 1 (flag true 0 + flag n.broken 1) ++ leBytes 9 0 ++
  n.parse.bytes ++ s.descBytes n.shutter ++ leBytes 16 0

/-- The bytes of a tree record: node 0, then the draft nodes. -/
def State.treeBytes (s : State) (tr : Tree) : Bytes :=
  leBytes 4 0xFFFFFFFF ++ leBytes 1 0xFF ++ leBytes 59 0 ++ tr.nodes.flatMap s.nodeBytes

/-! ### Pause records (R336) and prefix records (R340) -/

/-- A window block: the last output bytes, and their count in its last byte (R173, log 136). -/
def windowBytes (w : Bytes) : Bytes := padded 63 w ++ leBytes 1 w.length

/-- Bytes 0x00 to 0x3F of a pause record. -/
def PauseRec.header (r : PauseRec) : Bytes :=
  leBytes 1 r.pmode ++ leBytes 1 (stateCode r.ret) ++ leBytes 2 0 ++ leBytes 4 r.sumSize ++ leBytes 8 r.sumHandle ++ leBytes 8 r.sumLoc ++
  leBytes 8 r.expiry ++ leBytes 8 r.tierAddr ++ leBytes 4 r.tierPages ++ leBytes 20 0

/-- The bytes of a pause record. -/
def PauseRec.bytes (r : PauseRec) (gang : Bool) : Bytes :=
  r.header ++ windowBytes r.window ++ padded 64 ((r.heal.map (·.1)).getD []) ++ leBytes 64 0 ++
  padded 32800 (shapeHeader r.rt r.topP r.minP r.topK r.bias.length gang ++ biasBytes r.bias) ++ leBytes 288 0 ++
  leBytes 4 r.input.length ++ padded 16384 (r.input.flatMap (leBytes 4))

/-- Where the pause record of a slot lies (R336). -/
def State.pauseAddr (s : State) (slot : Nat) : Nat := s.start.stackMap.pauseBase + slot * 65536

/-- Where the overflow slot of a stream's stack lies (R211). -/
def State.overflowAddr (s : State) (slot : Nat) : Nat := s.start.stackMap.ovfBase + slot * 4096

/-- The 64 bytes of a prefix record (R340). -/
def PfxRec.bytes (r : PfxRec) : Bytes :=
  leBytes 8 r.handle ++ leBytes 4 r.tenant ++ leBytes 4 (validIndex r.parent) ++ leBytes 4 r.length ++ leBytes 4 (validIndex r.pages.head?) ++
  leBytes 4 r.pages.length ++ leBytes 4 r.attach ++ leBytes 8 r.summary ++ leBytes 4 r.canonCrc ++ leBytes 2 r.modelGen ++
  leBytes 1 (r.profile + flag r.dropped 4 + flag r.replica 5) ++ leBytes 1 r.depth ++ leBytes 16 0

/-- Where a prefix record lies (R340). -/
def State.pfxAddr (s : State) (num : Nat) : Nat := s.start.stackMap.handleBase + num * 64

/-! ### Migration packages (R346) -/

/-- The sections of a package, in order. -/
def packageSections (b : PkgBody) : Bytes :=
  b.stack.flatMap (leBytes 2) ++ (if b.stops.isEmpty then [] else windowBytes b.window) ++ b.heal.getD [] ++
  b.stops.flatMap (fun x => leBytes 1 x.2.length ++ x.2) ++ shapeHeader b.rt b.topP b.minP b.topK b.bias.length (bit b.mode 1) ++
  biasBytes b.bias ++ b.queue.flatMap (leBytes 4)

/-- The pause record's header that a package carries. -/
def packagePause (b : PkgBody) : Bytes :=
  if b.paused then
    PauseRec.header { pmode := b.recPmode, ret := stateOfCode b.returnState, sumSize := b.sumSize, sumHandle := b.sumHandle,
                      sumLoc := b.sumLoc, expiry := b.expiry, tierAddr := b.tierAddr, tierPages := b.tierPages }
  else leBytes 64 0

/-- The bytes of a package from a member of the group, with the stream table entry that it carries. -/
def packageBytes (b : PkgBody) (source : Nat) (entry : Bytes) : Bytes :=
  leBytes 4 b.oldHandle ++ leBytes 1 source ++ leBytes 1 (flag b.paused 0 + flag b.heal.isSome 1) ++ leBytes 2 b.modelGen ++
  leBytes 4 b.canonCrc ++ leBytes 4 b.grammarCrc ++ leBytes 8 b.sealId ++ leBytes 4 (packageSections b).length ++ leBytes 4 0 ++
  padded 256 entry ++ packagePause b ++ packageSections b

/-! ### Step descriptors (R318, R363) -/

/-- FACET of an entry: ROW, log2 G and the facet with the lowest instance number. -/
def StepEntry.facet (e : StepEntry) : Nat :=
  if e.row then flag true 7 + e.facets.length.log2 * 16 + (e.facets.foldl min 15) else 0

/-- GANG of an entry: the facets that shape part of the row. -/
def StepEntry.gang (e : StepEntry) : Nat := if e.row then bitMap e.facets else 0

/-- The 64 bytes of an entry whose tokens, pages and parents lie at these offsets. -/
def StepEntry.bytes (e : StepEntry) (tokOff pageOff parentOff : Nat) : Bytes :=
  leBytes 4 e.handle ++ leBytes 1 e.kind ++ leBytes 1 e.facet ++ leBytes 1 e.profile ++ leBytes 1 e.nodes ++ leBytes 4 e.position ++
  leBytes 4 e.tokens.length ++ leBytes 4 tokOff ++ leBytes 4 e.pages.length ++ leBytes 4 pageOff ++ leBytes 4 e.newPages ++
  leBytes 8 e.summary ++
  (if e.kind == 2 then leBytes 4 parentOff ++ leBytes 1 e.epoch ++ leBytes 1 e.depth ++ leBytes 16 0 else leBytes 22 0) ++ leBytes 2 e.gang

/-- Entries laid out one after the other, from the offsets of their token, page and parent areas. -/
def entriesBytes : List StepEntry → Nat → Nat → Nat → Bytes
  | [], _, _, _ => []
  | e :: es, tok, page, parent =>
    e.bytes tok page parent ++ entriesBytes es (tok + 4 * e.tokens.length) (page + 4 * e.pages.length) (parent + e.parents.length)

/-- The bytes of a step descriptor: header, entries, token area, page area, and the parents of draft nodes after it (log 136). -/
def StepDesc.bytes (d : StepDesc) : Bytes :=
  let toks := d.entries.flatMap (·.tokens)
  let pages := d.entries.flatMap (·.pages)
  let tok := 64 + 64 * d.entries.length
  let page := tok + 4 * toks.length
  leBytes 8 d.step ++ leBytes 2 d.imgGen ++ leBytes 2 d.modelGen ++ leBytes 4 d.entries.length ++ leBytes 8 d.sealId ++ leBytes 8 d.time ++
  leBytes 32 0 ++ entriesBytes d.entries tok page (page + 4 * pages.length) ++ toks.flatMap (leBytes 4) ++ pages.flatMap (leBytes 4) ++
  d.entries.flatMap (fun e => e.parents.flatMap (leBytes 1))

end Sys2Proof.Machine
end

