-- ==== Sys2Proof/Tests/Slice0.lean ====
section
/-! SUPPORT. Tests on single commands, witnesses that the statements' premises can be met, and an ill-formed command for each check. -/
open Sys2Proof Sys2Proof.Machine
namespace Sys2Proof.Tests

/-- Reset meets the invariant. -/
theorem resetInv : State.reset.Inv := (State.lost_within false State.reset).inv
  |> fun _ => ⟨State.reset_aon_ok, ⟨List.length_replicate .., fun a ha => by
      rw [List.eq_of_mem_replicate (show a ∈ List.replicate 64 {} from ha)]; decide⟩,
    ⟨List.length_replicate .., fun g hg _ => by rw [List.eq_of_mem_replicate (show g ∈ List.replicate 64 {} from hg)],
      by show ((List.replicate 64 ({} : Ring)).filter (·.events)).length ≤ 1; decide, Nat.zero_le _⟩,
    ⟨(List.length_map _).trans unitsAtReset_length, List.length_replicate .., List.length_replicate .., rfl, fun c hc => by
      rw [List.eq_of_mem_replicate (show c ∈ List.replicate 6 0 from hc)]; decide⟩⟩

/-- Whether a staged packet is taken up, computed. -/
def takenB (s : State) (form : Pkt → Bool) (ap pos : Nat) (p : Pkt) : Bool :=
  decide (s.stagedAt ap pos = some p) && form p && s.mayStart p && s.serving && !(p.firmware && s.mem.sillHalted) &&
  !s.start.down && !(p.onStream && s.str.memCancel.contains p.stream) && decide ((s.start_ p).check56 p = .pass)

/-- Whether a packet command finds its packet and takes it up, computed. -/
def dueB (s : State) (i : Instr) (p : Pkt) : Bool :=
  match packetOf i with
  | some (ap, pos, form) => takenB (s.found i) (s.formFor i form) ap pos p
  | none => false

theorem takesUp_of {s : State} {form : Pkt → Bool} {ap pos : Nat} {p : Pkt} (h : takenB s form ap pos p = true) :
    s.takesUp form ap pos p := by
  simp only [takenB, Bool.and_eq_true, decide_eq_true_eq, Bool.not_eq_true'] at h
  exact ⟨h.1.1.1.1.1.1.1, h.1.1.1.1.1.1.2, h.1.1.1.1.1.2, h.1.1.1.1.2, h.1.1.1.2, h.1.1.2, h.1.2, h.2⟩

theorem due_of {s : State} {i : Instr} {p : Pkt} (h : dueB s i p = true) : s.due i p := by
  unfold dueB at h
  unfold State.due
  split
  · rename_i hp
    rw [hp] at h
    exact takesUp_of h
  · rename_i hp
    rw [hp] at h
    cases h

/-- A packet as the host sends it, with opcode, stream, flags, ARG and payload. -/
def pkt (op : Nat) (stream : Nat := 0) (arg : Nat := 0) (payload : Bytes := []) (flags : Nat := 0) : Pkt :=
  { (Pkt.ofBytes 0 0 []) with opcode := op, stream := stream, arg := arg, payload := payload, flags := flags }

/-- A running block, as an empty fault history leaves its units. -/
def runs : State :=
  { State.reset with start := { State.reset.start with phase := .run, ready := true }, mem := { State.reset.mem with units := unitsAtReset } }

/-- A running block with one packet staged. -/
def host (p : Pkt) (s : State := runs) : State := { s with ing := { s.ing with staged := [p] } }


theorem witness_StepRunsFront :
    (State.reset.setPending [.idleBoundary 0]).pending = .idleBoundary 0 :: [] ∧ State.reset.pending = [] := by decide

theorem witness_StepKeepsInvariant :
    (State.reset.setPending [.coldStart 0 []]).Inv ∧
    ∃ t, step (State.reset.setPending [.coldStart 0 []]) = .next t ∧ t.start.phase = .starting :=
  ⟨⟨resetInv.aon, resetInv.ing, resetInv.egr, resetInv.mem⟩, _, rfl, by decide⟩

theorem witness_CommandTouches : ∃ t, exec (.causeMaskWrite 5 7) State.reset = .next t := ⟨_, rfl⟩

theorem witness_TimeMovesFirst : ∀ dt, (.idleBoundary 7 : Instr) ≠ .timeSlewTick dt := by simp

theorem witness_NothingStops :
    ¬(2 % 4 = 0 ∧ 1 ≤ [(⟨0#32, true⟩ : Dword)].length ∧ [(⟨0#32, true⟩ : Dword)].length ≤ 1024 ∧ 2 + 4 * [(⟨0#32, true⟩ : Dword)].length ≤ 64 * 0x100000) ∧
    windowSize < 0xFFFE + 4 := by decide

theorem witness_PacketNotStaged :
    packetOf (.sysTime 0 3 64) = some (3, 64, isOp 0x0103) ∧ (State.reset.found (.sysTime 0 3 64)).stagedAt 3 64 = none ∧
    ((host (pkt 0x0103)).found (.sysHello 0 0 0)).stagedAt 0 0 = some (pkt 0x0103) ∧
    (host (pkt 0x0103)).formFor (.sysHello 0 0 0) (fun p => isOp 0x0101 p && !bit p.arg 8) (pkt 0x0103) = false := by
  refine ⟨rfl, rfl, by decide, by decide⟩

theorem witness_PacketRefusedAtChecks :
    let p := pkt 0x0303 5
    (host p).stagedAt 0 0 = some p ∧ (host p).mayStart p = true ∧ (host p).serving = true ∧
    (p.firmware && (host p).mem.sillHalted) = false ∧ (p.onStream && (host p).str.memCancel.contains p.stream) = false ∧
    ((host p).atWork (.strCancel 0 0 ⟨0, none⟩) p).check56 p = .fail stStaleHandle := by decide

theorem witness_CheckFiveSixOrder :
    let p := pkt 0x0103
    let q := pkt 0x0303 5
    p.onStream = false ∧ (host p).check56 p = .pass ∧ q.onStream = true ∧ (host q).live? q.stream = none ∧
    (host p).check56 (pkt 0x0103 (flags := 2)) = .pass ∧
    (host p).check56 { (pkt 0x0103 (flags := 2)) with imgGen := 9 } = .fail stStateConflict := by decide

theorem witness_HostWriteRecorded :
    (runs.elapse 0).wakeCause.serving = true ∧ ((runs.elapse 0).wakeCause.ap 1).boundTo = none ∧
    ((runs.elapse 0).wakeCause.ap 1).halted = false ∧ (runs.elapse 0).wakeCause.ing.aps.length = 64 ∧
    ((runs.elapse 0).wakeCause.ap 1).position 0x80 + 4 ≤ ((runs.elapse 0).wakeCause.ap 1).consumed + 262144 := by decide

/-- A running block whose aperture 2 is bound to port 1. -/
def bound : State := runs.onAp 2 (fun a => { a with boundTo := some true })

theorem witness_HostWriteDiscarded :
    (State.reset.elapse 0).wakeCause.serving = false ∧ (bound.elapse 0).wakeCause.serving = true ∧
    ((bound.elapse 0).wakeCause.ap 2).boundTo = some (!false) ∧ ((bound.elapse 0).wakeCause.ap 2).boundTo ≠ some (!true) ∧
    ((bound.elapse 0).wakeCause.ap 2).consumed + 262144 < ((bound.elapse 0).wakeCause.ap 2).position 0x40000 + 4 * 1 ∧
    (((bound.onAp 2 (fun a => { a with halted := true })).elapse 0).wakeCause.ap 2).halted = true ∧
    ((bound.elapse 0).wakeCause.ap 2).position 0 + 4 * 1 ≤ ((bound.elapse 0).wakeCause.ap 2).consumed + 262144 := by decide

theorem witness_HostReadZeros : runs.ing.aps.length = 64 ∧ 0xFFFFE + 4 ≤ 64 * 0x100000 ∧ 0xFFFFC % 4 = 0 ∧ 0xFFFFC + 4 * 2 ≤ 64 * 0x100000 := by decide

theorem witness_CreditWordWritten :
    let s := runs.onAp 3 (fun a => { a with creditAddr := 0x1000, consumed := 64 })
    3 < s.ing.aps.length ∧ (s.ap 3).creditAddr ≠ 0 ∧ (s.ap 3).creditOn = true ∧ (s.ap 3).creditWritten < (s.ap 3).consumed ∧
    (s.ap 4).creditAddr = 0 := by decide

/-- The header of a sys.time packet and its trailer, as the host writes them: 36 bytes. -/
def timeBytes : Bytes := leBytes 2 0x0103 ++ leBytes 16 0 ++ leBytes 1 1 ++ leBytes 13 0

/-- Aperture 1 of a running block with that packet announced at position 0. -/
def announced : State := runs.onAp 1 (fun a => a.recordAll 0
  ((fields 4 9 (timeBytes ++ leBytes 4 (crc32c timeBytes))).map (fun v => { val := BitVec.ofNat 32 v, whole := true })))

theorem witness_ConsumePacket :
    (announced.ap 1).halted = false ∧ announced.serving = true ∧
    (announced.ap 1).gather 0 8 = some (timeBytes, true) ∧ rd timeBytes 18 1 = 1 ∧ rd timeBytes 4 4 = 0 ∧
    (announced.ap 1).gather 0 9 = some (timeBytes ++ leBytes 4 (crc32c timeBytes), true) := by decide +kernel

theorem test_consume_stages_the_packet :
    (match exec (.packetConsume 0 1) announced with | .next t => (t.ing.staged.map (·.opcode), (t.ap 1).consumed) | _ => ([], 0)) =
      ([0x0103], 64) := by decide +kernel

theorem witness_HelloAndTime :
    (host (pkt 0x0101 0 0 (leBytes 8 0x2000))).due (.sysHello 0 0 0) (pkt 0x0101 0 0 (leBytes 8 0x2000)) ∧
    (host (pkt 0x0101 0 0x105 (leBytes 8 0))).due (.sysHelloApertureReset 0 0 0) (pkt 0x0101 0 0x105 (leBytes 8 0)) ∧
    (host (pkt 0x0103)).due (.sysTime 9 0 0) (pkt 0x0103) :=
  ⟨due_of (by decide), due_of (by decide), due_of (by decide)⟩

/-- A payload of sys.ring: ring, flags, vector 3, 2^16 bytes. -/
def ringPayload (ring flags : Nat) : Bytes :=
  leBytes 1 ring ++ leBytes 1 flags ++ leBytes 2 3 ++ leBytes 1 16 ++ leBytes 3 0 ++ leBytes 8 0x10000 ++ leBytes 8 0x8000 ++
  leBytes 4 4 ++ leBytes 4 1000 ++ leBytes 16 0

theorem witness_RingsConfigured :
    (host (pkt 0x0102 0 0 (ringPayload 2 3))).due (.sysRingEnable 0 0 0) (pkt 0x0102 0 0 (ringPayload 2 3)) ∧
    (ringReq (ringPayload 2 3)).map (·.ring) = some 2 ∧
    ((host (pkt 0x0102 0 0 (ringPayload 2 3))).ring 2).enabled = false ∧
    (host (pkt 0x0102 0 0 (ringPayload 2 0))).due (.sysRingDisable 0 0 0) (pkt 0x0102 0 0 (ringPayload 2 0)) ∧
    (host (pkt 0x0102 0 0 (ringPayload 2 0))).ringNamed 2 = false :=
  ⟨due_of (by decide), by decide, by decide, due_of (by decide), by decide⟩

/-- A running block whose ring 0 is enabled with 2^16 bytes, and takes events. -/
def ringed (s : State := runs) : State :=
  s.onRing 0 (fun g => { g with enabled := true, events := true, sizeLog2 := 16, vector := 5, modCount := 9, modTime := 100 })

theorem witness_RecordHandedOn :
    let g := (ringed).ring 0
    let far := ((ringed).onRing 0 (fun g => { g with tail := 65536 })).ring 0
    0 < (ringed).egr.rings.length ∧ g.enabled = true ∧ g.waiting = [] ∧ g.tail + 64 ≤ g.head + g.size ∧
    (runs.ring 0).enabled = false ∧ far.enabled = true ∧ far.head + far.size < far.tail + 64 := by decide

theorem witness_CmpRecordWritten :
    (host (pkt 0x0103 (flags := 8))).ing.cmpWait = [] ∧ (pkt 0x0103 (flags := 8)).noCmp = true ∧ (pkt 0x0103).noCmp = false ∧
    ((host (pkt 0x0103)).finish (pkt 0x0103)).cmpBlocked (pkt 0x0103) = false ∧
    ((host { (pkt 0x0303 5) with pos := 0 }).finish { (pkt 0x0304 5) with pos := 64 }).cmpBlocked { (pkt 0x0304 5) with pos := 64 } = true := by
  decide

theorem witness_CmpRecordLayout : ((pkt 0x0103).opcode < 2 ^ 16) ∧ (recBytes true (.cmp (runs.cmpRec (pkt 0x0103) 0 none 0 0 1#64 2#64 3#64))).length = 64 := by
  decide

theorem witness_WaitingRecordsDrain :
    let s := (ringed).onRing 0 (fun g => { g with tail := 65536, waiting := [(none, .pad 1)] })
    0 < s.egr.rings.length ∧ (s.ring 0).enabled = true ∧ (s.ring 1).enabled = false ∧
    (s.ring 0).fits (.pad 1) = false := by decide

theorem witness_RingTimersAndFaults :
    let s := (ringed).onRing 3 (fun g => { g with enabled := true, waitSince := some 5, lost := 2, oldest := some 1, modTime := 4, vector := 9 })
    (s.ring 3).waitSince = some 5 ∧ 5 + 100000000 ≤ (s.elapse 100000009).aon.time ∧ (s.ring 3).stallSent = false ∧
    (s.ring 3).lost ≠ 0 ∧ (s.ring 3).lastLost = none ∧ 1 + (s.ring 3).modTime ≤ (s.elapse 100000009).aon.time ∧
    (s.elapse 3).aon.time < 5 + 100000000 ∧ s.eventRing = some 0 ∧ (s.ring 0).oldest = none ∧ (s.ring 0).lost = 0 := by decide

/-- A running block whose load slot 2 has received four bytes of an image through aperture 0. -/
def loading (total : Nat) (s : State := runs) : State :=
  s.setSlot 2 { state := .receiving, bytes := leBytes 4 7, ap := 0, total := total }

theorem witness_ImageChunks :
    let p := pkt 0x0201 0 (4 + 2 * 2 ^ 32) (leBytes 4 0)
    let w := (host p (loading 99)).atWork (.imgLoad 0 0 0) p
    let e := (host p).atWork (.imgLoad 0 0 0) p
    (host p (loading 99)).due (.imgLoad 0 0 0) p ∧ (host p).due (.imgLoad 0 0 0) p ∧ bits p.arg 35 32 = 2 ∧ 2 < w.img.slots.length ∧
    (w.slot 2).state = .receiving ∧ (e.slot 2).state = .empty ∧ bits p.arg 31 0 = (w.slot 2).bytes.length ∧ (w.slot 2).waitPkt = none ∧
    (w.contentFault (leBytes 8 7) 4).isSome = true ∧ w.unsigned (leBytes 8 7) = false ∧
    (((runs.setSlot 2 { state := .receiving, waitPkt := some p }).elapse 0).settleBeryl.slot 2).waitPkt = some p ∧
    (((runs.elapse 0).settleBeryl).slot 2).state ≠ .receiving :=
  ⟨due_of (by decide), due_of (by decide), by decide, by decide, by decide, by decide, by decide, by decide, by decide, by decide, by decide, by decide⟩

theorem witness_ImageCommits :
    let p := pkt 0x0202 0 2
    let s := runs.setSlot 2 { state := .staged, gen := 7 }
    (host p s).due (.imgCommit 0 0 0) p ∧ ((host p s).atWork (.imgCommit 0 0 0) p).commitRefusal (((host p s).atWork (.imgCommit 0 0 0) p).slot 2) false = none ∧
    ((host p).atWork (.imgCommit 0 0 0) p).commitRefusal (((host p).atWork (.imgCommit 0 0 0) p).slot 2) false = some stStateConflict ∧
    (runs.img.slots.zipIdx).filter (fun x => x.1.state == .committing) = [] :=
  ⟨due_of (by decide), by decide, by decide, by decide⟩

theorem witness_ImageDropsAndQueries :
    (host (pkt 0x0203 0 0x20) (loading 9)).due (.imgDropSlot 0 0 0) (pkt 0x0203 0 0x20) ∧
    (((host (pkt 0x0203 0 0x20) (loading 9)).atWork (.imgDropSlot 0 0 0) (pkt 0x0203 0 0x20)).slot 2).state = .receiving ∧
    (host (pkt 0x0203 0 0x10)).due (.imgDropSlot 0 0 0) (pkt 0x0203 0 0x10) ∧
    (host (pkt 0x0203 0 0x90001)).due (.imgDropGrammar 0 0 0) (pkt 0x0203 0 0x90001) ∧
    runs.gramNamed 9 = false ∧
    (host (pkt 0x0204 0 0)).due (.imgQuery 0 0 0) (pkt 0x0204 0 0) ∧ (host (pkt 0x0204 0 1)).due (.imgQuery 0 0 0) (pkt 0x0204 0 1) ∧
    (host (pkt 0x0204 0 3)).due (.imgQuery 0 0 0) (pkt 0x0204 0 3) ∧ (host (pkt 0x0204 0 2)).due (.imgQuery 0 0 0) (pkt 0x0204 0 2) :=
  ⟨due_of (by decide), by decide, due_of (by decide), due_of (by decide), by decide, due_of (by decide), due_of (by decide),
    due_of (by decide), due_of (by decide)⟩

/-- A running block with one committed profile of 300 tokens, whose personality prefills and generates. -/
def profiled (s : State := runs) : State :=
  s.onImg (fun g => { g with
    versions := [{ uid := 1, handle := 0, litHandle := 0, number := 0, gen := 1, prof := { vocab := 300 }, special := [], stops := [],
                   bankMap := [], pieces := [], inSet := true }],
    frame := { g.frame with personality := 3 } })

/-- A payload of str.open: tenant 7, profile 0, no grammar, no prefix, greedy shaping, no stops and no input. -/
def openPayload : Bytes :=
  leBytes 4 7 ++ leBytes 60 0 ++ leBytes 4 0x3F800000 ++ leBytes 4 0x3F800000 ++ leBytes 4 0 ++ leBytes 2 1 ++ leBytes 18 0

theorem witness_StreamOpened :
    let p := pkt 0x0301 0 0 openPayload
    let w := (host p (profiled)).atWork (.strOpen 0 0 0) p
    dueB (host p (profiled)) (.strOpen 0 0 0) p = true ∧ (openReq openPayload).map (·.tenant) = some 7 ∧
    (openReq openPayload).map (·.hasPrefix) = some false ∧
    ((openReq openPayload).bind (fun o => (w.committed o.profile).bind (fun v => (w.openGram o).bind (fun g =>
      if w.openRefusal o v none = none then (w.buildEntry p o v g).map (·.1) else none)))) = some 0 ∧
    openReq (leBytes 4 7) = none ∧ (openReq openPayload).map (fun o => (runs.committed o.profile).isNone) = some true := by
  decide +kernel

/-- A running block with one stream in a given state, in slot 5 at generation 0, bound to aperture 0 and ring 0. -/
def streamed (st : SState) (f : Stream → Stream := id) (s : State := profiled) : State :=
  s.onStr (fun g => { g with freeNext := 6, tab := [f { id := { slot := 5, gen := 0, vuid := 1 }, state := st }] })

theorem witness_StreamEnds :
    (host (pkt 0x0302 5) (streamed .ready)).due (.strClose 0 0 ⟨0, some 3⟩) (pkt 0x0302 5) ∧
    (host (pkt 0x0303 5) (streamed .await)).due (.strCancel 0 0 ⟨0, none⟩) (pkt 0x0303 5) ∧
    (((host (pkt 0x0302 5) (streamed .ready)).atWork (.strClose 0 0 ⟨0, none⟩) (pkt 0x0302 5)).stream? 5).isSome = true ∧
    ((streamed .closed).stream? 5).map (fun t => (streamed .closed).inFabric t.handle) = some false ∧
    ((streamed .ready).stream? 5).map (·.state) = some .ready ∧
    ((runs.onStr (fun g => { g with quarantine := [(9, 4)] })).str.quarantine.find? (fun q => q.1 == 9)) = some (9, 4) ∧
    (runs.genAt 5 + 1) % 2 ^ 14 ≠ 0 ∧
    ((runs.onStr (fun g => { g with gens := [(5, 16383)] })).genAt 5 + 1) % 2 ^ 14 = 0 :=
  ⟨due_of (by decide), due_of (by decide), by decide, by decide, by decide, by decide, by decide, by decide⟩

/-- A payload of str.pause: mode, time to live, tier address and length. -/
def pausePayload (mode ttl addr len : Nat) : Bytes := leBytes 1 mode ++ leBytes 7 0 ++ leBytes 4 ttl ++ leBytes 4 0 ++ leBytes 8 addr ++ leBytes 8 len

theorem witness_StreamPauses :
    (host (pkt 0x0304 5 0 (pausePayload 2 9 0x1000 262144)) (streamed .ready (fun t => { t with kv := [3] }))).due (.strPause 0 0 ⟨0, true, none⟩)
      (pkt 0x0304 5 0 (pausePayload 2 9 0x1000 262144)) ∧
    (host (pkt 0x0304 5 0 (pausePayload 1 9 0 0)) (streamed .ready)).due (.strPause 0 0 ⟨0, true, none⟩) (pkt 0x0304 5 0 (pausePayload 1 9 0 0)) ∧
    (host (pkt 0x0304 5 0 (pausePayload 1 9 8 0)) (streamed .ready)).due (.strPause 0 0 ⟨0, true, none⟩) (pkt 0x0304 5 0 (pausePayload 1 9 8 0)) ∧
    (host (pkt 0x0304 5 0 (pausePayload 2 9 0x1000 0)) (streamed .ready (fun t => { t with kv := [3], pausePending := some (none, .summary 1) }))).due
      (.strPause 0 0 ⟨0, true, none⟩) (pkt 0x0304 5 0 (pausePayload 2 9 0x1000 0)) ∧
    ((streamed .ready (fun t => { t with pausePending := some (none, .summary 1) })).stream? 5).map (streamed .ready).pauseDue = some true ∧
    ((streamed .stepping).stream? 5).map (fun t => (streamed .prompt).pauseDue { t with state := .prompt }) = some false ∧
    ((streamed .ready (fun t => { t with pausePending := some (none, .tier 1 2 3), wait := .tierWrites })).stream? 5).isSome = true ∧
    ((streamed .paused (fun t => { t with pause := some { pmode := 1, ret := .ready, sumSize := 0, sumHandle := 0, sumLoc := 0, expiry := 7, tierAddr := 0, tierPages := 0 } })).stream? 5).isSome = true :=
  ⟨due_of (by decide), due_of (by decide), due_of (by decide), due_of (by decide), by decide, by decide, by decide, by decide⟩

theorem witness_StreamResumes :
    let r : PauseRec := { pmode := 1, ret := .ready, sumSize := 0, sumHandle := 0, sumLoc := 0, expiry := 7, tierAddr := 0, tierPages := 0 }
    let s := streamed .paused (fun t => { t with pause := some r })
    (host (pkt 0x0305 5) s).due (.strResume 0 0 0) (pkt 0x0305 5) ∧ (host (pkt 0x0305 5 0x49) s).due (.strResume 0 0 0) (pkt 0x0305 5 0x49) ∧
    runs.validDest 9 = false ∧ ((s.stream? 5).map s.resumeFits) = some true ∧ (s.takePages 0).isSome = true ∧ (s.takePages 1) = none ∧ s.cacheOnly = false ∧
    ((s.stream? 5).map s.canonAgrees) = some true ∧
    (host (pkt 0x0306 5 1) (streamed .ready)).due (.strPin 0 0 ⟨0, none⟩) (pkt 0x0306 5 1) ∧
    (host (pkt 0x0306 5 0) (streamed .ready)).due (.strPin 0 0 ⟨0, none⟩) (pkt 0x0306 5 0) ∧
    ((streamed .draining (fun t => { t with wait := .summaryEvent })).stream? 5).map (·.wait) = some .summaryEvent :=
  ⟨due_of (by decide), due_of (by decide), by decide, by decide, by decide, by decide, by decide, by decide, due_of (by decide),
    due_of (by decide), by decide⟩

/-- A block in a group of three, itself number 0, at an epoch. -/
def grouped (st : CState := .member) (s : State := runs) : State :=
  (s.onImg (fun g => { g with frame := { g.frame with inGroup := true, members := 7, groupNum := 0, master := 1, deputy := 2 } })).onCas
    (fun c => { c with st := st, live := 7, epoch := 4, master := 1, deputy := 2 })

theorem hears_of {s : State} {h : MsgHdr} {b : Bool} (k : (decide (s.start.phase = .run) && !s.start.down && h.crcOk &&
    (!b || h.epoch == s.cas.epoch)) = true) : s.hears h b := by
  simp only [Bool.and_eq_true, decide_eq_true_eq, Bool.not_eq_true', Bool.or_eq_true, beq_iff_eq] at k
  exact ⟨k.1.1.1, k.1.1.2, k.1.2, fun hb => by simpa [hb] using k.2⟩

theorem witness_StreamMoves :
    (host (pkt 0x0307 5 2) (streamed .ready id (grouped))).due (.strMigrate 0 0 ⟨0, none⟩) (pkt 0x0307 5 2) ∧
    (grouped).validDest 2 = true ∧ (grouped).validDest 9 = false ∧
    ((streamed .ready (fun t => { t with pausePending := some (none, .migrate 2) })).stream? 5).map (streamed .ready).pauseDue = some true ∧
    ((streamed .ready (fun t => { t with wait := .migAnswer })).stream? 5).map (·.wait) = some .migAnswer ∧
    (grouped).hears { source := 1, epoch := 4, crcOk := true } false ∧
    (grouped).cas.held.find? (fun p => p.slot == 5 && !p.arrived) = none :=
  ⟨due_of (by decide), by decide, by decide, by decide, by decide, hears_of (by decide), by decide⟩

/-- The version of profiled. -/
def version1 : Version := (profiled.img.versions.headD { uid := 0, handle := 0, litHandle := 0, number := 0, gen := 0, prof := {}, special := [], stops := [], bankMap := [], pieces := [], inSet := false })

theorem witness_TextEncoded :
    let p := pkt 0x0401 5 0 (leBytes 1 0x41) 0
    let q := pkt 0x0401 0 0 (leBytes 1 0x41) 1
    let k : Work := { pkt := q, r1 := 1, lane := some 0, vuid := version1.uid }
    let busy := (profiled).onIng (fun g => { g with working := [k] })
    (host p (streamed .prompt)).due (.encText 0 0 0) p ∧ (host q (profiled)).due (.encText 0 0 0) q ∧
    ((profiled).packetVersion q).isSome = true ∧ ((streamed .prompt).packetVersion p).isSome = true ∧ runs.packetVersion q = none ∧
    rawRefused version1.prof 0 = false ∧ rawRefused version1.prof 3 = true ∧
    ((encodeFor version1 q true (leBytes 1 0x41)).map (fun e => itemTokens e.items)).isSome = true ∧
    busy.workOf 0 0 = some k ∧ (busy.workVersion k).isSome = true ∧ (busy.workVersion k).map (fun v => (busy.workItems k v).length) = some 1 ∧ k.pkt.opcode = 0x0401 ∧ q.standalone = true ∧ p.isFinal = false ∧
    (host (pkt 0x0402 5 0 (leBytes 4 7)) (streamed .ready)).due (.encRaw 0 0 0) (pkt 0x0402 5 0 (leBytes 4 7)) ∧
    (host (pkt 0x0402 0 0 (leBytes 4 300) 1) (profiled)).due (.encRaw 0 0 0) (pkt 0x0402 0 0 (leBytes 4 300) 1) ∧
    (∀ m ∈ tokenIds (leBytes 4 7), m < version1.prof.vocab) ∧ (∃ m ∈ tokenIds (leBytes 4 300), version1.prof.vocab ≤ m) := by
  refine ⟨due_of (by decide), due_of (by decide), ?_, ?_, ?_, ?_, ?_, ?_, ?_, ?_, ?_, rfl, rfl, rfl, due_of (by decide), due_of (by decide), ?_, ?_⟩ <;> decide +kernel

theorem witness_TokenChosen :
    let p := pkt 0x0601 5 7
    let c : Choice := { pkt := p, token := 0, node := 0, reply := false, outside := false, arrived := 0 }
    let s := streamed .await (fun t => { t with choice := some c }) |>.onStr (fun g => { g with waitingChoices := [5] })
    (host p (streamed .await)).due (.tokChoose 0 0 0) p ∧ ((streamed .await).stream? 5).map (streamed .await |>.outside · 0 0) = some false ∧
    (streamed .await).passed 0 = true ∧ (s.stream? 5).map (fun t => (t.choosing, s.grantable t, t.choice)) = some (true, true, some c) ∧
    5 ∈ s.str.waitingChoices ∧ version1.prof.vocab = 300 := by
  refine ⟨due_of (by decide), ?_, ?_, ?_, ?_, ?_⟩ <;> decide +kernel

theorem witness_TextReleased :
    let p := pkt 0x0501 0 0 (leBytes 4 7) 1
    let c : Commit := { pkt := pkt 0x0601 5 7, step := 0, tokens := [0], index := 0, ended := false, cut := false, heal := [], r0 := 7, flags := 0, waited := 0, slice := some 0 }
    let s := streamed .await (fun t => { t with commit := some c })
    (host p (profiled)).due (.decTok 0 0 0) p ∧ (host p).due (.decTok 0 0 0) p ∧ ((profiled).packetVersion p).isSome = true ∧ runs.packetVersion p = none ∧
    (s.stream? 5).map (fun t => (t.commit, t.id.stops)) = some (some c, []) ∧ runs.stream? 5 = none ∧
    (∀ m ∈ tokenIds (leBytes 4 7), m < version1.prof.vocab) :=
  ⟨due_of (by decide), due_of (by decide), by decide, by decide, by decide, by decide, by decide⟩

/-- A payload of spec.tree with one node below the stream's own state. -/
def treePayload (tok : Nat) : Bytes := leBytes 1 0 ++ leBytes 3 0 ++ leBytes 4 tok

theorem witness_TreesAndReplies :
    let p := pkt 0x0701 5 0 (treePayload 9)
    let w := streamed .ready id ((profiled).onImg (fun g => { g with frame := { g.frame with pools := [4, 4, 4, 4, 4, 4] } }))
    let node : TNode := { token := 0, parent := 0, depth := 1, broken := false, parse := {}, shutter := {} }
    let s := streamed .await (fun t => { t with tree := some { record := 0, nodes := [node], inStep := true } })
    (host p w).due (.specTree 0 0 0) p ∧ (w.stream? 5).map (·.tree) = some none ∧
    ((w.stream? 5).bind w.treeStart).map (fun x => (x.freeTree, (x.stream? 5).isSome, decide (4 ≤ x.chunksFree))) = some (some 0, true, true) ∧
    (host (pkt 0x0701 5 0 [] 0x100) s).due (.specTreeReply 0 0 0) (pkt 0x0701 5 0 [] 0x100) ∧
    (s.stream? 5).map (fun t => (t.choosing, t.voided, s.outside t 0 0)) = some (false, false, false) ∧ s.passed 0 = true := by
  refine ⟨due_of (by decide), ?_, ?_, due_of (by decide), ?_, ?_⟩ <;> decide +kernel

/-- Beryl with banks 0 and 1 for prefix handles, two units a key, and banks 2 and 3 for tenants. -/
def prefixBanks (s : State) : State := s.onImg (fun g => { g with frame := { g.frame with beryl := [65, 65, 3, 3] } })

theorem witness_PrefixHandles :
    let s := prefixBanks (streamed .ready (fun t => { t with length := 64, kv := [3, 4] }))
    (host (pkt 0x0801 5 77) s).due (.pfxBind 0 0 0) (pkt 0x0801 5 77) ∧ s.freePfx = some 0 ∧ s.findPfx 77 0 = none ∧
    s.holdsKey 1 [77, 0] = false ∧ (s.insertUse 16 1 (prefixEntry 77 0 0)).isSome = true ∧ s.wholePages 64 = 64 ∧ runs.chains = false ∧
    (grouped).chains = true ∧ (host (pkt 0x0802 0 0 (leBytes 16 9))).due (.pfxFind 0 0 0) (pkt 0x0802 0 0 (leBytes 16 9)) ∧
    (host (pkt 0x0803 0 0 (leBytes 16 9))).due (.pfxDrop 0 0 0) (pkt 0x0803 0 0 (leBytes 16 9)) ∧ runs.findPfx 9 0 = none :=
  ⟨due_of (by decide), by decide +kernel, by decide +kernel, by decide +kernel, by decide +kernel, by decide +kernel, by decide, by decide, due_of (by decide), due_of (by decide), by decide +kernel⟩

/-- A group member with one chained lookup of member 1 under way. -/
def chained : State := (grouped).onCas (fun c => { c with chains := [{ request := 3, pkt := pkt 0x0802, handle := 9, tenant := 0, isOpen := false, asked := 2, answered := [], sent := 0 }] })

theorem witness_ChainedLookups :
    chained.hears { source := 1, epoch := 4, crcOk := true } false ∧ (bitList 64 2).contains 1 = true ∧
    (chained.cas.chains.find? (fun c => c.request == 3)).isSome = true ∧ chained.findPfx 9 0 = none ∧
    (0 : Nat) + 50000 ≤ (chained.elapse 50000).aon.time ∧ chained.cas.copies = [] ∧ chained.cas.serving = [] :=
  ⟨hears_of (by decide), by decide, by decide, by decide +kernel, by decide, by decide, by decide⟩

/-- A payload of bud.set: tenant 7, RATE 100, BURST 64, weights 1.0, and flags. -/
def budPayload (flags : Nat) : Bytes := leBytes 4 7 ++ leBytes 4 100 ++ leBytes 4 64 ++ leBytes 2 256 ++ leBytes 2 256 ++ leBytes 1 flags ++ leBytes 7 0

theorem witness_BudgetsSet :
    let p := pkt 0x0901 0 0 (budPayload 0)
    (host p).due (.budSet 0 0 0) p ∧ (host p (grouped)).due (.budSet 0 0 0) p ∧ (budSetOf (budPayload 0)).map (·.tenant) = some 7 ∧
    runs.cas.st = .alone ∧ (grouped).cas.st = .member ∧ (grouped .master).cas.st = .master ∧
    (grouped .master).hears { source := 1, epoch := 4, crcOk := true } true ∧ freeIndex runs.sto.budgets = some 0 ∧
    ((prefixBanks runs).insertUse 20 3 (tenantEntry 7 0)).isSome = true ∧ (runs.insertUse 20 3 (tenantEntry 7 0)).isNone = true ∧
    ((budSetOf (budPayload 0)).bind (fun r => (grouped .master).setGroup r)).isSome = true ∧ runs.cas.fwd = [] :=
  ⟨due_of (by decide), due_of (by decide), by decide, by decide, by decide, by decide, hears_of (by decide), by decide, by decide +kernel,
    by decide +kernel, by decide +kernel, by decide⟩

/-- The master of a group with a group record of tenant 7 at a level. -/
def masters (level : Int) (waiting : List (Nat × Nat × Nat)) : State :=
  (grouped .master).onCas (fun c => { c with deputy := 0, reqWaiting := waiting, ledger := [{ num := 0, tenant := 7, rate := 0, burst := 64, wPrompt := 256, wGen := 256, level := level, rem := 0, last := 0 }] })

/-- A member with a local record of tenant 7 at a level. -/
def spent (level : Int) : State :=
  (grouped .member).putBudget { num := 0, tenant := 7, rate := 0, burst := 64, wPrompt := 256, wGen := 256, level := level, rem := 0, last := 0 }

theorem witness_GrantsFlow :
    ((spent 0).budget? 7).map (fun r => (r.level, r.requested)) = some (0, false) ∧ ((spent 3).budget? 7).map (·.level) = some 3 ∧
    (spent 0).img.frame.inGroup = true ∧ (spent 0).cas.st = .member ∧ (spent 0).hears { source := 1, epoch := 4, crcOk := true } true ∧
    (masters 5 []).hears { source := 1, epoch := 4, crcOk := true } true ∧ (masters 5 []).cas.st = .master ∧
    ((masters 5 []).group? 7).map (fun r => (r.refill (masters 5 []).aon.time).level) = some 5 ∧
    ((masters 0 []).group? 7).map (fun r => (r.refill (masters 0 []).aon.time).level) = some 0 ∧
    (masters 5 []).mirror = none ∧ (grouped .master).mirror = some 2 ∧ (masters 5 []).group? 8 = none ∧ (grouped .deputy).cas.st = .deputy ∧
    (masters 5 []).cas.owed = [] ∧ ((masters 5 [(1, 7, 3)]).cas.reqWaiting.find? (fun r => r.2.1 == 7)) = some (1, 7, 3) ∧
    (masters 5 []).budget? 7 = none :=
  ⟨by decide, by decide, by decide, by decide, hears_of (by decide), hears_of (by decide), by decide, by decide, by decide, by decide, by decide,
    by decide, by decide, by decide, by decide, by decide⟩

/-- A payload of lintel.lower: generation 2, profile 0, 16 tokens a page, contexts up to 4,096. -/
def lowerPayload : Bytes := leBytes 2 2 ++ leBytes 2 1 ++ leBytes 2 16 ++ leBytes 2 0 ++ leBytes 4 4096 ++ leBytes 4 0 ++ leBytes 4 5 ++ leBytes 60 0

theorem witness_LintelMoves :
    let p := pkt 0x0A02 0 0 lowerPayload
    let r := runs.onSch (fun g => { g with raised := true })
    (host (pkt 0x0A01 0 3)).due (.lintelRaise 0 0 0) (pkt 0x0A01 0 3) ∧ (host p r).due (.lintelLower 0 0 0) p ∧
    (lowerReq lowerPayload).isSome = true ∧ r.sch.closing = none ∧ runs.sch.raised = true ∧ (runs.onSch (fun g => { g with raised := false })).sch.raised = false := by
  exact ⟨due_of (by decide), due_of (by decide), by decide, by decide, by decide, by decide⟩

theorem witness_GroupPackets :
    (host (pkt 0x0B01 0 0)).due (.grpQuery 0 0 0) (pkt 0x0B01 0 0) ∧ (host (pkt 0x0B01 0 1) (grouped)).due (.grpQuery 0 0 0) (pkt 0x0B01 0 1) ∧
    (grouped).groupNum = 0 ∧ (grouped).cas.live.testBit 0 = true ∧ (grouped).cas.live.testBit 5 = false ∧
    (host (pkt 0x0B02 0 0 (leBytes 16 0)) (grouped)).due (.grpLocate 0 0 0) (pkt 0x0B02 0 0 (leBytes 16 0)) ∧ runs.inGroup = false ∧
    (grouped .master).rescuedAs 0 0 = none ∧
    (host (pkt 0x0B03) (grouped)).due (.grpLeave 0 0 0) (pkt 0x0B03) ∧ (∀ t ∈ (grouped).str.tab, t.state = .closed) ∧ (grouped).inGroup = true ∧
    (host (pkt 0x0B04) (grouped .master)).due (.grpHandover 0 0 0) (pkt 0x0B04) ∧ (grouped .master).mirror = some 2 ∧
    (host (pkt 0x0B05) (grouped .left)).due (.grpJoin 0 0 0) (pkt 0x0B05) ∧ (grouped .left).cas.st = .left :=
  ⟨due_of (by decide), due_of (by decide), by decide, by decide, by decide, due_of (by decide), by decide, by decide, due_of (by decide), by decide,
    by decide, due_of (by decide), by decide, due_of (by decide), by decide⟩

theorem witness_StepsIssued :
    runs.serving = true ∧ runs.start.down = false ∧ State.reset.serving = false ∧ runs.sch.lastIssue + 10000 ≤ (runs.elapse 10000).aon.time ∧
    ((⟨runs, [], 0⟩ : Issue).ents = []) ∧ ∃ a : Issue, a.ents ≠ [] :=
  ⟨by decide, by decide, by decide, by decide, rfl, ⟨⟨runs, [default_entry], 0⟩, by simp⟩⟩
where default_entry : StepEntry := { slot := 0, handle := 0, kind := 4, facets := [], row := false, profile := 0, nodes := 0, position := 0, tokens := [], pages := [], newPages := 0, summary := 1, parents := [], epoch := 0, depth := 0 }

/-- A block with one step in the fabric: a generation entry of stream 5, its row expected. -/
def stepped (verdict : Verdict := .waiting) (s : State := streamed .stepping) : State :=
  s.onSch (fun g => { g with steps := [{ desc := { step := 0, imgGen := 0, modelGen := 0, sealId := 0, time := 0, entries :=
    [{ slot := 5, handle := 5, kind := 0, facets := [0], row := true, profile := 0, nodes := 0, position := 0, tokens := [], pages := [], newPages := 0, summary := 0, parents := [], epoch := 0, depth := 0 }] }, verdict := verdict, replay := false, rowsLeft := [(5, 0)], reported := [], released := [], discarded := [], lastResult := some 0 }] })

/-- The first burst of its row. -/
def burst0 : Burst := { step := 0, slot := 5, node := 0, pane := 0, format := 0, logits := List.replicate 1024 0 }

theorem witness_RowsTaken :
    (stepped).serving = true ∧ burst0.logits.length = 1024 ∧ ((stepped).step? 0).isSome = true ∧ (stepped).step? 7 = none ∧
    (stepped).row? 0 5 0 = none ∧ ((stepped).stream? 5).map (·.handle) = some 5 ∧
    ((stepped).step? 0).map (fun x => x.rowsLeft) = some [(5, 0)] ∧ notBuilt ({} : Shutter) = false := by
  refine ⟨?_, ?_, ?_, ?_, ?_, ?_, ?_, ?_⟩ <;> decide +kernel

theorem witness_Verdicts :
    runs.step? 3 = none ∧ ((stepped).step? 0).map (·.verdict) = some .waiting ∧ ((stepped .passed).step? 0).map (·.verdict) = some .passed ∧
    ((stepped).step? 0).map (·.lastResult) = some (some 0) ∧ ((stepped).step? 0).map (stepped).resultsIn = some false ∧
    ((stepped).stream? 5).map (stepped).handsOff = some false := by
  refine ⟨?_, ?_, ?_, ?_, ?_, ?_⟩ <;> decide +kernel

theorem witness_BuildsAndPolicies :
    let q : Build := { slot := 5, node := 0, background := true, running := false, units := [], share := 0, blocks := 0, began := 0 }
    let r : Build := { slot := 5, node := 0, background := false, running := true, units := [0], share := 1, blocks := 0, began := 0 }
    let s := (streamed .ready (fun t => { t with lat := { t.lat with policyDue := true } })).onStr (fun g => { g with builds := [q] })
    let w := (streamed .ready).onStr (fun g => { g with builds := [r] })
    s.str.builds.find? (fun q => q.slot == 5 && q.background && !q.running) = some q ∧ (∀ c ∈ s.str.builds, c.background = true) ∧
    s.blocksUsed + ((s.stream? 5).map s.backBlocks).getD 0 ≤ s.shutterBlocks ∧
    w.str.builds.find? (fun q => q.slot == 5 && q.node == 0 && q.running && !q.background) = some r ∧
    (s.stream? 5).map (fun t => (t.lat.policyDue, t.id.policy, t.lat.lateSeen)) = some (true, 0, false) ∧
    r.clock + 16 * r.bound < (w.elapse 100000).aon.garnet ∧ runs.stream? 5 = none := by
  refine ⟨?_, ?_, ?_, ?_, ?_, ?_, ?_⟩ <;> decide +kernel

theorem witness_GroupForms :
    let f := (grouped .forming).onCas (fun c => { c with joining := true, firstJoin := some 0, lastJoin := 0, joins := [(1, 0), (2, 0)] })
    f.hears { source := 1, epoch := 4, crcOk := true } false ∧ f.cas.joining = true ∧ f.canForm = true ∧ (∀ j ∈ f.cas.joins, f.groupNum < j.1) ∧
    f.seeking = true ∧ f.runs ∧ (0 : Nat) + 10000000 ≤ (f.elapse 10000000).aon.time ∧ (grouped .master).cas.st = .master ∧
    (grouped).cas.joining = false ∧ f.img.frame.crc = f.img.frame.crc ∧
    ((grouped .left).onCas (fun c => { c with joining := true })).seeking = true :=
  ⟨hears_of (by decide), by decide, by decide, by decide, by decide, ⟨by decide, by decide, by decide⟩, by decide, by decide, by decide, rfl, by decide⟩

theorem witness_BeatsKept :
    let m := grouped .master
    let d := (grouped .member).onCas (fun c => { c with slew := -3 })
    m.runs ∧ m.cas.st = .master ∧ m.cas.lastBeat + 100000 ≤ (m.elapse 100000).aon.time ∧ m.cas.live.testBit 1 = true ∧ m.groupNum = 0 ∧
    (assoc m.cas.acks 1).getD 0 + 1000000 ≤ (m.elapse 1000000).aon.time ∧ m.quorum 1 = false ∧ m.quorum 2 = true ∧
    (grouped .member).hears { source := 1, epoch := 4, crcOk := true } true ∧ (grouped .member).cas.master = 1 ∧
    (∀ n ∈ (grouped .member).liveOthers, (7 : Nat).testBit n = true) ∧ d.cas.slew < 0 ∧ d.cas.lastSlew + 5000 ≤ (d.elapse 5000).aon.time ∧
    m.hears { source := 1, epoch := 4, crcOk := true } true :=
  ⟨⟨by decide, by decide, by decide⟩, by decide, by decide, by decide, by decide, by decide, by decide, by decide, hears_of (by decide), by decide,
    by decide, by decide, by decide, hears_of (by decide)⟩

theorem witness_TakeoversAndPolls :
    let d := (grouped .deputy).onCas (fun c => { c with deputy := 0, lastBeat := 0 })
    let m := (grouped .member).onCas (fun c => { c with deputy := 2 })
    d.runs ∧ d.cas.st = .deputy ∧ d.cas.lastBeat + 2000000 ≤ (d.elapse 2000000).aon.time ∧
    m.hears { source := 2, epoch := 4, crcOk := true } true ∧ m.cas.deputy = 2 ∧ m.inGroup = true ∧
    (grouped .master).inGroup = true ∧ (d.elapse 1000000).hears { source := 2, epoch := 4, crcOk := true } true ∧ d.quorum 2 = true :=
  ⟨⟨by decide, by decide, by decide⟩, by decide, by decide, hears_of (by decide), by decide, by decide, by decide, hears_of (by decide), by decide⟩

theorem witness_LeavingAndRescue :
    let m := grouped .master
    let d : State := { m with start := { m.start with down := true } }
    m.hears { source := 1, epoch := 4, crcOk := true } true ∧ m.cas.live.testBit 1 = true ∧ d.start.down = true ∧ d.start.phase = .run ∧
    d.groupNum = 0 ∧ (3 : Nat) ∉ m.cas.lost ∧ m.runs ∧ (grouped).runs ∧ (grouped).cas.live.testBit 2 = true ∧ (2 : Nat) ≠ (grouped).cas.master ∧
    m.cas.locates.find? (fun l => l.1 == 9) = none :=
  ⟨hears_of (by decide), by decide, by decide, by decide, by decide, by decide, ⟨by decide, by decide, by decide⟩, ⟨by decide, by decide, by decide⟩,
    by decide, by decide, by decide⟩

/-- A block with a destructive march under way that waits for an array of the draft-tree pool. -/
def marching (f : March → March := id) (s : State := runs) : State := s.onMem (fun m => { m with march := f { m.march with running := true } })

theorem witness_MarchesBegin :
    let p := pkt 0x0C01 0 (20 * 2 ^ 4 + 20 * 2 ^ 11)
    let q := pkt 0x0C01 0 (1 + 20 * 2 ^ 4 + 31 * 2 ^ 11)
    (host p).due (.testMarchPreserving 0 0 0) p ∧ (host q).due (.testMarchDestructive 0 0 0) q ∧
    (host (pkt 0x0C01 0 2)).due (.testMarchAbort 0 0 0) (pkt 0x0C01 0 2) ∧ (marching).mem.march.running = true ∧
    runs.marchRefusal 1 false 20 31 = none ∧ runs.marchRefusal 1 false 19 31 = some stStateConflict ∧
    runs.marchRefusal 1 true 5 5 = some stStateConflict ∧ marchForm (20 * 2 ^ 4 + 20 * 2 ^ 11) = true ∧ marchForm 3 = false ∧
    (40 : Nat) ∈ (marching (fun m => { m with waiting := [40] })).mem.march.waiting ∧ (marching (fun m => { m with waiting := [40] })).arrayIdle 40 = true ∧
    (marching).start.phase = .run := by
  refine ⟨due_of (by decide), due_of (by decide), due_of (by decide), ?_, ?_, ?_, ?_, ?_, ?_, ?_, ?_, ?_⟩ <;> decide +kernel

theorem witness_RowsMarched :
    let m := marching (fun m => { m with pos := [(20, 0)], first := 20, last := 20, nextUnit := 28 })
    m.mem.march.nextRow 20 = some 0 ∧ m.mem.march.running = true ∧ (m.mem.march.target, m.mem.march.mode, m.mem.march.aborting) = (0, 0, false) ∧
    (repairBank 8 4 [{ bank := 0, row := 3, column := 5 }]).isSome = true ∧ runs.serving = true ∧ (20 : Nat) ∉ runs.mem.withdrawn ∧
    runs.start.stackMap.kvCount ≤ 5 := by
  refine ⟨?_, ?_, ?_, ?_, ?_, ?_, ?_⟩ <;> decide +kernel

theorem witness_UnitsFail :
    let h := runs.onMem (fun m => { m with sillHalted := true, unwrittenUnits := [3] })
    runs.runs ∧ (runs.unit? 0 0).map (·.inService) = some true ∧ (runs.unit? 4 0).map (·.inService) = some true ∧
    (runs.unit? 6 0).map (·.cls) = some 0 ∧ runs.unit? 9 9 = none ∧ h.mem.sillHalted = true ∧ h.serving = true ∧
    h.mem.unwrittenUnits.filter (fun _ => true) ≠ [] ∧ (0 : Nat) + 300000000000 ≤ (h.elapse 300000000000).aon.time := by
  refine ⟨⟨by decide, by decide, by decide⟩, ?_, ?_, ?_, ?_, ?_, ?_, ?_, ?_⟩ <;> decide +kernel

theorem witness_UnitsTested :
    let p := pkt 0x0C02 0 0x100
    (host p).due (.testLane 0 0 0) p ∧ (runs.unit? 0 1).map (fun u => (u.testing, u.cls, u.inService, u.kind, u.inst)) = some (0, 0, true, 0, 1) ∧
    (0 : Nat) ∈ testedKinds ∧ (4 : Nat) ∉ testedKinds ∧ runs.runs ∧ (∀ x ∈ runs.mem.units, x.testing = 0) ∧ runs.deferTest 0 1 = false ∧ runs.unitHolds 0 1 = false ∧
    ((runs.onUnit 0 1 (fun u => { u with testing := 3, cls := 1 })).unit? 0 1).map (fun u => (u.testing, u.cls)) = some (3, 1) ∧
    (86400 : Nat) ≤ 0 + ((runs.elapse 86400000000000).aon.time - 0) / 1000000000 := by
  refine ⟨due_of (by decide), ?_, ?_, ?_, ⟨by decide, by decide, by decide⟩, ?_, ?_, ?_, ?_, ?_⟩ <;> decide +kernel

/-- A running block with one entry of the prefix handles in bank 0, as an insert writes it. -/
def berylOne : State :=
  let f := { runs.img.frame with beryl := List.replicate 32 65 }
  let s := { runs with img := { runs.img with frame := f } }
  s.writeEntry 0 0 (prefixEntry 5 7 9)

/-- A search for that entry, with the tag left out. -/
def berylReq : SearchReq := { key := 5 + 7 * 2 ^ 64, mask := 2 ^ 128 - 1, select := 1, kw := 2, tag := 0, tagEn := false, channel := 16 }

theorem witness_BerylSearches :
    berylOne.start.phase = .run ∧ (∀ n ∈ bitList 32 berylReq.select, n ∉ berylOne.ber.reloading) ∧
    (∃ n ∈ bitList 32 berylReq.select, n ∈ [0]) ∧
    berylOne.searchBanks berylReq = ([0], []) ∧ berylOne.resolve berylReq [0] = (some (0, 0), false) ∧
    berylOne.verified berylReq 0 0 = true ∧ [0, 3].Pairwise (· < ·) ∧
    (berylOne.onBer (fun b => { b with shadow := [] })).verified berylReq 0 0 = false ∧
    berylOne.verifiedBut berylReq 0 0 1 = true ∧ berylOne.searchWaits berylReq = false ∧
    (berylOne.onBer (fun b => { b with reloading := [0] })).searchWaits berylReq = true ∧
    runs.isolated = false ∧ runs.ber.dbgBusy = false ∧ (State.reset.lost true).isolated = true := by
  refine ⟨?_, ?_, ?_, ?_, ?_, ?_, ?_, ?_, ?_, ?_, ?_, ?_, ?_, ?_⟩ <;> decide +kernel

/-- The data and PRIO of the entry stand in the record (R286). -/
theorem test_beryl_result :
    ((berylOne.search ⟨berylReq, false⟩ false none false).ber.results.map (fun r => (r.1, r.2.toNat))) = [(16, 9 + 0x8000 * 2 ^ 64 + 2 ^ 88)] := by decide +kernel

theorem witness_BerylUpdates :
    let busy := berylOne.onBer (fun b => { b with moves := [⟨0, 0, 0, true, 0, 16, prefixEntry 5 7 9, false, false⟩] })
    let ran := berylOne.onBer (fun b => { b with moves := [⟨0, 0, 0, true, 0, 16, prefixEntry 5 7 9, true, false⟩] })
    let waits := berylOne.onBer (fun b => { b with heldUpdate := [⟨16, 0, .remove [5, 7] 0, false⟩] })
    let opened := berylOne.openWindow 31 0 (.change [5, 7] 0 (prefixEntry 5 7 8))
    berylOne.start.phase = .run ∧ berylOne.bankUse 0 ∈ stealUses 16 (.remove [5, 7] 0) ∧ berylOne.bankUse 0 ∈ stepUses 31 ∧ berylOne.stolen 0 < 16 ∧
    16 ≤ (berylOne.onBer (fun b => { b with window := [(0, berylOne.beryWindow, 16)] })).stolen 0 ∧
    berylOne.bankBusy 0 = false ∧ busy.bankBusy 0 = true ∧ (busy.ber.moves.find? (fun m => m.bank == 0 && !m.ran)).isSome = true ∧
    (ran.ber.moves.find? (fun m => m.bank == 0 && m.ran)).isSome = true ∧ (waits.ber.heldUpdate.find? (fun u => u.bank == 0)).isSome = true ∧
    (opened.ber.windows.find? (fun w => w.bank == 0)).isSome = true ∧ (berylOne.entryAt 0 0).prio = (prefixEntry 5 7 8).prio ∧
    berylOne.bankUse 0 ∉ stealUses 20 (.remove [5, 7] 0) ∧ berylOne.findEntry 0 [5, 7] 0 = some 0 ∧
    placeOf [(0, 9), (1, 5)] 8192 9 = some ⟨1, some (1, 1, true)⟩ ∧ placeOf [(1, 9), (2, 9), (3, 5)] 4 7 = some ⟨2, some (1, 2, false)⟩ ∧
    placeOf [(0, 9), (1, 5)] 8192 5 = some ⟨2, none⟩ ∧ placeOf [(0, 9)] 1 9 = none ∧
    [((0 : Nat), (9 : Nat)), (3, 5)].find? (fun e => decide (1 < e.1)) = some (3, 5) := by
  refine ⟨?_, ?_, ?_, ?_, ?_, ?_, ?_, ?_, ?_, ?_, ?_, ?_, ?_, ?_, ?_, ?_, ?_, ?_, ?_⟩ <;> decide +kernel

theorem witness_BanksReplaced :
    let upset := berylOne.onBer (fun b => { b with rows := [] })
    let none_ := berylOne.onBer (fun b => { b with failed := [32, 33] })
    berylOne.logical 0 = some 0 ∧ berylOne.bankBusy 0 = false ∧ berylOne.logical 33 = none ∧
    rowAt upset.ber.rows 0 0 ≠ upset.shadowRow 0 0 ∧ rowAt berylOne.ber.rows 0 0 = berylOne.shadowRow 0 0 ∧
    0 ∉ berylOne.ber.failed ∧ berylOne.spares.head? = some 32 ∧ none_.spares.head? = none ∧ none_.replacement 0 = none ∧
    runs.bankUse 0 = 0 ∧ (runs.onBer (fun b => { b with failed := [32, 33] })).replacement 0 = some 1 ∧
    (0 ∈ (berylOne.failBank 0).ber.reloading) ∧ (berylOne.failBank 0).physical 0 = some 32 ∧
    (berylOne.recordCorrection 0 0 1 0).ber.corrValid = true ∧ berylOne.wakeCause.isolated = false := by
  refine ⟨?_, ?_, ?_, ?_, ?_, ?_, ?_, ?_, ?_, ?_, ?_, ?_, ?_, ?_, ?_⟩ <;> decide +kernel

theorem witness_BlockStarts :
    State.reset.start.phase = .starting ∧ State.reset.start.step = 2 ∧ (State.reset.lost true).start.phase = .aonOnly ∧
    (State.reset.lost false).start.phase = .isolated ∧ ((State.reset.atStep 5).start.phase = .starting) ∧ parseHistory [] = none ∧
    ((State.reset.atStep 5).buildRepair).start.failed = false ∧
    stackMapOk (leBytes 8 0 ++ leBytes 4 1 ++ leBytes 4 0 ++ leBytes 8 (2 ^ 40) ++ leBytes 8 (2 ^ 41) ++ leBytes 8 (2 ^ 42) ++ List.replicate 24 0#8) = true ∧
    stackMapOk [] = false ∧ State.reset.bootCommit [] = none := by
  refine ⟨?_, ?_, ?_, ?_, ?_, ?_, ?_, ?_, ?_, ?_⟩ <;> decide +kernel

/-- A running block that may enter SLEEP: requested, and quiet for a millisecond. -/
def drowsy : State := runs.onAon (fun a => { a with sleepReq := true, time := 1000000 })

theorem witness_SleepAndRails :
    let asleep := (drowsy.onStart (fun g => { g with phase := .sleep })).onAon (fun a => { a with wakeTimer := some 5 })
    drowsy.maySleep = true ∧ runs.maySleep = false ∧ runs.isolated = false ∧ (runs.lost true).isolated = true ∧
    asleep.start.phase = .sleep ∧ runs.start.phase ≠ .sleep ∧ asleep.aon.wakeTimer = some 5 ∧ 5 ≤ asleep.aon.time ∧
    (runs.onAon (fun a => { a with wakeTimer := some 5 })).aon.time < 5 ∧ runs.aon.wakeTimer = none ∧ drowsy.aon.sleepReq = true ∧
    drowsy.isolated = false ∧ runs.aon.sleepReq = false := by
  refine ⟨?_, ?_, ?_, ?_, ?_, ?_, ?_, ?_, ?_, ?_, ?_, ?_, ?_⟩ <;> decide +kernel

theorem witness_DomainsAndDroop :
    let up := runs.onAon (fun a => { a with domains := List.replicate 7 (.gated, 0), time := 1000000, autoGate := true })
    let parked := up.onAon (fun a => { a with domains := List.replicate 7 (.parked, 0), time := 100000000 })
    up.domain 1 ≠ .running ∧ up.start.phase = .run ∧ (up.domain 4 = .gated) ∧ up.domainBusy 4 = false ∧
    (up.aon.domains.getD 4 (.off, 0)).2 + 1000000 ≤ up.aon.time ∧ (∀ t ∈ up.str.tab, t.parse.gstate = .active → t.state = .closed ∨ t.state = .paused) ∧
    parked.aon.autoGate = true ∧ parked.domain 2 = .parked ∧ (parked.aon.domains.getD 2 (.off, 0)).2 + 100000000 ≤ parked.aon.time ∧
    (up.onAon (fun a => { a with domains := List.replicate 7 (.running, 0) })).domain (sensorDomain 5) = .running ∧
    (up.aon.sensors[5]?).isSome = true ∧ parked.domain (sensorDomain 5) ≠ .running := by
  refine ⟨?_, ?_, ?_, ?_, ?_, ?_, ?_, ?_, ?_, ?_, ?_, ?_⟩ <;> decide +kernel

theorem witness_CausesCleared :
    (runs.lost true).isolated = true ∧ runs.isolated = false ∧ runs.wakeCause.isolated = false ∧ runs.ing.aps.length = 64 ∧ (63 : Nat) < 64 ∧
    (0#32 : Word).getLsbD 0 = false ∧ (1#32 : Word).getLsbD 0 = true ∧ (1#32 : Word).getLsbD 1 = false ∧ (2#32 : Word).getLsbD 1 = true ∧
    (2#32 : Word).getLsbD 0 = false := by
  refine ⟨?_, ?_, ?_, ?_, ?_, ?_, ?_, ?_, ?_, ?_⟩ <;> decide +kernel

theorem witness_RegistersReadAndWritten :
    let l := runs.onMem (fun m => { m with hiLatch := [(true, 0x2C, 7)], repairLatch := [(true, 5)] })
    loReg 0x28 = true ∧ loReg 0x2C = false ∧ alwaysOn 0x28 = true ∧ alwaysOn 0x100 = false ∧ (runs.access 0).isolated = false ∧
    ((runs.lost true).access 0).isolated = true ∧ runs.mem.hiLatch = [] ∧ (l.readReg true 0x2C ⟨0, 4⟩).1 = 7 ∧
    l.mem.repairLatch.find? (fun x => x.1 == true) = some (true, 5) ∧ (0x80000000 : Nat).testBit 31 = true := by
  refine ⟨?_, ?_, ?_, ?_, ?_, ?_, ?_, ?_, ?_, ?_⟩ <;> decide +kernel

/-! ### Values from the spec -/

/-- The insert of the worked example of chapter 09: entries 1 to 3 move down and entry 1 is the hole. -/
theorem test_insert_place : placeOf [(0, 12), (1, 8), (2, 8), (3, 7)] 2048 12 = some ⟨1, some (1, 3, true)⟩ := by decide +kernel

/-- The rows of the same example's literal, `<<tool_err>>` with canonical ID 262,141: CARE 0xFF and 0x0F, DATA 0xFFFD and 0x0003, PRIO 12. -/
theorem test_literal_rows :
    let e := literalEntry { canon := 262141, lit := [0x3C, 0x3C, 0x74, 0x6F, 0x6F, 0x6C, 0x5F, 0x65, 0x72, 0x72, 0x3E, 0x3E], spfl := 1 } 0x0B
    e.care = [0xFF, 0x0F, 0, 0] ∧ e.data = [0xFFFD, 3, 0, 0] ∧ e.prio = 12 ∧ e.tag = 0x0B := by decide +kernel

/-- The shaped logits of the worked example of chapter 08: RT 1.25, and a bias of 0.5 on the third. -/
theorem test_shaped_logits :
    [(0x4194, 0), (0x418E, 0), (0x4188, 0x3F000000), (0x4180, 0), (0x4178, 0)].map (fun x => Fp.mul (Fp.add (Fp.ofFormat 0 x.1) x.2) 0x3FA00000) =
      [0x41B90000, 0x41B18000, 0x41AF0000, 0x41A00000, 0x419B0000] := by decide +kernel

/-- The header of the worked example of chapter 02. -/
theorem test_packet_header :
    let p := Pkt.ofBytes 7 0x13A4FFFC0 [0x01, 0x06, 0x02, 0x00, 0, 0, 0, 0, 0x1F, 0xA2, 0x03, 0x00, 0x21, 0x9E, 0, 0, 0x11, 0, 0x01, 0x02,
      0xDA, 0x2C, 0, 0, 0, 0, 0, 0, 0, 0, 0, 0]
    p.opcode = 0x0601 ∧ p.flags = 2 ∧ p.stream = 0x3A21F ∧ p.tag = 0x9E21 ∧ p.imgGen = 0x11 ∧ p.ring = 2 ∧ p.arg = 0x2CDA ∧
      p.payload = [] ∧ check3 p.opcode = true := by decide +kernel

/-- The worked example of chapter 16: a clear of RING_FAULT meets its set, and BX_CAUSE_LOST then reads 0x0600_0001. -/
theorem test_lost_clear :
    let s := (runs.onAon (fun a => { a with cause := 0x40#32 })).clearCause 0x40 0x40
    s.aon.cause = 0x40#32 ∧ s.aon.lostReg = 0x06000001 ∧ s.out = [] := by decide +kernel

/-- The check value of the Castagnoli CRC (the digits 1 to 9), as its polynomial, reflection and exclusive-ors of R44 give it. -/
theorem test_crc : crc32c [0x31, 0x32, 0x33, 0x34, 0x35, 0x36, 0x37, 0x38, 0x39] = 0xE3069283 := by decide +kernel

/-! ### Ill-formed commands, one for each check -/

theorem test_ill_aperture : (Instr.packetConsume 0 64).wellFormed = false := by decide
theorem test_ill_write : (Instr.apertureWrite 0 false 2 [⟨0#32, true⟩]).wellFormed = false ∧ (Instr.apertureWrite 0 false 0 []).wellFormed = false := by decide
theorem test_ill_read : (Instr.apertureRead 0 false 0x3FFFFFF 2).wellFormed = false ∧ (Instr.apertureRead 0 false 0 0).wellFormed = true := by decide
theorem test_ill_header : (Instr.joinTimer 0).wellFormed = true ∧ (Instr.poll 0 ⟨64, 0, true⟩).wellFormed = false := by decide
theorem test_ill_epoch : (Instr.poll 0 ⟨0, 2 ^ 32, true⟩).wellFormed = false := by decide
theorem test_ill_stream : (Instr.streamRelease 0 262144).wellFormed = false := by decide
theorem test_ill_unit : (Instr.infieldTestDue 0 0 16).wellFormed = false ∧ (Instr.infieldTestDue 0 7 0).wellFormed = false := by decide
theorem test_ill_ring : (Instr.ringStall 0 64).wellFormed = false := by decide
theorem test_ill_fault : (Instr.ringFault 0 (.ring 64)).wellFormed = false ∧ (Instr.ringFault 0 (.credit 64)).wellFormed = false := by decide
theorem test_ill_array : (Instr.destructiveMarchStart 0 88).wellFormed = false := by decide
theorem test_ill_march : (Instr.marchCtlAbort 0 false 128 0).wellFormed = false ∧ (Instr.marchCtlAbort 0 false 0 128).wellFormed = false := by decide
theorem test_ill_domain : (Instr.domainWake 0 7).wellFormed = false := by decide
theorem test_ill_sensor : (Instr.droopRelease 0 24).wellFormed = false := by decide
theorem test_ill_bank : (Instr.compactor 0 32).wellFormed = false ∧ (Instr.camScrub 0 ⟨34, [], false⟩).wellFormed = false := by decide
theorem test_ill_channel : (Instr.threeStepUpdate 0 34 0 ⟨.remove [] 0, true⟩).wellFormed = false := by decide
theorem test_ill_search : (Instr.berylSearch 0 ⟨⟨0, 0, 0, 8, 0, false, 0⟩, ⟨[], none, false⟩⟩).wellFormed = false := by decide
theorem test_ill_vset : (Instr.vsetWrite 0 32 false false).wellFormed = false := by decide
theorem test_ill_member : (Instr.memberDepartTimeout 0 64).wellFormed = false := by decide
theorem test_ill_page : (Instr.pageRetire 0 2097152).wellFormed = false := by decide
theorem test_ill_slot : (Instr.imageStaged 0 16).wellFormed = false := by decide
theorem test_ill_window : (Instr.rcRead 0 false 2 4).wellFormed = false ∧ (Instr.loReadLatch 0 false 65536).wellFormed = false ∧
    (Instr.registerWrite 0 false 65533 4 0).wellFormed = false := by decide
theorem test_ill_burst : (Instr.logitBurst 0 0 ⟨0, 0, 0, 0, 0, []⟩).wellFormed = false := by decide
theorem test_ill_node : (Instr.rowShaped 0 0 0 64).wellFormed = false := by decide

end Sys2Proof.Tests
end

section
/-! Loading, staging, dropping and querying images (R101 to R117): what each packet's work answers, case by case, and the statements on them. -/
namespace Sys2Proof.Machine
open Sys2Proof

-- The proofs below are elaborated in turn: under its memory limit the check of the whole text has no room for more elaboration threads.
set_option Elab.async false

/-! ### A due packet runs its work -/

/-- A due packet command that uses no Beryl bank answers the work's result on the packet at work. -/
theorem exec_of_due {i : Instr} {form : Pkt → Bool} {ap pos : Nat} {work : Pkt → State → State} {s : State} {p : Pkt}
    (hi : packetOf i = some (ap, pos, form)) (hb : berylUses i = none)
    (he : exec i s = .next ((s.elapse i.dt).runPacket form ap pos work)) (hd : s.due i p) : exec i s = .next (work p (s.atWork i p)) := by
  have found : s.found i = s.elapse i.dt := by simp [State.found, hb]
  have ht : (s.elapse i.dt).takesUp form ap pos p := by simpa [State.due, hi, found, State.formFor, hb] using hd
  rw [he, State.runPacket_takesUp ht, State.atWork, found]

/-! ### Load slots -/

theorem State.slot_setSlot_same {s : State} {n : Nat} (hn : n < s.img.slots.length) (l : LoadSlot) : (s.setSlot n l).slot n = l :=
  getD_modifyAt_same _ _ _ _ hn

theorem State.slot_setSlot_ne {n m : Nat} (h : m ≠ n) (l : LoadSlot) (s : State) : (s.setSlot n l).slot m = s.slot m :=
  getD_modifyAt_ne _ _ _ _ _ h

theorem LoadSlot.result1_eq (l : LoadSlot) : l.result1 = l.gid.getD 0xFFFF + if l.state = .staged then 2 ^ 16 else 0 := by
  simp [LoadSlot.result1, flag]

/-! ### A chunk taken in (R105) -/

section
variable {s : State} {p : Pkt} {n old k : Nat} {bad : Option Nat}
  (hb : (if s.unsigned (s.slot n).bytes then some stBadPacket else s.contentFault (s.slot n).bytes old) = bad)
include hb

theorem State.chunkIn_bad {st : Nat} (h : bad = some st) : s.chunkIn p n old k = (s.emptySlot n).refuse p st := by
  simp only [State.chunkIn, hb, h]

theorem State.chunkIn_short (h : bad = none) (hl : (s.slot n).bytes.length ≠ (s.slot n).total) :
    s.chunkIn p n old k = (s.onWork p (fun w => { w with r2 := k })).done p 0 (some (s.slot n).bytes.length) (some (s.slot n).result1) (some k) := by
  simp [State.chunkIn, hb, h, hl]

theorem State.chunkIn_full (h : bad = none) (hl : (s.slot n).bytes.length = (s.slot n).total) :
    s.chunkIn p n old k = (s.onWork p (fun w => { w with r2 := k })).setSlot n { s.slot n with waitPkt := some p } := by
  simp [State.chunkIn, hb, h, hl]

end

/-! ### img.load (R101, R102, R105) -/

section
variable {s : State} {p : Pkt} {n : Nat} (hn : bits p.arg 35 32 = n)
include hn

theorem imgLoadWork_empty_midway (hl : (s.slot n).state = .empty) (ho : bits p.arg 31 0 ≠ 0) :
    imgLoadWork p s = s.refuse p stStateConflict := by
  simp [imgLoadWork, hn, hl, ho]

theorem imgLoadWork_empty_badHeader {st : Nat} (hl : (s.slot n).state = .empty) (ho : bits p.arg 31 0 = 0)
    (hh : imageHeader p.payload = .inl st) : imgLoadWork p s = s.refuse p st := by
  simp [imgLoadWork, hn, hl, ho, hh]

theorem imgLoadWork_empty_refused {h : ImgHdr} (hl : (s.slot n).state = .empty) (ho : bits p.arg 31 0 = 0)
    (hh : imageHeader p.payload = .inr h) (hbad : h.total < p.payload.length ∨ s.unsigned p.payload = true) :
    imgLoadWork p s = s.refuse p stBadPacket := by
  simp [imgLoadWork, hn, hl, ho, hh, hbad]

theorem imgLoadWork_empty_noRoom {h : ImgHdr} {st : Nat} (hl : (s.slot n).state = .empty) (ho : bits p.arg 31 0 = 0)
    (hh : imageHeader p.payload = .inr h) (hlen : p.payload.length ≤ h.total) (hs : s.unsigned p.payload = false)
    (hr : s.reserveImage n p.ap p.payload h = .inl st) : imgLoadWork p s = s.refuse p st := by
  simp [imgLoadWork, hn, hl, ho, hh, hs, Nat.not_lt.mpr hlen, hr]

theorem imgLoadWork_empty_first {h : ImgHdr} {k : Nat} {u : State} (hl : (s.slot n).state = .empty)
    (ho : bits p.arg 31 0 = 0) (hh : imageHeader p.payload = .inr h) (hlen : p.payload.length ≤ h.total) (hs : s.unsigned p.payload = false)
    (hr : s.reserveImage n p.ap p.payload h = .inr (k, u)) : imgLoadWork p s = u.chunkIn p n 0 k := by
  simp [imgLoadWork, hn, hl, ho, hh, hs, Nat.not_lt.mpr hlen, hr]

theorem imgLoadWork_receiving_outOfTurn (hl : (s.slot n).state = .receiving)
    (ho : bits p.arg 31 0 ≠ (s.slot n).bytes.length ∨ p.ap ≠ (s.slot n).ap ∨ (s.slot n).waitPkt ≠ none) :
    imgLoadWork p s = s.refuse p stStateConflict := by
  have hc : (bits p.arg 31 0 != (s.slot n).bytes.length || p.ap != (s.slot n).ap || (s.slot n).waitPkt.isSome) = true := by
    simpa [Option.isSome_iff_ne_none, or_assoc] using ho
  simp only [imgLoadWork, hn, hl, hc, if_true]

theorem imgLoadWork_receiving_next (hl : (s.slot n).state = .receiving)
    (ho : bits p.arg 31 0 = (s.slot n).bytes.length) (ha : p.ap = (s.slot n).ap) (hw : (s.slot n).waitPkt = none) :
    imgLoadWork p s =
      (s.setSlot n { s.slot n with bytes := (s.slot n).bytes ++ p.payload }).chunkIn p n (s.slot n).bytes.length 0 := by
  simp [imgLoadWork, hn, hl, ho, ha, hw]

theorem imgLoadWork_loaded (hl : (s.slot n).state = .staged ∨ (s.slot n).state = .committing) :
    imgLoadWork p s = s.refuse p stStateConflict := by
  rcases hl with hl | hl <;> simp [imgLoadWork, hn, hl]

end

/-! ### IMAGE_STAGED (R106, R107) -/

/-- An image judged good as a whole is STAGED. -/
theorem State.stage_state {s : State} {l l' : LoadSlot} (h : s.stage l = .inr l') : l'.state = .staged := by
  cases hh : imageHeader l.bytes with
  | inl st => simp [State.stage, hh] at h
  | inr hdr =>
    by_cases hw : s.imageWhole l hdr = true
    · simp only [State.stage, hh, hw, if_true, Sum.inr.injEq] at h
      rw [← h]
    · simp [State.stage, hh, hw] at h

section
variable {s b : State} {n dt : Nat} {p : Pkt} (hb : (s.elapse dt).settleBeryl = b)
include hb

theorem execImageStaged_idle (h : (b.slot n).state ≠ .receiving ∨ (b.slot n).waitPkt = none) :
    execImageStaged dt n s = .next b := by
  cases hl : (b.slot n).state with
  | receiving =>
    have hw : (b.slot n).waitPkt = none := h.resolve_left (not_not.mpr hl)
    simp only [execImageStaged, hb, hl, hw]
  | empty | staged | committing => simp only [execImageStaged, hb, hl]

variable (hl : (b.slot n).state = .receiving) (hw : (b.slot n).waitPkt = some p)
include hl hw

theorem execImageStaged_rejects {st : Nat} (hs : b.stage (b.slot n) = .inl st) : execImageStaged dt n s = .next ((b.emptySlot n).refuse p st) := by
  simp only [execImageStaged, hb, hl, hw, hs]

variable {l' : LoadSlot} (hs : b.stage (b.slot n) = .inr l')
include hs

theorem execImageStaged_waits (hq : l'.literals ≠ [] ∧ b.quiet [4] = false) : execImageStaged dt n s = .next b := by
  simp [execImageStaged, hb, hl, hw, hs, hq]

/-- Once the literal banks are free, a good image's literals decide between completing the last chunk and NO_SPACE (R297). -/
theorem execImageStaged_enters (hq : l'.literals = [] ∨ b.quiet [4] = true) {o : Option State}
    (he : (b.setSlot n l').enterSlot n = o) :
    execImageStaged dt n s = .next (o.elim ((b.emptySlot n).refuse p stNoSpace)
      (fun u => u.done p 0 (some (b.slot n).bytes.length) (some (l'.gid.getD 0xFFFF + 2 ^ 16))
        (some (((b.workOf p.ap p.pos).map (·.r2)).getD 0)))) := by
  have hr : l'.result1 = l'.gid.getD 0xFFFF + 2 ^ 16 := by rw [l'.result1_eq, if_pos (State.stage_state hs)]
  have hc : (!l'.literals.isEmpty && !b.quiet [4]) = false := by
    rcases hq with hq | hq <;> simp [hq]
  rw [← hr]
  cases o with
  | none => simp [execImageStaged, hb, hl, hw, hs, hc, he]
  | some u => cases hk : b.workOf p.ap p.pos <;> simp [execImageStaged, hb, hl, hw, hs, hc, he, hk]

end

/-! ### The statement on img.load -/

/-- Settles O23: the three parts of a load, a packet's work on its slot, the bytes taken in (the signature policy tested on each
chunk: log 138), and the judgement of the whole (the literals' entry, their wait for quiet banks and their NO_SPACE: logs 57 and 114). -/
theorem imageChunks : Obligations.ImageChunks := by
  unfold Obligations.ImageChunks
  refine ⟨fun dt ap pos s p hd => ?_, fun p n old k u hn => ?_, fun dt n s => ?_⟩
  · intro w n l off run
    have hrun (t : State) (h : imgLoadWork p w = t) : run t := h ▸ exec_of_due rfl rfl rfl hd
    refine ⟨fun hl => ⟨fun ho => ?_, fun ho => ⟨fun st hh => ?_, fun h hh => ⟨fun hbad => ?_, fun hlen hs => ⟨fun st hr => ?_, fun k u hr => ?_⟩⟩⟩⟩,
      fun hl => ⟨fun ho => ?_, fun ho ha hw => ?_⟩, fun hl => ?_⟩
    · exact hrun _ (imgLoadWork_empty_midway rfl hl ho)
    · exact hrun _ (imgLoadWork_empty_badHeader rfl hl ho hh)
    · exact hrun _ (imgLoadWork_empty_refused rfl hl ho hh hbad)
    · exact hrun _ (imgLoadWork_empty_noRoom rfl hl ho hh hlen hs hr)
    · exact hrun _ (imgLoadWork_empty_first rfl hl ho hh hlen hs hr)
    · exact hrun _ (imgLoadWork_receiving_outOfTurn rfl hl ho)
    · exact hrun _ (imgLoadWork_receiving_next rfl hl ho ha hw)
    · exact hrun _ (imgLoadWork_loaded rfl hl)
  · refine ⟨fun st hb => State.chunkIn_bad rfl hb, fun hb => ⟨fun hlen => ?_, fun hlen => ?_⟩⟩
    · rw [State.chunkIn_short rfl hb hlen, LoadSlot.result1_eq]
      exact ⟨_, rfl, (State.onWork_within ..).keepsBut⟩
    · rw [State.chunkIn_full rfl hb hlen]
      refine ⟨State.slot_setSlot_same hn _, fun m hm => State.slot_setSlot_ne hm _ _, State.Within.keepsBut ?_⟩
      exact (State.setSlot_within ..).step (by decide) ((State.onWork_within ..).mono (by decide))
  · intro b l
    exact ⟨fun p l' hl hw hs => ⟨fun hne hq => execImageStaged_waits rfl hl hw hs ⟨hne, hq⟩, fun hq =>
        ⟨execImageStaged_enters rfl hl hw hs hq, fun u => execImageStaged_enters rfl hl hw hs hq⟩⟩,
      fun p st hl hw hs => execImageStaged_rejects rfl hl hw hs, execImageStaged_idle rfl⟩

/-! ### img.drop (R116) -/

section
variable {s : State} {p : Pkt}

section
variable {n : Nat} (hn : bits p.arg 7 4 = n)
include hn

theorem dropSlotWork_refuses (hl : (s.slot n).state = .empty ∨ (s.slot n).state = .committing) :
    dropSlotWork p s = s.refuse p stStateConflict := by
  rcases hl with hl | hl <;> simp [dropSlotWork, hn, hl]

/-- A last chunk that still waits for staging is refused before the img.drop completes (log 60). -/
theorem dropSlotWork_drops (hl : (s.slot n).state = .receiving ∨ (s.slot n).state = .staged)
    {u : State} (hu : u = ((s.leaveSlot (s.slot n)).emptySlot n).event evImage (s.slot n).gen 2 0) :
    dropSlotWork p s = ((s.slot n).waitPkt.elim u (fun q => u.refuse q stStateConflict)).done p 0 none none none := by
  have hc : ((s.slot n).state == .empty || (s.slot n).state == .committing) = false := by
    rcases hl with hl | hl <;> simp [hl]
  cases hw : (s.slot n).waitPkt <;> simp [dropSlotWork, hn, hc, hu, hw]

end

theorem dropGrammarWork_notResident
    (h : s.gramOfId (bits p.arg 27 16) = none ∨ ∃ g, s.gramOfId (bits p.arg 27 16) = some g ∧ g.additive = false) :
    dropGrammarWork p s = s.refuse p stNotResident := by
  rcases h with h | ⟨g, h, ha⟩
  · simp [dropGrammarWork, h]
  · simp [dropGrammarWork, h, ha]

section
variable {g : Gram} (h : s.gramOfId (bits p.arg 27 16) = some g) (ha : g.additive = true)
include h ha

theorem dropGrammarWork_named (hn : s.gramNamed (bits p.arg 27 16) = true) : dropGrammarWork p s = s.refuse p stStateConflict := by
  simp [dropGrammarWork, h, ha, hn]

theorem dropGrammarWork_drops (hn : s.gramNamed (bits p.arg 27 16) = false) :
    dropGrammarWork p s = ((s.dropGram g.uid).event evImage 0 2 (bits p.arg 27 16)).done p 0 none none none := by
  simp [dropGrammarWork, h, ha, hn]

end

theorem State.dropGram_grams (uid : Nat) (s : State) : (s.dropGram uid).img.grams = s.img.grams.filter (fun x => x.uid != uid) := rfl

/-! ### img.query (R117) -/

theorem imgQueryWork_whole (hq : bits p.arg 1 0 = 0) :
    imgQueryWork p s = s.done p 0
      (some (s.img.gen + bitMap ((List.range 16).filter (fun n => (s.committed n).isSome)) * 2 ^ 16 +
        ((s.img.grams.map (·.id)).eraseDups).length * 2 ^ 32))
      (some (s.tableFree.1 / 1024 + s.tableFree.2 / 1024 * 2 ^ 32))
      (some ((s.img.slots.zipIdx).foldl (fun a x => a + slotCode x.1.state * 4 ^ x.2) 0)) := by
  rw [imgQueryWork, hq]
  rfl

section
variable {ov : Option Version} (hq : bits p.arg 1 0 = 1)
  (ho : s.img.versions.find? (fun v => v.number == bits p.arg 27 16 && v.inSet && !v.faulted) = ov)
include hq ho

theorem imgQueryWork_profile_notResident (hv : ov = none) : imgQueryWork p s = s.refuse p stNotResident := by
  rw [imgQueryWork, hq, ho, hv]
  rfl

theorem imgQueryWork_profile {v : Version} (hv : ov = some v) :
    imgQueryWork p s = s.done p 0 (some (v.prof.vocab + v.gen * 2 ^ 32)) (some (s.str.tab.filter (fun t => t.id.vuid == v.uid)).length)
      (some (v.prof.canonCrc + (s.img.versions.filter (fun x => x.number == bits p.arg 27 16 && !x.inSet)).length * 2 ^ 32)) := by
  rw [imgQueryWork, hq, ho, hv]
  rfl

end

/-! Among the resident grammars of an ID a replaced one stands behind its replacement (log 111). -/

section
variable {l : List Gram} (hq : bits p.arg 1 0 = 2) (hl : l = s.img.grams.filter (fun g => g.id == bits p.arg 27 16 && !g.faulted))
include hq hl

theorem imgQueryWork_grammar_notResident (h : l = []) : imgQueryWork p s = s.refuse p stNotResident := by
  rw [imgQueryWork, hq]
  dsimp only
  rw [← hl, h]
  rfl

theorem imgQueryWork_grammar {g : Gram} (hg : (l.filter (·.inSet)).head?.or l.head? = some g) :
    imgQueryWork p s = s.done p 0
      (some (g.body.profile + (if g.additive then 2 ^ 32 else 0) + (if g.pinned then 2 ^ 33 else 0) + g.gen * 2 ^ 48))
      (some (s.str.tab.filter (fun t => t.parse.gstate != GState.none && t.parse.gid == bits p.arg 27 16)).length) (some g.dirCrc) := by
  rw [imgQueryWork, hq]
  dsimp only
  rw [← hl, hg]
  rfl

end

theorem imgQueryWork_slot (hq : bits p.arg 1 0 = 3) :
    imgQueryWork p s = s.done p 0 (some (slotCode (s.slot (bits p.arg 27 16)).state)) (some (s.slot (bits p.arg 27 16)).bytes.length)
      (some (s.slot (bits p.arg 27 16)).since) := by
  rw [imgQueryWork, hq]
  rfl

end

/-! ### The statement on img.drop and img.query -/

/-- Settles O25: each packet's work on the slot, the grammar or the query that it names (the refusal of a last chunk that waits is log 60, the
count of versions still held log 61). -/
theorem imageDropsAndQueries : Obligations.ImageDropsAndQueries := by
  unfold Obligations.ImageDropsAndQueries
  refine fun dt ap pos s p => ⟨fun hd => ?_, fun hd => ?_, fun hd => ?_⟩
  · intro w n l
    have hrun (t : State) (h : dropSlotWork p w = t) : exec (.imgDropSlot dt ap pos) s = .next t := h ▸ exec_of_due rfl rfl rfl hd
    refine ⟨fun hl => hrun _ (dropSlotWork_refuses rfl hl), fun hl u hu => hrun _ ?_⟩
    rw [dropSlotWork_drops rfl hl hu]
    cases l.waitPkt <;> rfl
  · intro w id found
    have hrun (t : State) (h : dropGrammarWork p w = t) : exec (.imgDropGrammar dt ap pos) s = .next t := h ▸ exec_of_due rfl rfl rfl hd
    exact ⟨fun h => hrun _ (dropGrammarWork_notResident h), fun g h ha hn => hrun _ (dropGrammarWork_named h ha hn),
      fun g h ha hn => ⟨hrun _ (dropGrammarWork_drops h ha hn), State.dropGram_grams _ _⟩⟩
  · intro w i
    have hrun (t : State) (h : imgQueryWork p w = t) : exec (.imgQuery dt ap pos) s = .next t := h ▸ exec_of_due rfl rfl rfl hd
    exact ⟨fun hq => hrun _ (imgQueryWork_whole hq), fun hq v hv => hrun _ (imgQueryWork_profile hq rfl hv),
      fun hq hv => hrun _ (imgQueryWork_profile_notResident hq rfl hv),
      fun hq l hl => ⟨fun hnil => hrun _ (imgQueryWork_grammar_notResident hq hl hnil), fun g hg => hrun _ (imgQueryWork_grammar hq hl hg)⟩,
      fun hq => hrun _ (imgQueryWork_slot hq)⟩

end Sys2Proof.Machine
end

section
/-! Encoding (R118, R129, R137, R146 to R154, R158): what enc.text, a segment's end and enc.raw answer, case by case, and the statement on them. -/
namespace Sys2Proof.Machine
open Sys2Proof

-- Elaborated in turn: the check of the whole text has no memory for more elaboration threads.
set_option Elab.async false

/-! ### enc.text (R149 to R151) -/

/-- The test for other flags (R150) passes when no document is open or its flags are the packet's. -/
theorem otherFlags_eq_false {isOpen : Bool} {f g : Nat} (h : isOpen = false ∨ f = g) : (isOpen && f != g) = false := by
  rcases h with h | h <;> simp [h]

section
variable {s : State} {p : Pkt}

theorem encTextWork_notResident (hv : s.packetVersion p = none) : encTextWork p s = s.refuse p stNotResident := by
  rw [encTextWork, hv]

section
variable {v : Version} (hv : s.packetVersion p = some v)
include hv

theorem encTextWork_rawRefused (hr : rawRefused v.prof p.invalid = true) : encTextWork p s = s.refuse p stBadPacket := by
  simp only [encTextWork, hv, hr, if_true]

variable (hr : rawRefused v.prof p.invalid = false)
include hr

section
variable (ha : p.standalone = true)
include ha

theorem encTextWork_standalone_refused (he : encodeFor v p true p.payload = none) : encTextWork p s = s.refuse p stBadPacket := by
  simp [encTextWork, hv, hr, ha, he]

theorem encTextWork_standalone_begins {e : EncOut} (he : encodeFor v p true p.payload = some e) :
    encTextWork p s =
      s.onWork p (fun k => { k with r1 := transomPieces e.items, lane := s.pickLane v.number, vuid := v.uid }) := by
  simp [encTextWork, hv, hr, ha, he]

end

variable (ha : p.standalone = false) {t : Stream} (ht : s.live? p.stream = some t)
include ha ht

theorem encTextWork_otherFlags (ho : t.enc.docOpen = true) (hf : t.enc.docFlags ≠ bits p.opflags 4 2) :
    encTextWork p s = s.refuse p stStateConflict := by
  simp [encTextWork, hv, hr, ha, ht, ho, hf]

variable (ho : t.enc.docOpen = false ∨ t.enc.docFlags = bits p.opflags 4 2) {doc : Bytes}
  (hdoc : doc = (if t.enc.docOpen then t.enc.doc else []) ++ p.payload)
include ho hdoc

theorem encTextWork_document_refused (he : encodeFor v p (!t.enc.docSeen) doc = none) :
    encTextWork p s = s.refuse p stBadPacket := by
  rw [hdoc] at he
  simp only [encTextWork, hv, hr, ha, ht, otherFlags_eq_false ho, he, Bool.false_eq_true, if_false]

theorem encTextWork_document_begins {e : EncOut} (he : encodeFor v p (!t.enc.docSeen) doc = some e) {x : State}
    (hx : x = ((s.endHeal t.id.slot).1.toPrompt t.id.slot).onStream t.id.slot (fun t =>
      { t with enc := { t.enc with docOpen := !p.isFinal, doc := doc, docFlags := bits p.opflags 4 2 } })) :
    encTextWork p s = x.onWork p (fun k => { k with
      r0 := (s.endHeal t.id.slot).2, r1 := transomPieces (itemsAfter t.enc.docTokens e.items), lane := x.pickLane v.number }) := by
  subst hx hdoc
  simp only [encTextWork, hv, hr, ha, ht, otherFlags_eq_false ho, he, Bool.false_eq_true, if_false]

end

end

/-! ### A segment's end (R137, R146, R152, R153) -/

/-- The bytes that carry a list of IDs, four to the ID, are none only for no IDs. -/
theorem isEmpty_flatMap_leBytes {ids : List Nat} (h : ids ≠ []) : (ids.flatMap (leBytes 4)).isEmpty = false := by
  cases ids with
  | nil => exact absurd rfl h
  | cons i is => simp [leBytes]

section
variable {s : State} {k : Work} {v : Version}

theorem State.segmentPart_standalone (ha : k.pkt.standalone = true) {items : List Item} {toks : List Nat} (h : toks = itemTokens items) :
    s.segmentPart k v items =
      ((s.memoise v items).onWork k.pkt (fun k => { k with r2 := k.r2 + toks.length })).beginSegment k v := by
  subst h
  simp only [State.segmentPart, ha, if_true]

theorem State.segmentPart_stream (ha : k.pkt.standalone = false) {items : List Item} {toks : List Nat} (h : toks = itemTokens items) :
    s.segmentPart k v items = ((((s.memoise v items).onStream (slotOf k.pkt.stream) (fun t =>
        let t1 := t.enqueue s.aon.time toks
        { t1 with enc := { t1.enc with prompt := t1.enc.prompt + toks.length, docTokens := t1.enc.docTokens + toks.length } })).stow
      (slotOf k.pkt.stream)).onWork k.pkt (fun k => { k with r0 := k.r0 + toks.length })).beginSegment k v := by
  subst h
  simp only [State.segmentPart, ha, Bool.false_eq_true, if_false]

theorem State.segmentLast_standalone (ha : k.pkt.standalone = true) {e : EncOut} (he : encodeFor v k.pkt true k.pkt.payload = some e)
    {ids : List Nat} (hids : ids = v.prof.toModel (itemTokens e.items)) (hne : ids ≠ []) {x : State}
    (hx : x = ((s.memoise v e.items).egressAll k.pkt.ring none (txtRecs 0 0 k.pkt.tag 32 0 s.now
      (chunksOf 4064 (ids.flatMap (leBytes 4))))).done k.pkt k.info (some ids.length) (some 0) (some 0)) :
    s.segmentLast k v = if v.inSet then x else x.sweepVersions := by
  subst hx
  have hd := isEmpty_flatMap_leBytes hne
  subst hids
  simp only [State.segmentLast, ha, if_true, State.standaloneEnd, he, hd, Bool.false_eq_true, if_false]

/-- The last segment of a packet that is not FINAL leaves the document open: no heal, and the undecided tail is what RESULT1 shows. -/
theorem State.segmentLast_open (ha : k.pkt.standalone = false) (hf : k.pkt.isFinal = false) {t : Stream}
    (ht : s.live? k.pkt.stream = some t) {e : EncOut} (he : encodeFor v k.pkt (!t.enc.docSeen) t.enc.doc = some e)
    {toks : List Nat} (htoks : toks = (itemTokens e.items).drop t.enc.docTokens) :
    s.segmentLast k v = ((((((s.memoise v (itemsAfter t.enc.docTokens e.items)).onStream t.id.slot (fun u =>
        let u1 := u.enqueue s.aon.time toks
        { u1 with enc := { u1.enc with prompt := u1.enc.prompt + toks.length, docTokens := u.enc.docTokens + toks.length, tail := e.tail } })).stow
          t.id.slot).finish k.pkt).leavePrompt t.id.slot).done k.pkt k.info (some (k.r0 + toks.length)) (some e.tail)
            (some (t.enc.prompt + toks.length))) := by
  subst htoks
  simp [State.segmentLast, ha, ht, State.segmentEnd, he, hf]

end

section
variable {s b : State} {dt ap pos : Nat} {k : Work} (hb : s.elapse dt = b) (hk : b.workOf ap pos = some k) (ho : k.pkt.opcode = 0x0401)
include hb hk ho

theorem execTransomPieceDone_counts :
    execTransomPieceDone dt ap pos s = .next (b.onWork k.pkt (fun k => { k with r1 := k.r1 - 1 })) := by
  simp [execTransomPieceDone, hb, hk, ho]

variable {v : Version} {upTo : Option Nat} (hv : b.workVersion k = some v)
include hv

theorem execSegmentDone_begins (hl : k.lane = none) : execSegmentDone dt ap ⟨pos, upTo⟩ s = .next (b.beginSegment k v) := by
  simp [execSegmentDone, hb, hk, ho, hv, hl]

variable (hl : k.lane ≠ none) {items : List Item} {n : Nat} (hi : items = b.workItems k v)
  (hn : n = min (max 1 (upTo.getD items.length)) (segmentLimit 0 items))
include hl hi hn

theorem execSegmentDone_waits
    (hw : transomPieces (items.drop n) < k.r1 ∨ b.useReloading 4 = true ∧ v.special ≠ [] ∧ k.pkt.noSpecial = false) :
    execSegmentDone dt ap ⟨pos, upTo⟩ s = .next b := by
  subst hi hn
  rcases hw with hp | ⟨hr, hs, hx⟩
  · simp [execSegmentDone, hb, hk, ho, hv, hl, hp]
  · simp [execSegmentDone, hb, hk, ho, hv, hl, hr, hs, hx]

/-- Once its transom pieces are back and its literal banks are free, the segment ends, as its packet's last or before it (log 32). -/
theorem execSegmentDone_ends (hp : k.r1 ≤ transomPieces (items.drop n))
    (hh : ¬(b.useReloading 4 = true ∧ v.special ≠ [] ∧ k.pkt.noSpecial = false)) :
    execSegmentDone dt ap ⟨pos, upTo⟩ s = .next (if n < items.length
      then (b.countLane k v items).segmentPart k v (items.take n) else (b.countLane k v items).segmentLast k v) := by
  subst hi hn
  have hfree : (b.useReloading 4 && !v.special.isEmpty && !k.pkt.noSpecial) = false := by
    simpa [and_assoc] using hh
  simp only [execSegmentDone, hb, hk, ho, hv, hl, Option.isNone_iff_eq_none, hfree, Nat.not_lt.mpr hp,
    bne_self_eq_false, Bool.false_eq_true, if_false]

end

/-! ### enc.raw (R154, R158) -/

theorem any_le_eq_false_of_lt {ids : List Nat} {n : Nat} (h : ∀ m ∈ ids, m < n) : (ids.any fun m => decide (n ≤ m)) = false := by
  simpa using h

section
variable {s : State} {p : Pkt}

theorem encRawWork_notResident (hv : s.packetVersion p = none) : encRawWork p s = s.refuse p stNotResident := by
  rw [encRawWork, hv]

section
variable {v : Version} (hv : s.packetVersion p = some v)
include hv

theorem encRawWork_outside (hm : ∃ m ∈ tokenIds p.payload, v.prof.vocab ≤ m) : encRawWork p s = s.refuse p stBadPacket := by
  simp [encRawWork, hv, hm]

variable (hm : ∀ m ∈ tokenIds p.payload, m < v.prof.vocab) {toks : List Nat} (htoks : toks = v.prof.toCanon (tokenIds p.payload))
include hm htoks

theorem encRawWork_standalone (ha : p.standalone = true) :
    encRawWork p s = s.done p 0 (some (tokenIds p.payload).length) (some (v.vocab.specials toks)) none := by
  subst htoks
  simp only [encRawWork, hv, any_le_eq_false_of_lt hm, ha, Bool.false_eq_true, if_false, if_true]

theorem encRawWork_stream (ha : p.standalone = false) {t : Stream} (ht : s.live? p.stream = some t) :
    encRawWork p s = ((((s.endHeal t.id.slot).1.toPrompt t.id.slot).onStream t.id.slot (fun t =>
        let t1 := t.enqueue s.aon.time toks
        { t1 with enc := { t1.enc with promptDone := false, prompt := t1.enc.prompt + toks.length } })).stow t.id.slot).done p 0
          (some ((tokenIds p.payload).length + (s.endHeal t.id.slot).2)) (some (v.vocab.specials toks))
          (some (t.enc.prompt + (s.endHeal t.id.slot).2 + toks.length)) := by
  subst htoks
  simp only [encRawWork, hv, any_le_eq_false_of_lt hm, ha, ht, Bool.false_eq_true, if_false]

end

end

/-! ### The statement on encoding -/

/-- Settles O31: what each packet's work answers and how a segment ends (where it ends is the command's operand, within
R146's bound: log 32; when it ends is the command's own: log 122). -/
theorem textEncoded : Obligations.TextEncoded := by
  unfold Obligations.TextEncoded
  refine ⟨fun dt ap pos s p hd => ?_, fun dt ap pos s k hk ho => ?_, fun dt ap pos s p hd => ?_⟩
  · intro w
    have hrun (u : State) (h : encTextWork p w = u) : exec (.encText dt ap pos) s = .next u := h ▸ exec_of_due rfl rfl rfl hd
    refine ⟨fun hv => hrun _ (encTextWork_notResident hv), fun v hv => ⟨fun hr => ?_, fun hr ha => ⟨fun he => ?_, fun e he => ?_⟩,
      fun hr ha t ht => ⟨fun hopen hf => ?_, fun hf doc hdoc => ⟨fun he => ?_, fun e he x hx => ?_⟩⟩⟩⟩
    · exact hrun _ (encTextWork_rawRefused hv hr)
    · exact hrun _ (encTextWork_standalone_refused hv hr ha he)
    · exact hrun _ (encTextWork_standalone_begins hv hr ha he)
    · exact hrun _ (encTextWork_otherFlags hv hr ha ht hopen hf)
    · exact hrun _ (encTextWork_document_refused hv hr ha ht hf hdoc he)
    · exact hrun _ (encTextWork_document_begins hv hr ha ht hf hdoc he hx)
  · intro b
    have hkb : b.workOf ap pos = some k := hk
    refine ⟨execTransomPieceDone_counts rfl hkb ho, fun v hv => ⟨fun hl upTo => execSegmentDone_begins rfl hkb ho hv hl,
      fun hl items upTo n hi hn => ⟨execSegmentDone_waits rfl hkb ho hv hl hi hn, fun hp hh c hc => ?_⟩⟩⟩
    have hends (u : State) (h : (if n < items.length then c.segmentPart k v (items.take n) else c.segmentLast k v) = u) :
        exec (.segmentDone dt ap ⟨pos, upTo⟩) s = .next u := by
      subst hc h
      exact execSegmentDone_ends rfl hkb ho hv hl hi hn hp hh
    refine ⟨fun hlt toks htoks => ⟨fun ha => hends _ ?_, fun ha => hends _ ?_⟩, fun hle ha e he ids hids hne x hx => hends _ ?_,
      fun hle ha hf t ht e he toks htoks => hends _ ?_⟩
    · rw [if_pos hlt, State.segmentPart_standalone ha htoks]
    · rw [if_pos hlt, State.segmentPart_stream ha htoks]
    · rw [if_neg (Nat.not_lt.mpr hle), State.segmentLast_standalone ha he hids hne hx]
    · rw [if_neg (Nat.not_lt.mpr hle), State.segmentLast_open ha hf ht he htoks]
  · intro w
    have hrun (u : State) (h : encRawWork p w = u) : exec (.encRaw dt ap pos) s = .next u := h ▸ exec_of_due rfl rfl rfl hd
    refine ⟨fun hv => hrun _ (encRawWork_notResident hv), fun v hv => ⟨fun hm => hrun _ (encRawWork_outside hv hm),
      fun hm toks htoks => ⟨fun ha => ?_, fun ha t ht => ?_⟩⟩⟩
    · exact hrun _ (encRawWork_standalone hv hm htoks ha)
    · exact hrun _ (encRawWork_stream hv hm htoks ha ht)

end Sys2Proof.Machine
end

section
/-! Decoding (R71, R174 to R183, R247): how text is cut into runs, what COMMIT_DECODE_DONE and dec.tok answer, case by case, and the statement on
them. -/
namespace Sys2Proof.Machine
open Sys2Proof

-- Elaborated in turn: the check of the whole text has no memory for more elaboration threads.
set_option Elab.async false

/-! ### The runs of a text (R174) -/

theorem forall_mem_ite {α : Type} {P : α → Prop} {c : Prop} [Decidable c] {x y : Option α} (hx : ∀ a ∈ x, P a) (hy : ∀ a ∈ y, P a) :
    ∀ a ∈ if c then x else y, P a := by
  split
  · exact hx
  · exact hy

/-- A lead byte is followed by three bytes at most, on each branch of the table of RFC 3629. -/
theorem utf8Lead_tail_le (b : Nat) : ∀ r ∈ utf8Lead b, r.1 ≤ 3 := by
  unfold utf8Lead
  repeat' apply forall_mem_ite
  all_goals simp

theorem utf8Front_good_bounds {bs : Bytes} {m : Nat} (h : utf8Front bs = .good m) : 0 < m ∧ m ≤ 4 := by
  cases bs with
  | nil => simp [utf8Front] at h
  | cons b rest =>
    rcases hl : utf8Lead b.toNat with _ | ⟨k, lo, hi⟩
    · simp [utf8Front, hl] at h
    · have hk : k ≤ 3 := utf8Lead_tail_le b.toNat (k, lo, hi) hl
      simp only [utf8Front, hl] at h
      split_ifs at h
      cases h
      omega

/-- Bytes that a run takes at once: a well-formed character, or one byte of what is ill formed. -/
def splitUnit (b : Bytes) : Nat :=
  match utf8Front b with
  | .good m => m
  | _ => 1

theorem splitUnit_bounds (b : Bytes) : 0 < splitUnit b ∧ splitUnit b ≤ 4 := by
  cases h : utf8Front b with
  | good m => simpa [splitUnit, h] using utf8Front_good_bounds h
  | bad | cut => simp [splitUnit, h]

theorem splitRuns_nil (n fuel : Nat) (cur : Bytes) : splitRuns n fuel cur [] = [cur] := by
  cases fuel <;> simp [splitRuns]

theorem splitRuns_succ (n fuel : Nat) (cur : Bytes) {b : Bytes} (h : b ≠ []) :
    splitRuns n (fuel + 1) cur b =
      if cur.length + splitUnit b ≤ n then splitRuns n fuel (cur ++ b.take (splitUnit b)) (b.drop (splitUnit b))
      else cur :: splitRuns n fuel (b.take (splitUnit b)) (b.drop (splitUnit b)) := by
  rw [splitRuns, if_neg (by simpa using h)]
  rfl

/-- The runs joined are the run so far and the text, whatever the bound and the fuel. -/
theorem splitRuns_flatten (n fuel : Nat) (cur b : Bytes) : (splitRuns n fuel cur b).flatten = cur ++ b := by
  induction fuel generalizing cur b with
  | zero => simp [splitRuns]
  | succ fuel ih =>
    rcases eq_or_ne b [] with rfl | hb
    · simp [splitRuns_nil]
    · rw [splitRuns_succ n fuel cur hb]
      split <;> simp [ih]

/-- Every character fits an empty run, and takes a byte off the text: with fuel for the text no run exceeds the bound. -/
theorem length_le_of_mem_splitRuns {n : Nat} (hn : 4 ≤ n) {fuel : Nat} {cur b : Bytes} (hc : cur.length ≤ n) (hf : b.length ≤ fuel) :
    ∀ r ∈ splitRuns n fuel cur b, r.length ≤ n := by
  induction fuel generalizing cur b with
  | zero =>
    obtain rfl : b = [] := List.length_eq_zero_iff.mp (Nat.le_zero.mp hf)
    simpa [splitRuns_nil] using hc
  | succ fuel ih =>
    rcases eq_or_ne b [] with rfl | hb
    · simpa [splitRuns_nil] using hc
    · obtain ⟨hpos, hle⟩ := splitUnit_bounds b
      have hrest : (b.drop (splitUnit b)).length ≤ fuel := by
        rw [List.length_drop]
        omega
      have hunit : (b.take (splitUnit b)).length ≤ splitUnit b := List.length_take_le ..
      rw [splitRuns_succ n fuel cur hb]
      split
      next hfits =>
        refine ih ?_ hrest
        rw [List.length_append]
        omega
      next => exact List.forall_mem_cons.mpr ⟨hc, ih (by omega) hrest⟩

/-! ### COMMIT_DECODE_DONE (R174 to R179, R299) -/

section
variable {s b : State} {dt slot : Nat} (hb : s.elapse dt = b)
include hb

theorem execCommitDecodeDone_idle (h : ∀ t, b.stream? slot = some t → t.commit = none) : execCommitDecodeDone dt slot s = .next b := by
  cases ht : b.stream? slot with
  | none => simp only [execCommitDecodeDone, hb, ht]
  | some t => simp only [execCommitDecodeDone, hb, ht, h t ht]

variable {t : Stream} {c : Commit} (ht : b.stream? slot = some t) (hc : t.commit = some c)
include ht hc

theorem execCommitDecodeDone_slices (hs : c.slice = none) : execCommitDecodeDone dt slot s = .next (b.sliceCommit slot) := by
  simp [execCommitDecodeDone, hb, ht, hc, hs]

theorem execCommitDecodeDone_waits (hs : c.slice ≠ none) (hstops : t.id.stops ≠ []) (hr : b.useReloading 2 = true) :
    execCommitDecodeDone dt slot s = .next b := by
  simp [execCommitDecodeDone, hb, ht, hc, hs, hstops, hr]

theorem execCommitDecodeDone_decodes (hs : c.slice ≠ none) (hfree : t.id.stops = [] ∨ b.useReloading 2 = false) :
    execCommitDecodeDone dt slot s = .next (b.stage9 slot c) := by
  have hheld : (!t.id.stops.isEmpty && b.useReloading 2) = false := by
    rcases hfree with h | h <;> simp [h]
  simp [execCommitDecodeDone, hb, ht, hc, hs, hheld]

end

/-- What a slice leaves of a commit that it has decoded: its lookups counted, its txt records with the ring, the stream in its next state and the
choice completed. -/
theorem State.stage9_eq {s : State} {slot n : Nat} {t : Stream} {c : Commit} (ht : s.stream? slot = some t) (hs : c.slice = some n) {a : Decoded}
    (ha : a = (if c.ended
      then decodeEnd (s.decSet t) (s.seenStops t) (decodeTokens (s.vocabOf t) (s.decSet t) (s.seenStops t) t.dec c.heal c.tokens)
      else decodeTokens (s.vocabOf t) (s.decSet t) (s.seenStops t) t.dec c.heal c.tokens))
    {ended : Bool} (hended : ended = (c.ended || a.stopped)) {u : State}
    (hu : u = ((((s.lookups (8 + n / 2) 2 (a.keys.map (fun k => [k]))).count bcStopFalse a.falseHits).onStream slot (fun t => { t with
        commit := none, dec := a.dec, lat := { t.lat with policyDue := t.lat.lateStep && !ended } })).egressAll t.id.ring (some t.handle)
      (txtRecs t.handle c.step c.index (flag t.lat.lateStep 0 + flag t.replayed 1)
        (flag a.stopped 2 + flag ended 3 + flag (!a.dec.carry.isEmpty) 4) s.now (splitRuns 4064 a.text.length [] a.text))))
    {x : State × Nat} (hx : x = ((if ended then u.setState slot .draining else u.enterReady slot).pauseDeferred slot).heldBit slot) :
    s.stage9 slot c = ((x.1.onStream slot (fun t => { t with broke := false })).workDone 1 (.stream slot)).done c.pkt
      (x.2 + flag t.replayed 1 + flag t.lat.lateStep 2) (some c.result0) (some c.step) (some (x.1.chooseR2 slot c)) := by
  subst hx hu hended ha
  simp only [State.stage9, ht, hs, Option.getD_some]

/-! ### dec.tok (R180 to R183) -/

section
variable {s : State} {p : Pkt}

theorem decTokWork_notResident (hv : s.packetVersion p = none) : decTokWork p s = s.refuse p stNotResident := by
  rw [decTokWork, hv]

section
variable {v : Version} (hv : s.packetVersion p = some v)
include hv

theorem decTokWork_outside (hm : ∃ m ∈ tokenIds p.payload, v.prof.vocab ≤ m) : decTokWork p s = s.refuse p stBadPacket := by
  simp [decTokWork, hv, hm]

theorem decTokWork_decodes (hm : ∀ m ∈ tokenIds p.payload, m < v.prof.vocab) {d : Bytes × Nat × Nat}
    (hd : d = v.vocab.decTok (decTokSet p v (if p.standalone then none else s.live? p.stream)) (v.prof.toCanon (tokenIds p.payload))) :
    decTokWork p s = (s.egressAll p.ring p.named (txtRecs p.stream 0 p.tag 0 0 s.now (splitRuns 4064 d.1.length [] d.1))).done p 0
      (some d.1.length) (some ((tokenIds p.payload).length + d.2.1 * 2 ^ 24)) (some d.2.2) := by
  subst hd
  simp only [decTokWork, hv, any_le_eq_false_of_lt hm, Bool.false_eq_true, if_false]

end

end

/-! ### The statement on decoding -/

/-- Settles O33: the commit's decoding by its cases, the runs of any text, and dec.tok's work (the flag of a carried ill-formed subpart is
TFLAGS bit 4 of R71). -/
theorem textReleased : Obligations.TextReleased := by
  unfold Obligations.TextReleased
  refine ⟨fun dt slot s => ?_, fun text => ?_, fun dt ap pos s p hd => ?_⟩
  · intro b
    refine ⟨execCommitDecodeDone_idle rfl, fun t c ht hc => ⟨execCommitDecodeDone_slices rfl ht hc, execCommitDecodeDone_waits rfl ht hc,
      fun n hs hfree a ha ended hended u hu x hx => ?_⟩⟩
    rw [← State.stage9_eq ht hs ha hended hu hx]
    exact execCommitDecodeDone_decodes rfl ht hc (by simp [hs]) hfree
  · exact ⟨splitRuns_flatten 4064 text.length [] text, length_le_of_mem_splitRuns (by decide) (Nat.zero_le _) le_rfl⟩
  · intro w
    have hrun (u : State) (h : decTokWork p w = u) : exec (.decTok dt ap pos) s = .next u := h ▸ exec_of_due rfl rfl rfl hd
    exact ⟨fun hv => hrun _ (decTokWork_notResident hv), fun v hv => ⟨fun hm => hrun _ (decTokWork_outside hv hm),
      fun hm d hdec => hrun _ (decTokWork_decodes hv hm hdec)⟩⟩

end Sys2Proof.Machine
end

section
/-! Builds and policies (R212, R225, R228, R235 to R239, R331): what BACKGROUND_BUILD, SHUTTER_BUILD_DONE, STACK_REFILL_DONE and DEADLINE_POLICY
answer, case by case, and the statement on them. -/
namespace Sys2Proof.Machine
open Sys2Proof

-- Elaborated in turn: the check of the whole text has no memory for more elaboration threads.
set_option Elab.async false

/-! ### BACKGROUND_BUILD (R228) -/

theorem State.unitQuiet_iff {s : State} {u : Nat} :
    s.unitQuiet u = true ↔ ∀ c ∈ s.str.builds, c.background = true ∨ u ∉ c.units ∨ c.share = 0 := by
  simp [State.unitQuiet, or_iff_not_imp_left]

theorem State.mayBuild_iff {s : State} {t : Stream} :
    s.mayBuild t = true ↔ (∀ u ∈ s.casements t.id.profile, ∀ c ∈ s.str.builds, c.background = true ∨ u ∉ c.units ∨ c.share = 0) ∧
      s.blocksUsed + s.backBlocks t ≤ s.shutterBlocks := by
  simp only [State.mayBuild, Bool.and_eq_true, List.all_eq_true, decide_eq_true_eq, State.unitQuiet_iff]

section
variable {s b : State} {dt slot : Nat} (hb : s.elapse dt = b)
include hb

theorem execBackgroundBuild_idle
    (h : b.str.builds.find? (fun q => q.slot == slot && q.background && !q.running) = none ∨ b.stream? slot = none) :
    execBackgroundBuild dt slot s = .next b := by
  cases hq : b.str.builds.find? (fun q => q.slot == slot && q.background && !q.running) with
  | none => simp only [execBackgroundBuild, hb, hq]
  | some q =>
    have ht : b.stream? slot = none := h.resolve_left (by simp [hq])
    simp only [execBackgroundBuild, hb, hq, ht]

variable {q : Build} {t : Stream} (hq : b.str.builds.find? (fun q => q.slot == slot && q.background && !q.running) = some q)
  (ht : b.stream? slot = some t)
include hq ht

theorem execBackgroundBuild_starts (h : b.mayBuild t = true) :
    execBackgroundBuild dt slot s = .next (b.onStr (fun g => { g with builds := g.builds.map (fun c =>
      if c == q then { c with running := true, blocks := b.backBlocks t, began := b.aon.time } else c) })) := by
  simp only [execBackgroundBuild, hb, hq, ht, h, if_true]

theorem execBackgroundBuild_held (h : ¬b.mayBuild t = true) : execBackgroundBuild dt slot s = .next b := by
  simp only [execBackgroundBuild, hb, hq, ht, h, Bool.false_eq_true, if_false]

end

/-! ### SHUTTER_BUILD_DONE (R212, R225, R228, R236, R239) -/

/-- Whether SHUTTER_BUILD_DONE for a slot's node can speak of a build: a running one of that node, and a background build only with its stream's
stack resident (R212) and as the first of them (R228). -/
def State.buildEnds (s : State) (slot node : Nat) (q : Build) : Bool :=
  q.slot == slot && q.node == node && q.running && (!q.background ||
    ((match s.stream? slot with | some t => !t.parse.refill | none => true) && s.str.builds.find? (·.background) == some q))

/-- What is done with the first build that the command can speak of: its share at a unit, or its end. -/
theorem execShutterBuildDone_eq (dt slot node : Nat) (unit : Option Nat) (s : State) :
    execShutterBuildDone dt slot ⟨node, unit⟩ s =
      .next (((s.elapse dt).str.builds.find? ((s.elapse dt).buildEnds slot node)).elim (s.elapse dt) fun q =>
        unit.elim ((s.elapse dt).buildDone q) ((s.elapse dt).shareDone q)) := by
  unfold execShutterBuildDone
  dsimp only
  split
  next h =>
    rw [show (s.elapse dt).str.builds.find? ((s.elapse dt).buildEnds slot node) = none from h, Option.elim_none]
  next q h =>
    rw [show (s.elapse dt).str.builds.find? ((s.elapse dt).buildEnds slot node) = some q from h, Option.elim_some]
    cases unit <;> rfl

section
variable {s b : State} {dt slot node : Nat} (hb : s.elapse dt = b)
include hb

theorem execShutterBuildDone_idle {unit : Option Nat} (h : b.str.builds.find? (b.buildEnds slot node) = none) :
    execShutterBuildDone dt slot ⟨node, unit⟩ s = .next b := by
  simp only [execShutterBuildDone_eq, hb, h, Option.elim_none]

variable {q : Build} (hq : b.str.builds.find? (b.buildEnds slot node) = some q)
include hq

theorem execShutterBuildDone_share (n : Nat) : execShutterBuildDone dt slot ⟨node, some n⟩ s = .next (b.shareDone q n) := by
  simp only [execShutterBuildDone_eq, hb, hq, Option.elim_some]

theorem execShutterBuildDone_whole : execShutterBuildDone dt slot ⟨node, none⟩ s = .next (b.buildDone q) := by
  simp only [execShutterBuildDone_eq, hb, hq, Option.elim_some, Option.elim_none]

end

theorem State.lateBuild_iff {s : State} {q : Build} :
    s.lateBuild q = true ↔ q.background = false ∧ q.missed = false ∧ q.clock + 16 * q.bound < s.aon.garnet := by
  simp [State.lateBuild, and_assoc]

section
variable {s u : State} {q : Build} (hu : u = (s.onStr (fun g => { g with builds := g.builds.erase q })).workDone 2 (.stream q.slot))
include hu

theorem State.buildDone_late (h : s.lateBuild q = true) :
    s.buildDone q = (((u.count bcShutterMiss 1).build q.slot q.node).latchRows q.slot q.node).grantTrees := by
  simp only [State.buildDone, h, if_true, hu]

theorem State.buildDone_inTime (h : ¬s.lateBuild q = true) :
    s.buildDone q = ((u.build q.slot q.node).latchRows q.slot q.node).grantTrees := by
  simp only [State.buildDone, h, Bool.false_eq_true, if_false, hu]

end

/-! ### STACK_REFILL_DONE (R212) -/

section
variable {s b : State} {dt slot : Nat} (hb : s.elapse dt = b)
include hb

theorem execStackRefillDone_refills {t : Stream} (ht : b.stream? slot = some t) (hr : t.parse.refill = true) :
    execStackRefillDone dt slot s = .next ((b.takeStack slot).getD b) := by
  simp only [execStackRefillDone, hb, ht, hr, if_true]

theorem execStackRefillDone_idle (h : ∀ t, b.stream? slot = some t → t.parse.refill = false) :
    execStackRefillDone dt slot s = .next b := by
  cases ht : b.stream? slot with
  | none => simp only [execStackRefillDone, hb, ht]
  | some t => simp only [execStackRefillDone, hb, ht, h t ht, Bool.false_eq_true, if_false]

end

/-! ### DEADLINE_POLICY (R331) -/

theorem State.applyPolicy_idle {s : State} {slot : Nat} (h : ∀ t, s.stream? slot = some t → t.lat.policyDue = false) :
    s.applyPolicy slot = s := by
  cases ht : s.stream? slot with
  | none => simp only [State.applyPolicy, ht]
  | some t => simp only [State.applyPolicy, ht, h t ht, Bool.not_false, if_true]

section
variable {s u : State} {slot : Nat} {t : Stream} (ht : s.stream? slot = some t) (hd : t.lat.policyDue = true)
  (hu : u = s.onStream slot (fun t => { t with lat := { t.lat with policyDue := false, lateSeen := true } }))
include ht hd hu

theorem State.applyPolicy_closes (hp : t.id.policy = 1) :
    s.applyPolicy slot = (u.eventFull evDeadline t.handle 0xFFFF t.handle 1 t.lastStep).closeStream slot none := by
  simp [State.applyPolicy, ht, hd, hu, hp]

/-- Policy 2 makes the stream less urgent: a higher number is a lower priority. -/
theorem State.applyPolicy_demotes (hp : t.id.policy = 2) :
    s.applyPolicy slot = (u.onStream slot (fun t => { t with
      id := { t.id with priority := min 3 (t.id.priority + 1) } })).eventFull evDeadline t.handle 0xFFFF t.handle 2 t.lastStep := by
  simp [State.applyPolicy, ht, hd, hu, hp]

theorem State.applyPolicy_toldBefore (hp : t.id.policy = 0) (hl : t.lat.lateSeen = true) : s.applyPolicy slot = u := by
  simp [State.applyPolicy, ht, hd, hu, hp, hl]

theorem State.applyPolicy_tells (hp : t.id.policy = 0) (hl : t.lat.lateSeen = false) :
    s.applyPolicy slot = u.eventFull evDeadline t.handle 0xFFFF t.handle 0 t.lastStep := by
  simp [State.applyPolicy, ht, hd, hu, hp, hl]

end

/-! ### The statement on builds and policies -/

/-- Settles O44: a background build starts when no check waits at its units and its blocks fit (reserved at the start: log 132), a build ends by
its share or whole (a miss counted in garnet clocks: log 18), a refill ends, and a late step's policy is applied by its number. -/
theorem buildsAndPolicies : Obligations.BuildsAndPolicies := by
  unfold Obligations.BuildsAndPolicies
  refine ⟨fun dt slot s => ?_, fun dt slot s => ?_⟩
  · intro b
    refine ⟨execBackgroundBuild_idle rfl, fun q t hq ht => ⟨fun hfree => ?_, fun hfree => ?_⟩, fun node unit => ?_,
      fun _ => execStackRefillDone_refills rfl, execStackRefillDone_idle rfl⟩
    · exact execBackgroundBuild_starts rfl hq ht (State.mayBuild_iff.mpr hfree)
    · exact execBackgroundBuild_held rfl hq ht (mt State.mayBuild_iff.mp hfree)
    · intro ends
      refine ⟨execShutterBuildDone_idle rfl, fun q hq => ⟨?_, ?_⟩⟩
      · rintro n rfl
        exact execShutterBuildDone_share rfl hq n
      · rintro rfl u hu
        have hwhole : exec (.shutterBuildDone dt slot ⟨node, none⟩) s = .next (b.buildDone q) := execShutterBuildDone_whole rfl hq
        refine ⟨fun hlate => ?_, fun hlate => ?_⟩
        · rw [hwhole, State.buildDone_late hu (State.lateBuild_iff.mpr hlate)]
        · rw [hwhole, State.buildDone_inTime hu (mt State.lateBuild_iff.mp hlate)]
  · intro b
    have happly (u : State) (h : b.applyPolicy slot = u) : exec (.deadlinePolicy dt slot) s = .next u := by
      subst h
      rfl
    refine ⟨fun h => happly _ (State.applyPolicy_idle h), fun t ht hd => ⟨fun hp => ?_, fun hp => ?_, fun hp hl => ?_, fun hp hl => ?_⟩⟩
    · exact happly _ (State.applyPolicy_closes ht hd rfl hp)
    · exact happly _ (State.applyPolicy_demotes ht hd rfl hp)
    · exact happly _ (State.applyPolicy_toldBefore ht hd rfl hp hl)
    · exact happly _ (State.applyPolicy_tells ht hd rfl hp hl)

end Sys2Proof.Machine
end

section
/-! Choosing a token (R22, R196, R235, R243 to R246): what a held choice's grant, tok.choose and CHOICE_GRANT answer, case by case, and the
statement on them. -/
namespace Sys2Proof.Machine
open Sys2Proof

-- Elaborated in turn: the check of the whole text has no memory for more elaboration threads.
set_option Elab.async false

/-! ### The commit of a held choice (R196) -/

section
variable {s : State} {slot : Nat} {t : Stream} {c : Choice} (ht : s.stream? slot = some t) (hc : t.choice = some c)
include ht hc

theorem State.commitChoice_eq : s.commitChoice slot = s.tokenCommit slot c.pkt [c.token]
    (s.rechunk false t.parse (s.advanceBy t t.parse t.healText c.token (!c.outside)))
    (s.endsBy t c.token (t.generated + 1) (t.length + 1)) false c.pkt.arg (s.aon.time - c.arrived) := by
  simp only [State.commitChoice, ht, hc]

theorem State.commitHeld_reply (hr : c.reply = true) : s.commitHeld slot = s.commitReply slot := by
  simp only [State.commitHeld, ht, hc, hr, if_true]

theorem State.commitHeld_choice (hr : c.reply = false) : s.commitHeld slot = s.commitChoice slot := by
  simp only [State.commitHeld, ht, hc, hr, Bool.false_eq_true, if_false]

end

/-! ### Grants (R22, R235) -/

/-- The held choice of a slot's stream counts as arrived now: what `State.grantOrWait` does with one that did not wait yet. -/
def State.stampChoice (slot : Nat) (s : State) : State :=
  s.onStream slot (fun t => { t with choice := t.choice.map (fun c => { c with arrived := s.aon.time }) })

section
variable {s : State} {slot : Nat} {t : Stream} {c : Choice} (ht : s.stream? slot = some t) (hc : t.choice = some c)
include ht hc

theorem State.stream?_stampChoice (ha : c.arrived = s.aon.time) : (s.stampChoice slot).stream? slot = some t := by
  have hstamp : t.choice.map (fun c => { c with arrived := s.aon.time }) = t.choice := by
    rw [hc, ← ha]
    rfl
  have hslot : t.id.slot = slot := State.stream?_slot ht
  have h := State.stream?_onStream (f := fun t => { t with choice := t.choice.map (fun c => { c with arrived := s.aon.time }) }) ht hslot
  rwa [hstamp] at h

variable (commit : Nat → State → State)

theorem State.grantOrWait_waiting (hw : slot ∈ s.str.waitingChoices) :
    s.grantOrWait commit slot = if s.grantable t then commit slot s else s := by
  simp [State.grantOrWait, ht, hc, hw]

theorem State.grantOrWait_new (hw : slot ∉ s.str.waitingChoices) :
    s.grantOrWait commit slot = if s.grantable t then commit slot (s.stampChoice slot)
      else (s.stampChoice slot).onStr (fun g => { g with waitingChoices := g.waitingChoices ++ [slot] }) := by
  simp [State.grantOrWait, State.stampChoice, ht, hc, hw]

end

/-! ### tok.choose (R243 to R246) -/

section
variable {s : State} {p : Pkt} {t : Stream} (ht : s.live? p.stream = some t)
include ht

theorem tokChooseWork_conflict (h : t.choosing = true ∨ t.treeStep = true) : tokChooseWork p s = s.refuse p stStateConflict := by
  simp [tokChooseWork, ht, h]

variable (hc : t.choosing = false) (hts : t.treeStep = false) {v : Vocab} (hv : v = s.vocabOf t)
include hc hts hv

theorem tokChooseWork_noToken (ha : v.prof.vocab ≤ p.arg) : tokChooseWork p s = s.refuse p stBadPacket := by
  subst hv
  simp [tokChooseWork, ht, hc, hts, ha]

variable (ha : p.arg < v.prof.vocab)
include ha

theorem tokChooseWork_voided (hvoid : t.voided = true) : tokChooseWork p s = s.refuse p stVoided := by
  subst hv
  simp [tokChooseWork, ht, hc, hts, Nat.not_le.mpr ha, hvoid]

variable (hvoid : t.voided = false) {tok : Nat} (htok : tok = v.prof.m2c.getD p.arg 0)
include hvoid htok

theorem tokChooseWork_disallowed (ho : s.outside t 0 tok = true) (hf : t.id.force = false) :
    tokChooseWork p s = s.cmp p stDisallowed (flag t.replayed 1) (some p.arg) (some t.lastStep) (some 0) := by
  subst htok hv
  simp only [tokChooseWork, ht, hc, hts, Nat.not_le.mpr ha, hvoid, ho, hf, Bool.or_self, Bool.false_eq_true, if_false, Bool.not_false,
    Bool.and_self, if_true]

/-- A choice that passes every check is held, and from its step's PASS on it is granted or waits (R22, R246). -/
theorem tokChooseWork_holds (ho : s.outside t 0 tok = false ∨ t.id.force = true) {c : Choice}
    (hch : c = { pkt := p, token := tok, node := 0, reply := false, outside := s.outside t 0 tok, arrived := s.aon.time })
    {u : State} (hu : u = s.onStream t.id.slot (fun t => { t with choice := some c })) :
    tokChooseWork p s = if s.passed t.lastStep then u.grantOrWait State.commitChoice t.id.slot else u := by
  subst hu hch htok hv
  have hout : (s.outside t 0 ((s.vocabOf t).prof.m2c.getD p.arg 0) && !t.id.force) = false := by
    rcases ho with h | h
    · rw [h, Bool.false_and]
    · rw [h, Bool.not_true, Bool.and_false]
  simp only [tokChooseWork, ht, hc, hts, Nat.not_le.mpr ha, hvoid, hout, Bool.or_self, Bool.false_eq_true, if_false]
  rfl

end

/-! ### CHOICE_GRANT (R235, R360) -/

section
variable {s b : State} {dt slot : Nat} (hb : s.elapse dt = b)
include hb

theorem execChoiceGrant_idle (hw : slot ∉ b.str.waitingChoices) : execChoiceGrant dt slot s = .next b := by
  simp [execChoiceGrant, hb, hw]

theorem execChoiceGrant_judges {t : Stream} {c : Choice} (ht : b.stream? slot = some t) (hc : t.choice = some c)
    (hw : slot ∈ b.str.waitingChoices) :
    execChoiceGrant dt slot s = .next (if b.grantable t then b.commitHeld slot else b).grantTrees := by
  rw [← State.grantOrWait_waiting ht hc State.commitHeld hw]
  simp [execChoiceGrant, hb, hw]

end

/-! ### The statement on choosing a token -/

/-- Settles O32: the checks of tok.choose in their order (a choice held or at work is refused before the token is looked at: log 39), the grant or
wait of a held choice after its step's PASS, and CHOICE_GRANT of one that waits. -/
theorem tokenChosen : Obligations.TokenChosen := by
  unfold Obligations.TokenChosen
  refine ⟨fun dt ap pos s p hd => ?_, fun dt slot s => ?_⟩
  · intro w t ht v hv tok htok slot hslot
    have hrun (u : State) (h : tokChooseWork p w = u) : exec (.tokChoose dt ap pos) s = .next u := h ▸ exec_of_due rfl rfl rfl hd
    refine ⟨fun h => hrun _ (tokChooseWork_conflict ht h), fun hc hts => ⟨fun ha => ?_, fun ha hvoid => ?_, fun ha hvoid =>
      ⟨fun ho hf => ?_, fun ho c hch => ?_⟩⟩⟩
    · exact hrun _ (tokChooseWork_noToken ht hc hts hv ha)
    · exact hrun _ (tokChooseWork_voided ht hc hts hv ha hvoid)
    · exact hrun _ (tokChooseWork_disallowed ht hc hts hv ha hvoid htok ho hf)
    · intro u x tc
      have hu : u = w.onStream t.id.slot (fun t => { t with choice := some c }) := by rw [← hslot]
      have hwork := tokChooseWork_holds ht hc hts hv ha hvoid htok ho hch hu
      have htc : u.stream? slot = some tc :=
        State.stream?_onStream (f := fun t => { t with choice := some c }) (hslot ▸ State.live?_stream? ht) hslot.symm
      refine ⟨fun hpass => hrun _ (by rw [hwork, hpass, if_neg Bool.false_ne_true]), fun hpass hw => ?_⟩
      have hnew : tokChooseWork p w = if u.grantable tc then State.commitChoice slot x
          else x.onStr (fun g => { g with waitingChoices := g.waitingChoices ++ [slot] }) := by
        rw [hwork, hpass, if_pos rfl, ← hslot]
        exact State.grantOrWait_new htc rfl State.commitChoice hw
      refine ⟨fun hg => hrun _ ?_, fun hg => hrun _ ?_⟩
      · have htx : x.stream? slot = some tc := State.stream?_stampChoice htc rfl (by rw [hch]; rfl)
        have hwaited : x.aon.time - c.arrived = 0 := by
          rw [hch]
          exact Nat.sub_self _
        rw [hnew, hg, if_pos rfl, State.commitChoice_eq htx rfl, hwaited, hch]
        rfl
      · rw [hnew, hg, if_neg Bool.false_ne_true]
  · intro b
    refine ⟨execChoiceGrant_idle rfl, fun t c ht hw hc => ?_⟩
    have hgrant : exec (.choiceGrant dt slot) s = .next (if b.grantable t then b.commitHeld slot else b).grantTrees :=
      execChoiceGrant_judges rfl ht hc hw
    refine ⟨fun hg => ?_, fun hg hr => ?_, fun hg hr => ?_⟩
    · rw [hgrant, hg, if_neg Bool.false_ne_true]
    · rw [hgrant, hg, if_pos rfl, State.commitHeld_reply ht hc hr]
    · rw [hgrant, hg, if_pos rfl, State.commitHeld_choice ht hc hr, State.commitChoice_eq ht hc]

end Sys2Proof.Machine
end

section
/-! Rows (R249 to R253, R263, R264, R269, R331, R364): what LOGIT_BURST and ROW_SHAPED answer, case by case, and the statement on them. -/
namespace Sys2Proof.Machine
open Sys2Proof

-- Elaborated in turn: the check of the whole text has no memory for more elaboration threads.
set_option Elab.async false

/-! ### A burst at its step (R252, R253, R270) -/

section
variable {s : State} {facet : Nat} {q : Burst}

theorem State.burst_unknownStep (hx : s.step? q.step = none) : s.burst facet q = s.rowFault q.step q.slot q.node := by
  simp only [State.burst, hx]

section
variable {x : Step} (hx : s.step? q.step = some x)
include hx

theorem State.burst_unknownStream
    (h : x.desc.entries.find? (fun e => e.row && e.slot == q.slot) = none ∨ s.stream? q.slot = none) :
    s.burst facet q = s.rowFault q.step q.slot q.node := by
  cases he : x.desc.entries.find? (fun e => e.row && e.slot == q.slot) with
  | none => simp only [State.burst, hx, he]
  | some e =>
    have ht : s.stream? q.slot = none := h.resolve_left (by simp [he])
    simp only [State.burst, hx, he, ht]

variable {e : StepEntry} {t : Stream} (he : x.desc.entries.find? (fun e => e.row && e.slot == q.slot) = some e)
  (ht : s.stream? q.slot = some t)
include he ht

section
variable (hleft : (q.slot, q.node) ∉ x.rowsLeft)
include hleft

theorem State.burst_givenUp (hv : x.verdict ≠ .passed) (hd : (q.slot, q.node) ∈ x.discarded) : s.burst facet q = s.resultIn q.step := by
  simp [State.burst, hx, he, ht, hleft, hv, hd]

theorem State.burst_notExpected (h : x.verdict = .passed ∨ (q.slot, q.node) ∉ x.discarded) :
    s.burst facet q = s.rowFault q.step q.slot q.node := by
  rcases h with h | h <;> simp [State.burst, hx, he, ht, hleft, h]

end

variable (hleft : (q.slot, q.node) ∈ x.rowsLeft)
include hleft

theorem State.burst_continues {r : Row} (hr : s.row? q.step q.slot q.node = some r) :
    s.burst facet q = if s.burstFits t facet q r then s.takeBurst facet q t r else s.rowFault q.step q.slot q.node := by
  simp [State.burst, hx, he, ht, hleft, hr]

theorem State.burst_begins (hr : s.row? q.step q.slot q.node = none) {u : State} {r : Row} (hu : s.beginRow x e t q.node = (u, r)) :
    s.burst facet q = if u.burstFits t facet q r then u.takeBurst facet q t r else u.rowFault q.step q.slot q.node := by
  simp [State.burst, hx, he, ht, hleft, hr, hu]

end

end

/-! ### LOGIT_BURST (R250) -/

section
variable {s b : State} {dt facet : Nat} {q : Burst} (hb : s.elapse dt = b)
include hb

theorem execLogitBurst_idle (h : b.serving = false ∨ q.logits.length ≠ 1024) : execLogitBurst dt facet q s = .next b := by
  have hc : (b.serving && q.logits.length == 1024) = false := by
    rcases h with h | h <;> simp [h]
  simp [execLogitBurst, hb, hc]

theorem execLogitBurst_serves (hs : b.serving = true) (hl : q.logits.length = 1024) :
    execLogitBurst dt facet q s = .next (b.burst facet q) := by
  simp [execLogitBurst, hb, hs, hl]

end

/-! ### The cand record handed over (R263, R331) -/

/-- The cand record is built from the stream it is given, not from the table, so a change of a stream in the table leaves it. -/
theorem State.candOf_onStream (slot : Nat) (f : Stream → Stream) (s : State) (x : Step) (t : Stream) (r : Row) (sh : Shaped) (late : Bool) :
    (s.onStream slot f).candOf x t r sh late = s.candOf x t r sh late := rfl

theorem State.handOver_eq {s u v y : State} {x : Step} {t : Stream} {r : Row} {sh : Shaped} {late : Bool}
    (hu : u = s.onStream r.slot (fun t => { t with lat := t.lat.handed s.aon.time r.node }))
    (hlate : late = (match u.stream? r.slot with | some v => v.lat.lateStep | none => false))
    (hv : v = (u.wakeDomain 2).egressFor t.id.ring (some t.handle) (.cand (u.candOf x t r sh late)))
    (hy : y = ((((if r.parked then v else v.emit (.rowRelease r.step r.slot r.node)).onSch (fun g => { g with
      rows := rowsBut r.step r.slot r.node g.rows })).unpark r.step r.slot r.node).onStep r.step (fun x' => { x' with
      rowsLeft := x.rowsLeft.erase (r.slot, r.node) })).workDone 3 (.row r.step r.slot r.node)) :
    s.handOver x t r sh = if (x.rowsLeft.erase (r.slot, r.node)).any (fun p => p.1 == r.slot) then y.sweepSteps
      else (y.onStream r.slot (fun t => { t with state := .await, voided := false, replayed := x.replay })).sweepSteps := by
  rw [hu, State.candOf_onStream, ← hu] at hv
  have hlast : s.handOver x t r sh = (if !(x.rowsLeft.erase (r.slot, r.node)).any (fun p => p.1 == r.slot) then
      y.onStream r.slot (fun t => { t with state := .await, voided := false, replayed := x.replay }) else y).sweepSteps := by
    subst hy hv hlate hu
    rfl
  rw [hlast]
  cases (x.rowsLeft.erase (r.slot, r.node)).any (fun p => p.1 == r.slot) <;> rfl

/-! ### ROW_SHAPED (R263, R264, R364) -/

/-- Whether ROW_SHAPED of a row shapes it under a descriptor: it is expected and whole, the descriptor built, its facets work, and no earlier
node of its stream is left. -/
def State.mayShape (s : State) (x : Step) (t : Stream) (r : Row) (slot node : Nat) (d : Shutter) : Bool :=
  x.rowsLeft.contains (slot, node) && r.whole (s.panesFor t) && !notBuilt d && !r.facets.any s.facetFailed &&
    !x.rowsLeft.any (fun p => p.1 == slot && decide (p.2 < node))

theorem State.mayShape_iff {s : State} {x : Step} {t : Stream} {r : Row} {slot node : Nat} {d : Shutter} :
    s.mayShape x t r slot node d = true ↔ (slot, node) ∈ x.rowsLeft ∧ r.whole (s.panesFor t) = true ∧ notBuilt d = false ∧
      (∀ f ∈ r.facets, s.facetFailed f = false) ∧ ∀ p ∈ x.rowsLeft, p.1 = slot → node ≤ p.2 := by
  simp only [State.mayShape, Bool.and_eq_true, Bool.not_eq_true', Bool.not_eq_true, List.contains_iff_mem, List.any_eq_false, beq_iff_eq,
    decide_eq_true_eq, not_and, Nat.not_lt, and_assoc]

section
variable {s b : State} {dt step slot node : Nat} (hb : s.elapse dt = b)
include hb

theorem execRowShaped_unknown (h : b.step? step = none ∨ b.stream? slot = none ∨ b.row? step slot node = none) :
    execRowShaped dt step slot node s = .next b := by
  cases hx : b.step? step with
  | none => simp only [execRowShaped, hb, hx]
  | some x =>
    cases ht : b.stream? slot with
    | none => simp only [execRowShaped, hb, hx, ht]
    | some t =>
      have hr : b.row? step slot node = none := by simpa [hx, ht] using h
      simp only [execRowShaped, hb, hx, ht, hr]

variable {x : Step} {t : Stream} {r : Row} (hx : b.step? step = some x) (ht : b.stream? slot = some t) (hr : b.row? step slot node = some r)
  {d : Shutter} (hd : d = r.desc.getD (((t.nodeAt node).map (·.2)).getD {}))
include hx ht hr hd

theorem execRowShaped_eq :
    execRowShaped dt step slot node s = .next (if b.mayShape x t r slot node d then
      (b.handOver x t r (b.shapeRow t d (r.panes.map (·.2)))).onStream slot (fun t => { t with
        shaped := (t.shaped.filter (·.1 != node)) ++ [(node, b.resolved d)] }) else b) := by
  subst hd
  simp only [execRowShaped, hb, hx, ht, hr]
  rfl

theorem execRowShaped_early (h : ¬b.mayShape x t r slot node d = true) : execRowShaped dt step slot node s = .next b := by
  rw [execRowShaped_eq hb hx ht hr hd, if_neg h]

theorem execRowShaped_shapes (h : b.mayShape x t r slot node d = true) :
    execRowShaped dt step slot node s = .next ((b.handOver x t r (b.shapeRow t d (r.panes.map (·.2)))).onStream slot (fun t => { t with
      shaped := (t.shaped.filter (·.1 != node)) ++ [(node, b.resolved d)] })) := by
  rw [execRowShaped_eq hb hx ht hr hd, if_pos h]

end

/-! ### The statement on rows -/

/-- Settles O42: a burst by its step, its stream and its row (which of them fault their row, and which are only a result of the step: log 49), and
a shaped row by what it still waits for, its cand record with the latency record of R331. -/
theorem rowsTaken : Obligations.RowsTaken := by
  unfold Obligations.RowsTaken
  refine ⟨fun dt facet s q => ?_, fun dt step slot node s => ?_⟩
  · intro b
    refine ⟨execLogitBurst_idle rfl, fun hs hl => ?_⟩
    have hrun (u : State) (h : b.burst facet q = u) : exec (.logitBurst dt facet q) s = .next u := h ▸ execLogitBurst_serves rfl hs hl
    refine ⟨fun hx => hrun _ (State.burst_unknownStep hx), fun x hx => ⟨fun h => ?_, fun e t he ht => ?_⟩⟩
    · exact hrun _ (State.burst_unknownStream hx h)
    have hfits (u : State) (r : Row)
        (h : b.burst facet q = if u.burstFits t facet q r then u.takeBurst facet q t r else u.rowFault q.step q.slot q.node) :
        (u.burstFits t facet q r = true → exec (.logitBurst dt facet q) s = .next (u.takeBurst facet q t r)) ∧
        (u.burstFits t facet q r = false → exec (.logitBurst dt facet q) s = .next (u.rowFault q.step q.slot q.node)) :=
      ⟨fun hf => hrun _ (by rw [h, if_pos hf]), fun hf => hrun _ (by rw [h, hf, if_neg Bool.false_ne_true])⟩
    refine ⟨fun hleft => ⟨fun hv hd => ?_, fun h => ?_⟩, fun hleft => ⟨fun r hr => ?_, fun hr u r hu => ?_⟩⟩
    · exact hrun _ (State.burst_givenUp hx he ht hleft hv hd)
    · exact hrun _ (State.burst_notExpected hx he ht hleft h)
    · exact hfits b r (State.burst_continues hx he ht hleft hr)
    · exact hfits u r (State.burst_begins hx he ht hleft hr hu)
  · intro b
    refine ⟨execRowShaped_unknown rfl, fun x t r hx ht hr => ?_⟩
    intro d due
    refine ⟨fun hdue => execRowShaped_early rfl hx ht hr rfl (mt State.mayShape_iff.mp hdue), ?_⟩
    rintro hdue sh rfl u hu late hlate v hv y hy
    rw [← State.handOver_eq hu hlate hv hy]
    exact execRowShaped_shapes rfl hx ht hr rfl (State.mayShape_iff.mpr hdue)

end Sys2Proof.Machine
end

section
/-! Beryl (chapter 09): what its tests say, and the order of the winner, on which the statements on searches, updates and replacements rest. -/
namespace Sys2Proof.Machine
open Sys2Proof

-- Elaborated in turn: the check of the whole text has no memory for more elaboration threads.
set_option Elab.async false

theorem State.arraysUp_of_run {s : State} (h : s.start.phase = .run) : s.arraysUp = true := by simp [State.arraysUp, h]

theorem State.arraysUp_of_not_run {s : State} (h : s.start.phase ≠ .run) : s.arraysUp = false := by simp [State.arraysUp, h]

theorem State.queuedIn_iff {s : State} {n : Nat} : s.queuedIn n = true ↔ ∃ u ∈ s.ber.heldUpdate, u.bank = n := by simp [State.queuedIn]

/-- What a bank's row port and its queue say together of an update that arrives. -/
theorem State.busyOrQueued_iff {s : State} {n : Nat} :
    (s.bankBusy n || s.queuedIn n) = true ↔ s.bankBusy n = true ∨ ∃ u ∈ s.ber.heldUpdate, u.bank = n := by
  rw [Bool.or_eq_true, State.queuedIn_iff]

theorem bits_lt (v msb lsb : Nat) : bits v msb lsb < 2 ^ (msb + 1 - lsb) := Nat.mod_lt _ (Nat.two_pow_pos _)

theorem bitList_pairwise_lt (width m : Nat) : (bitList width m).Pairwise (· < ·) := List.pairwise_lt_range.filter _

/-! ### The least element of a list -/

section
variable {α : Type} {f : α → Nat}

theorem minBy_eq_none_iff {l : List α} : minBy f l = none ↔ l = [] := by
  cases l with
  | nil => simp [minBy]
  | cons x xs =>
    simp only [minBy, reduceCtorEq, iff_false]
    split
    · simp
    · split <;> simp

/-- In a list ordered by R, the least element is the first of equals. -/
theorem minBy_first {R : α → α → Prop} {l : List α} {x : α} (hR : l.Pairwise R) (h : minBy f l = some x) :
    x ∈ l ∧ ∀ y ∈ l, f x < f y ∨ f x = f y ∧ (x = y ∨ R x y) := by
  induction l generalizing x with
  | nil => simp [minBy] at h
  | cons a l ih =>
    obtain ⟨ha, hl⟩ := List.pairwise_cons.mp hR
    cases hm : minBy f l with
    | none =>
      obtain rfl := minBy_eq_none_iff.mp hm
      obtain rfl : a = x := by simpa [minBy] using h
      simp
    | some z =>
      obtain ⟨hz, hleast⟩ := ih hl hm
      by_cases hlt : f z < f a
      · obtain rfl : z = x := by simpa [minBy, hm, hlt] using h
        exact ⟨List.mem_cons_of_mem _ hz, List.forall_mem_cons.mpr ⟨.inl hlt, hleast⟩⟩
      · obtain rfl : a = x := by simpa [minBy, hm, hlt] using h
        refine ⟨List.mem_cons_self, List.forall_mem_cons.mpr ⟨.inr ⟨rfl, .inl rfl⟩, fun y hy => ?_⟩⟩
        have hzy : f z ≤ f y := (hleast y hy).elim Nat.le_of_lt (fun he => Nat.le_of_eq he.1)
        exact (Nat.lt_or_eq_of_le (Nat.le_trans (Nat.le_of_not_lt hlt) hzy)).imp_right (fun he => ⟨he, .inr (ha y hy)⟩)

end

end Sys2Proof.Machine
end

section
/-! Beryl's searches (R281 to R289, R298, R299, R492): how the winner is found and verified, what BERYL_SEARCH and the debug commands answer, case
by case, and the statement on them. -/
namespace Sys2Proof.Machine
open Sys2Proof

-- Elaborated in turn: the check of the whole text has no memory for more elaboration threads.
set_option Elab.async false

/-! ### BERYL_SEARCH (R298, R299) -/

/-- A search waits for a reload of a selected bank, and on a channel of the handles across a three-step window. -/
theorem State.searchWaits_iff {s : State} {req : SearchReq} : s.searchWaits req = true ↔
    ∃ n ∈ bitList 32 req.select, n ∈ s.ber.reloading ∨
      ((16 ≤ req.channel ∧ req.channel < 20 ∨ 24 ≤ req.channel ∧ req.channel < 28) ∧ ∃ w ∈ s.ber.windows, w.bank = n) := by
  simp [State.searchWaits]

section
variable {s b t : State} {dt : Nat} {req : SearchReq} {found : SearchFound} (hb : s.elapse dt = b)
include hb

theorem execBerylSearch_idle (h : b.start.phase ≠ .run) : execBerylSearch dt ⟨req, found⟩ s = .next b := by
  simp [execBerylSearch, hb, State.arraysUp_of_not_run h]

variable (h : b.start.phase = .run) (ht : t = b.drainBeryl.upset found.upsets)
include h ht

theorem execBerylSearch_waits (hw : t.searchWaits req = true) : execBerylSearch dt ⟨req, found⟩ s =
    .next (t.onBer (fun g => { g with heldSearch := g.heldSearch ++ [⟨req, false⟩] })) := by
  subst ht
  simp [execBerylSearch, hb, State.arraysUp_of_run h, hw]

theorem execBerylSearch_searches (hw : t.searchWaits req = false) : execBerylSearch dt ⟨req, found⟩ s =
    .next (t.search ⟨req, false⟩ false found.badWord found.stuck).drainBeryl := by
  subst ht
  simp [execBerylSearch, hb, State.arraysUp_of_run h, hw]

end

/-! ### A search that holds its slots (R285 to R289) -/

/-- Whether a bank's use is one of the channel's and its width is the key's (R281, R283). -/
def State.bankFits (s : State) (req : SearchReq) (n : Nat) : Bool :=
  (channelUses req.channel).contains (s.bankUse n) && s.bankWidth n == req.kw

theorem State.searchBanks_eq (s : State) (req : SearchReq) : s.searchBanks req =
    ((bitList 32 req.select).filter (s.bankFits req), (bitList 32 req.select).filter (fun n => !s.bankFits req n)) :=
  List.partition_eq_filter_filter

/-- No row of the winner is the one whose shadow word is uncorrectable. -/
theorem badWord_filtered {bad : Option Nat} {w : Nat} (h : ∀ u, bad = some u → w ≤ u) : bad.filter (fun u => decide (u < w)) = none :=
  Option.filter_eq_none_iff.mpr (fun u hu => by simpa using h u hu)

section
variable {b c : State} {q : HeldReq} {held stuck : Bool} {bad : Option Nat} {banks out : List Nat}
  (hs : b.searchBanks q.req = (banks, out))
  (hc : c = (out.foldl (fun s n => s.logicalCount n 3 1) b).useSlots banks q.req.channel 1)
include hs hc

theorem State.search_miss (h : (c.resolve q.req banks).1 = none) :
    b.search q held bad stuck = c.putResult q.req.channel (c.resultOf none false q.retried held) := by
  simp only [State.search, hs, ← hc, h, State.answer]

section
variable {n e : Nat} {multi : Bool} (hw : c.resolve q.req banks = (some (n, e), multi))
include hw

/-! #### An uncorrectable shadow word (R289) -/

section
variable {u : Nat} (hbad : bad = some u) (hu : u < c.bankWidth n)
include hbad hu

theorem State.search_repairsShadow {p : Nat} (hp : c.physical n = some p) (hv : c.verifiedBut q.req n e u = true) {d : State}
    (hd : d = (c.onBer (fun g => { g with
      shadow := rowSet g.shadow n (c.bankWidth n * e + u) (rowAt c.ber.rows p (c.bankWidth n * e + u)) })).logicalCount n 6 1) :
    b.search q held bad stuck = d.putResult q.req.channel (d.resultOf (some (n, e)) multi q.retried held) := by
  subst hd hbad
  simp only [State.search, hs, ← hc, hw, Option.filter_some, decide_eq_true hu, if_true, hv, hp, State.answer]

theorem State.search_distrusts (hv : c.verifiedBut q.req n e u = false) {d : State} (hd : d = (c.logicalCount n 4 1).distrust n e) :
    b.search q held bad stuck = d.putResult q.req.channel (d.resultOf none false q.retried held) := by
  subst hd hbad
  simp only [State.search, hs, ← hc, hw, Option.filter_some, decide_eq_true hu, if_true, hv, Bool.false_eq_true, if_false, State.answer]

end

/-! #### Every shadow word readable (R288) -/

section
variable (hbad : ∀ u, bad = some u → c.bankWidth n ≤ u)
include hbad

theorem State.search_hit (hv : c.verified q.req n e = true) :
    b.search q held bad stuck = c.putResult q.req.channel (c.resultOf (some (n, e)) multi q.retried held) := by
  simp only [State.search, hs, ← hc, hw, badWord_filtered hbad, hv, if_true, State.answer]

section
variable (hv : c.verified q.req n e = false) {d : State}
  (hd : d = ((if stuck = true then c.logicalCount n 4 1 else (c.logicalCount n 4 1).rewriteEntry n e).useSlots banks q.req.channel 1))
include hv hd

theorem State.search_falseHit_miss (h : (d.resolve q.req banks).1 = none) :
    b.search q held bad stuck = d.putResult q.req.channel (d.resultOf none false true held) := by
  simp only [State.search, hs, ← hc, hw, badWord_filtered hbad, hv, Bool.false_eq_true, if_false, ← hd, h, State.answer]

variable {m f : Nat} {multi2 : Bool} (hw2 : d.resolve q.req banks = (some (m, f), multi2))
include hw2

theorem State.search_falseHit_hit (h : d.verified q.req m f = true) :
    b.search q held bad stuck = d.putResult q.req.channel (d.resultOf (some (m, f)) multi2 true held) := by
  simp only [State.search, hs, ← hc, hw, badWord_filtered hbad, hv, Bool.false_eq_true, if_false, ← hd, hw2, h, if_true, State.answer]

theorem State.search_falseHit_again (h : d.verified q.req m f = false) (hm : m = n) (hf : f = e) {x : Nat}
    (hx : (d.logicalCount m 4 1).physical n = some x) :
    b.search q held bad stuck = ((d.logicalCount m 4 1).onBer (fun g => { g with
      heldSearch := g.heldSearch ++ [⟨q.req, true⟩] })).failBank x := by
  subst hm hf
  have hx' : ((d.logicalCount m 4 1).onBer (fun g => { g with heldSearch := g.heldSearch ++ [⟨q.req, true⟩] })).physical m = some x := hx
  simp only [State.search, hs, ← hc, hw, badWord_filtered hbad, hv, Bool.false_eq_true, if_false, ← hd, hw2, h, beq_self_eq_true,
    Bool.and_self, if_true, hx']

end
end
end
end

/-! ### The winner (R284, R285, R293) -/

section
variable {s : State} {req : SearchReq} {banks : List Nat}

/-- The PRIO of an entry as the array holds it. -/
def State.headPrio (s : State) (n e : Nat) : Nat :=
  ((s.physical n).map (fun p => bits (rowAt s.ber.rows p (s.bankWidth n * e)) 111 96)).getD 0

theorem State.headPrio_lt (s : State) (n e : Nat) : s.headPrio n e < 65536 := by
  unfold State.headPrio
  cases s.physical n with
  | none => simp
  | some p => exact bits_lt _ 111 96

/-- The lowest matching entry of each bank. -/
def State.wins (s : State) (req : SearchReq) (banks : List Nat) : List (Nat × Nat) :=
  banks.filterMap (fun n => (s.matching n req).head?.map (fun e => (n, e)))

theorem State.mem_wins_iff {n e : Nat} : (n, e) ∈ s.wins req banks ↔ n ∈ banks ∧ (s.matching n req).head? = some e := by
  simp [State.wins]

theorem State.wins_eq_nil_iff : s.wins req banks = [] ↔ ∀ n ∈ banks, s.matching n req = [] := by
  simp [State.wins, List.filterMap_eq_nil_iff]

theorem State.wins_pairwise (h : banks.Pairwise (· < ·)) : (s.wins req banks).Pairwise (fun x y => x.1 < y.1) := by
  refine List.Pairwise.filterMap _ (fun n m hnm x hx y hy => ?_) h
  obtain ⟨e, -, rfl⟩ := Option.map_eq_some_iff.mp hx
  obtain ⟨f, -, rfl⟩ := Option.map_eq_some_iff.mp hy
  exact hnm

theorem State.resolve_eq : s.resolve req banks = (minBy (fun x => 65536 - s.headPrio x.1 x.2) (s.wins req banks),
    decide (1 < (banks.map (fun n => (s.matching n req).length)).sum)) := by
  simp only [State.resolve, List.filterMap_map, List.map_map, ← List.sum_eq_foldl]
  refine Prod.ext (congrArg₂ minBy (funext fun x => ?_) rfl) rfl
  unfold State.headPrio
  cases s.physical x.1 <;> rfl

theorem State.resolve_fst_eq_none_iff : (s.resolve req banks).1 = none ↔ ∀ n ∈ banks, s.matching n req = [] := by
  rw [State.resolve_eq, ← State.wins_eq_nil_iff]
  exact minBy_eq_none_iff

/-- MULTI says that more than one entry matched. -/
theorem State.resolve_snd_iff : (s.resolve req banks).2 = true ↔ 2 ≤ (banks.map (fun n => (s.matching n req).length)).sum := by
  rw [State.resolve_eq]
  exact decide_eq_true_iff

theorem State.resolve_miss (h : ∀ n ∈ banks, s.matching n req = []) : s.resolve req banks = (none, false) := by
  have hsum : (banks.map (fun n => (s.matching n req).length)).sum = 0 := List.sum_eq_zero (by simpa using h)
  refine Prod.ext (State.resolve_fst_eq_none_iff.mpr h) (Bool.eq_false_iff.mpr (fun hm => ?_))
  have := State.resolve_snd_iff.mp hm
  omega

/-- The winner is the lowest matching entry of its bank; the others have less PRIO, or as much in a higher bank. -/
theorem State.resolve_wins (hb : banks.Pairwise (· < ·)) {n e : Nat} (h : (s.resolve req banks).1 = some (n, e)) :
    n ∈ banks ∧ (s.matching n req).head? = some e ∧
      ∀ m ∈ banks, ∀ f, (s.matching m req).head? = some f →
        s.headPrio m f < s.headPrio n e ∨ s.headPrio m f = s.headPrio n e ∧ n ≤ m := by
  rw [State.resolve_eq] at h
  obtain ⟨hmem, hfirst⟩ := minBy_first (State.wins_pairwise hb) h
  obtain ⟨hn, he⟩ := State.mem_wins_iff.mp hmem
  refine ⟨hn, he, fun m hm f hf => ?_⟩
  have hlt := s.headPrio_lt m f
  have hlt' := s.headPrio_lt n e
  rcases hfirst (m, f) (State.mem_wins_iff.mpr ⟨hm, hf⟩) with hless | ⟨heq, hsame | hbank⟩
  · exact .inl (by simp only at hless; omega)
  · obtain ⟨rfl, rfl⟩ := Prod.mk.inj hsame
    exact .inr ⟨rfl, Nat.le_refl _⟩
  · exact .inr ⟨by simp only at heq; omega, Nat.le_of_lt hbank⟩

/-- A matching entry is not the excluded one (R293), and its array rows match (R284). -/
theorem State.mem_matching {n p e : Nat} (hp : s.physical n = some p) (he : e ∈ s.matching n req) :
    (n, e) ∉ s.ber.excluded ∧ matchesRows (fun u => rowAt s.ber.rows p (s.bankWidth n * e + u)) req = true := by
  simp only [State.matching, hp, List.mem_filter, Bool.and_eq_true] at he
  simpa using he.2

end

/-! ### The debug commands (R492) -/

section
variable {s b : State} {dt : Nat} (hb : (s.elapse dt).wakeCause = b)
include hb

theorem execCamDbg_ignored (h : b.isolated = true ∨ b.ber.dbgBusy = true) :
    execCamDbgSearch dt s = .next b ∧ execCamDbgReadRow dt s = .next b := by
  have h' : (b.isolated || b.ber.dbgBusy) = true := by simpa using h
  simp only [execCamDbgSearch, execCamDbgReadRow, hb, State.dbgSearch, State.dbgReadRow, h', if_true, and_self]

variable (hi : b.isolated = false) (hd : b.ber.dbgBusy = false)
include hi hd

theorem execCamDbgSearch_waits (h : b.searchWaits b.ber.dbgReq = true) : execCamDbgSearch dt s = .next (b.onBer (fun g => { g with
    dbgBusy := true, dbgDone := false, heldSearch := g.heldSearch ++ [⟨b.ber.dbgReq, false⟩] })) := by
  simp [execCamDbgSearch, hb, State.dbgSearch, hi, hd, h]

theorem execCamDbgSearch_searches (h : b.searchWaits b.ber.dbgReq = false) :
    execCamDbgSearch dt s = .next (b.search ⟨b.ber.dbgReq, false⟩ false none false) := by
  simp [execCamDbgSearch, hb, State.dbgSearch, hi, hd, h]

variable {bank row : Nat} (hbank : bank = bits b.ber.dbgRowSel.toNat 21 16)
include hbank

theorem execCamDbgReadRow_waits {n : Nat} (hn : b.logical bank = some n) (h : b.bankBusy n = true) :
    execCamDbgReadRow dt s = .next (b.onBer (fun g => { g with dbgBusy := true, dbgDone := false, dbgWaitRow := true })) := by
  subst hbank
  simp [execCamDbgReadRow, hb, State.dbgReadRow, hi, hd, State.portBusy, hn, h]

theorem execCamDbgReadRow_reads (hrow : row = bits b.ber.dbgRowSel.toNat 12 0) {shadow : Nat}
    (h : ∀ n, b.logical bank = some n → b.bankBusy n = false ∧ shadow = b.shadowRow n row) (h0 : b.logical bank = none → shadow = 0) :
    execCamDbgReadRow dt s = .next (b.onBer (fun g => { g with
      dbgBusy := false, dbgWaitRow := false,
      dbgDone := true, dbgRow := BitVec.ofNat 128 (rowAt g.rows bank row), dbgShadow := BitVec.ofNat 128 shadow })) := by
  subst hbank hrow
  cases hn : b.logical (bits b.ber.dbgRowSel.toNat 21 16) with
  | none => simp [execCamDbgReadRow, hb, State.dbgReadRow, hi, hd, State.portBusy, State.readRowNow, hn, h0 hn]
  | some n =>
    obtain ⟨hbusy, rfl⟩ := h n hn
    simp [execCamDbgReadRow, hb, State.dbgReadRow, hi, hd, State.portBusy, State.readRowNow, hn, hbusy]

end

/-! ### The statement on searches -/

/-- Settles O53: BERYL_SEARCH by whether it waits, a search by its winner and the winner's verification, the winner by PRIO and bank, and the
debug commands (nothing outside RUN: log 118; carried out with the write of the register: log 106; an entry restored at once: log 116). -/
theorem berylSearches : Obligations.BerylSearches := by
  unfold Obligations.BerylSearches
  refine ⟨fun dt req found s => ?_, ?_, ?_, fun dt s => ?_⟩
  · intro b
    refine ⟨execBerylSearch_idle rfl, fun hrun t ht wait hwait => ⟨fun h => ?_, fun h => ?_⟩⟩
    · exact execBerylSearch_waits rfl hrun ht (State.searchWaits_iff.mpr (hwait.mp h))
    · exact execBerylSearch_searches rfl hrun ht (Bool.eq_false_iff.mpr (h ∘ hwait.mpr ∘ State.searchWaits_iff.mp))
  · rintro b q held stuck bad fits rfl banks rfl c hc
    have hs := b.searchBanks_eq q.req
    refine ⟨(bitList_pairwise_lt ..).filter _, State.search_miss hs hc, fun n e multi hw => ⟨fun u p hbad hu hp => ⟨fun hv d hd => ?_,
      fun hv d hd => ?_⟩, fun hbad => ⟨fun hv => ?_, fun hv d hd => ⟨fun h => ?_, fun m f multi2 hw2 => ⟨fun h => ?_,
      fun h hm hf x hx => ?_⟩⟩⟩⟩⟩
    · exact State.search_repairsShadow hs hc hw hbad hu hp hv hd
    · exact State.search_distrusts hs hc hw hbad hu hv hd
    · exact State.search_hit hs hc hw hbad hv
    · exact State.search_falseHit_miss hs hc hw hbad hv hd h
    · exact State.search_falseHit_hit hs hc hw hbad hv hd hw2 h
    · exact State.search_falseHit_again hs hc hw hbad hv hd hw2 h hm hf hx
  · rintro s req banks prio hbanks rfl
    exact ⟨State.resolve_miss, State.resolve_fst_eq_none_iff.mp, fun n e h => State.resolve_wins hbanks h, State.resolve_snd_iff,
      fun n p e => State.mem_matching⟩
  · intro b
    refine ⟨execCamDbg_ignored rfl, fun hi hd => ⟨execCamDbgSearch_waits rfl hi hd, execCamDbgSearch_searches rfl hi hd,
      fun t r => ⟨rfl, rfl, rfl⟩, fun bank row hbank hrow => ⟨fun n => execCamDbgReadRow_waits rfl hi hd hbank,
      fun shadow => execCamDbgReadRow_reads rfl hi hd hbank hrow⟩⟩⟩

end Sys2Proof.Machine
end

section
/-! Beryl's updates (R281, R291 to R296, R302): where an insert goes, what an update, a window's step and a move do, what waits and goes on, case
by case, and the statement on them. -/
namespace Sys2Proof.Machine
open Sys2Proof

-- Elaborated in turn: the check of the whole text has no memory for more elaboration threads.
set_option Elab.async false

/-! ### Free indices (R291) -/

/-- Whether one of these entries stands at an index. -/
def takenAt (es : List (Nat × Nat)) (i : Nat) : Prop := ∃ e ∈ es, e.1 = i

section
variable {es : List (Nat × Nat)} {i j k : Nat}

theorem any_takenAt : es.any (fun e => e.1 == i) = true ↔ takenAt es i := by simp [takenAt]

theorem freeAbove_of_taken (h : takenAt es i) : freeAbove es (k + 1) i = freeAbove es k (i + 1) := by
  simp only [freeAbove, any_takenAt.mpr h, if_true]

theorem freeAbove_of_free (h : ¬takenAt es i) : freeAbove es (k + 1) i = i := by
  simp only [freeAbove, mt any_takenAt.mp h, Bool.false_eq_true, if_false]

theorem le_freeAbove : i ≤ freeAbove es k i := by
  induction k generalizing i with
  | zero => exact Nat.le_refl i
  | succ k ih =>
    by_cases h : takenAt es i
    · rw [freeAbove_of_taken h]
      exact Nat.le_of_succ_le ih
    · rw [freeAbove_of_free h]

theorem takenAt_below_freeAbove (hij : i ≤ j) (hj : j < freeAbove es k i) : takenAt es j := by
  induction k generalizing i with
  | zero => exact absurd hj (Nat.not_lt.mpr hij)
  | succ k ih =>
    by_cases h : takenAt es i
    · rw [freeAbove_of_taken h] at hj
      rcases Nat.eq_or_lt_of_le hij with rfl | hlt
      · exact h
      · exact ih hlt hj
    · rw [freeAbove_of_free h] at hj
      exact absurd hj (Nat.not_lt.mpr hij)

/-- Only a search that runs out of fuel ends at a taken index. -/
theorem freeAbove_eq_add (h : takenAt es (freeAbove es k i)) : freeAbove es k i = i + k := by
  induction k generalizing i with
  | zero => rfl
  | succ k ih =>
    by_cases hi : takenAt es i
    · rw [freeAbove_of_taken hi] at h ⊢
      rw [ih h]
      omega
    · rw [freeAbove_of_free hi] at h
      exact absurd h hi

/-- With more fuel than there are entries the search ends at a free index: the indices it passed are distinct entries. -/
theorem freeAbove_free (hk : es.length < k) : ¬takenAt es (freeAbove es k i) := by
  intro h
  have hrun : List.range' i k ⊆ es.map (·.1) := by
    intro j hj
    obtain ⟨hij, hjk⟩ := List.mem_range'_1.mp hj
    rw [← freeAbove_eq_add h] at hjk
    exact List.mem_map.mpr (takenAt_below_freeAbove hij hjk)
  have hlen := (List.subperm_of_subset List.nodup_range' hrun).length_le
  simp only [List.length_range', List.length_map] at hlen
  omega

theorem freeBelow_none (h : freeBelow es i = none) : ∀ j < i, takenAt es j := by
  induction i with
  | zero => exact fun j hj => absurd hj (Nat.not_lt_zero j)
  | succ i ih =>
    by_cases hi : es.any (fun e => e.1 == i) = true
    · simp only [freeBelow, hi, if_true] at h
      intro j hj
      rcases Nat.lt_succ_iff_lt_or_eq.mp hj with hlt | rfl
      · exact ih h j hlt
      · exact any_takenAt.mp hi
    · simp [freeBelow, hi] at h

theorem freeBelow_some {g : Nat} (h : freeBelow es i = some g) : g < i ∧ ¬takenAt es g ∧ ∀ j, g < j → j < i → takenAt es j := by
  induction i with
  | zero => exact absurd h (by simp [freeBelow])
  | succ i ih =>
    by_cases hi : es.any (fun e => e.1 == i) = true
    · simp only [freeBelow, hi, if_true] at h
      obtain ⟨hgi, hfree, hrun⟩ := ih h
      refine ⟨Nat.lt_succ_of_lt hgi, hfree, fun j hgj hj => ?_⟩
      rcases Nat.lt_succ_iff_lt_or_eq.mp hj with hlt | rfl
      · exact hrun j hgj hlt
      · exact any_takenAt.mp hi
    · obtain rfl : i = g := by simpa only [freeBelow, hi, Bool.false_eq_true, if_false, Option.some.injEq] using h
      exact ⟨Nat.lt_succ_self i, mt any_takenAt.mpr hi, fun j hij hj => absurd hij (Nat.not_lt.mpr (Nat.le_of_lt_succ hj))⟩

end

/-! ### The place of an insert (R291) -/

/-- What a place is: the free target index, or the end of the run of entries that moves by one into the free index beyond it. -/
inductive PlaceIs (es : List (Nat × Nat)) (c t : Nat) : Place → Prop
  | target (hc : t < c) (hfree : ¬takenAt es t) : PlaceIs es c t ⟨t, none⟩
  | down (f : Nat) (htf : t < f) (hc : f < c) (hfree : ¬takenAt es f) (hrun : ∀ i, t ≤ i → i < f → takenAt es i) :
      PlaceIs es c t ⟨t, some (t, f - 1, true)⟩
  | up (g : Nat) (hgt : g < t) (hfree : ¬takenAt es g) (hrun : ∀ i, g < i → i < t → takenAt es i) :
      PlaceIs es c t ⟨t - 1, some (g + 1, t - 1, false)⟩

section
variable {es : List (Nat × Nat)} {c p : Nat}

/-- Without a free target index, the run that moves down is one of entries, up to a free index of the bank. -/
theorem placeIs_down {t f : Nat} (hf : f = freeAbove es (es.length + 1) t) (hfull : t < c → takenAt es t) (hc : f < c) :
    PlaceIs es c t ⟨t, some (t, f - 1, true)⟩ := by
  subst hf
  have hfree : ¬takenAt es (freeAbove es (es.length + 1) t) := freeAbove_free (Nat.lt_succ_self _)
  have hle : t ≤ freeAbove es (es.length + 1) t := le_freeAbove
  refine .down _ (Nat.lt_of_le_of_ne hle (fun he => hfree ?_)) hc hfree (fun i => takenAt_below_freeAbove)
  rw [← he] at hc ⊢
  exact hfull hc

/-- An insert has a place, or every entry of the bank is taken. -/
theorem placeOf_cases : (placeOf es c p = none ∧ ∀ i < c, takenAt es i) ∨
    ∃ place, placeOf es c p = some place ∧ PlaceIs es c (targetIndex es p) place := by
  generalize ht : targetIndex es p = t
  by_cases htarget : t < c ∧ ¬takenAt es t
  · refine .inr ⟨⟨t, none⟩, ?_, .target htarget.1 htarget.2⟩
    have hfree : es.any (fun e => e.1 == t) = false := Bool.eq_false_iff.mpr (mt any_takenAt.mp htarget.2)
    simp [placeOf, ht, htarget.1, hfree]
  · have hfull : t < c → takenAt es t := fun hc => Classical.not_not.mp (fun h => htarget ⟨hc, h⟩)
    have hcond : (t < c && !es.any (fun e => e.1 == t)) = false := by
      simpa [takenAt] using hfull
    generalize hf : freeAbove es (es.length + 1) t = f
    have hdown (hc : f < c) : PlaceIs es c t ⟨t, some (t, f - 1, true)⟩ := placeIs_down hf.symm hfull hc
    cases hg : freeBelow es t with
    | none =>
      by_cases hc : f < c
      · exact .inr ⟨_, by simp [placeOf, ht, hcond, hf, hg, hc], hdown hc⟩
      · refine .inl ⟨by simp [placeOf, ht, hcond, hf, hg, hc], fun i hi => ?_⟩
        rcases Nat.lt_or_ge i t with hit | hti
        · exact freeBelow_none hg i hit
        · exact takenAt_below_freeAbove (k := es.length + 1) hti (by omega)
    | some g =>
      obtain ⟨hgt, hfree, hrun⟩ := freeBelow_some hg
      by_cases hc : f < c ∧ f - t ≤ t - 1 - g
      · exact .inr ⟨_, by simp [placeOf, ht, hcond, hf, hg, hc], hdown hc.1⟩
      · refine .inr ⟨⟨t - 1, some (g + 1, t - 1, false)⟩, ?_, .up g hgt hfree hrun⟩
        have hc' : (f < c && decide (f - t ≤ t - 1 - g)) = false := by simpa using hc
        simp only [placeOf, ht, hcond, hf, hg, hc', Bool.false_eq_true, if_false]

theorem placeOf_none (h : placeOf es c p = none) : ∀ i < c, takenAt es i := by
  rcases placeOf_cases (es := es) (c := c) (p := p) with ⟨-, hfull⟩ | ⟨place, hsome, -⟩
  · exact hfull
  · rw [h] at hsome
    cases hsome

theorem placeOf_some {place : Place} (h : placeOf es c p = some place) : PlaceIs es c (targetIndex es p) place := by
  rcases placeOf_cases (es := es) (c := c) (p := p) with ⟨hnone, -⟩ | ⟨place', hsome, hplace⟩
  · rw [h] at hnone
    cases hnone
  · rw [h] at hsome
    cases hsome
    exact hplace

theorem placeOf_target {hole : Nat} (h : placeOf es c p = some ⟨hole, none⟩) :
    hole = targetIndex es p ∧ hole < c ∧ ¬takenAt es hole := by
  cases placeOf_some h with
  | target hc hfree => exact ⟨rfl, hc, hfree⟩

theorem placeOf_down {hole lo hi : Nat} (h : placeOf es c p = some ⟨hole, some (lo, hi, true)⟩) : hole = targetIndex es p ∧ lo = hole ∧
    lo ≤ hi ∧ hi + 1 < c ∧ ¬takenAt es (hi + 1) ∧ ∀ i, lo ≤ i → i ≤ hi → takenAt es i := by
  cases placeOf_some h with
  | down f htf hc hfree hrun =>
    rw [Nat.sub_add_cancel (Nat.one_le_of_lt htf)]
    exact ⟨rfl, rfl, Nat.le_sub_one_of_lt htf, hc, hfree, fun i hlo hhi => hrun i hlo (by omega)⟩

theorem placeOf_up {hole lo hi : Nat} (h : placeOf es c p = some ⟨hole, some (lo, hi, false)⟩) : hole + 1 = targetIndex es p ∧ hi = hole ∧
    1 ≤ lo ∧ ¬takenAt es (lo - 1) ∧ ∀ i, lo ≤ i → i ≤ hi → takenAt es i := by
  cases placeOf_some h with
  | up g hgt hfree hrun =>
    exact ⟨by omega, rfl, Nat.succ_pos g, hfree, fun i hlo hhi => hrun i hlo (by omega)⟩

end

/-! ### An update of a free bank (R281, R291 to R297) -/

section
variable {b : State} {c n : Nat}

section
variable {key : List Nat} {tag i : Nat} (hi : b.findEntry n key tag = some i)
include hi

theorem State.update_remove : b.update c n (.remove key tag) = (b.clearEntry n i).took c n := by
  simp only [State.update, hi]

theorem State.update_change {e : BerylEntry} (hp : e.prio = (b.entryAt n i).prio) :
    b.update c n (.change key tag e) = b.writeEntry n i e := by
  simp only [State.update, hi, hp, beq_self_eq_true, if_true]

theorem State.openWindow_change {e : BerylEntry} (hp : e.prio = (b.entryAt n i).prio) :
    b.openWindow c n (.change key tag e) = (b.clearEntry n i).onBer (fun g => { g with
      windows := g.windows ++ [⟨n, c, .change key tag e, i, e, false⟩] }) := by
  simp only [State.openWindow, hi, hp, beq_self_eq_true, if_true]

end

section
variable {e0 e : BerylEntry} (he : e = if c < 30 then { e0 with matchEn := true } else e0)
include he

theorem State.update_insert_full (h : placeOf (b.validEntries n) (b.capacity n) e.prio = none) : b.update c n (.insert e0) = b := by
  simp only [State.update, ← he, h]

theorem State.update_insert_target {hole : Nat} (h : placeOf (b.validEntries n) (b.capacity n) e.prio = some ⟨hole, none⟩) :
    b.update c n (.insert e0) = (b.writeEntry n hole e).took c n := by
  simp only [State.update, ← he, h]

theorem State.update_insert_move {hole lo hi : Nat} {d : Bool}
    (h : placeOf (b.validEntries n) (b.capacity n) e.prio = some ⟨hole, some (lo, hi, d)⟩) :
    b.update c n (.insert e0) = b.onBer (fun g => { g with
      moves := g.moves ++ [{ bank := n, lo := lo, hi := hi, down := d, hole := hole, channel := c, entry := e }]
      excluded := g.excluded ++ [(n, if d then hi + 1 else lo - 1)] }) := by
  simp only [State.update, ← he, h]
  rfl

theorem State.openWindow_insert {hole : Nat} (h : placeOf (b.validEntries n) (b.capacity n) e.prio = some ⟨hole, none⟩) :
    b.openWindow c n (.insert e0) = (b.clearEntry n hole).onBer (fun g => { g with
      windows := g.windows ++ [⟨n, c, .insert e0, hole, e0, false⟩] }) := by
  have hprio : e.prio = e0.prio := by
    subst he
    split <;> rfl
  rw [hprio] at h
  simp only [State.openWindow, h]

end

/-! ### The steps of a window (R296) -/

section
variable {w : StepWin} (hn : w.bank = n)
include hn

theorem State.stepWindow_writes (h : w.wrote = false) : b.stepWindow w =
    ((List.range (b.bankWidth n)).reverse.foldl
      (fun t u => t.writeRow n (b.bankWidth n * w.index + u) (entryRow w.entry false u)) b).onBer (fun g => { g with
        windows := g.windows.map (fun x => if x.bank == n then { x with wrote := true } else x) }) := by
  subst hn
  simp only [State.stepWindow, h, Bool.false_eq_true, if_false]

theorem State.stepWindow_validates (h : w.wrote = true) : b.stepWindow w =
    (b.writeRow n (b.bankWidth n * w.index) (entryRow w.entry true 0)).onBer (fun g => { g with
      windows := g.windows.filter (fun x => x.bank != n) }) := by
  subst hn
  simp only [State.stepWindow, h, if_true]

end
end

/-! ### An update that arrives (R281, R292, R295) -/

theorem stealUses_channel {c : Nat} {u : BerylUpdate} {use : Nat} (h : use ∈ stealUses c u) : c < 30 := by
  by_contra hc
  cases u with
  | change key tag e => simp [stealUses] at h
  | insert e => simp [stealUses, show ¬c < 20 by omega, show ¬c < 22 by omega, show ¬c < 26 by omega] at h
  | remove key tag => simp [stealUses, show ¬c < 20 by omega, show ¬c < 22 by omega] at h

theorem stepUses_channel {c use : Nat} (h : use ∈ stepUses c) : ¬c < 30 := by
  intro hc
  simp [stepUses, show c ≠ 30 by omega, show c ≠ 31 by omega] at h

section
variable {s : State} {c n : Nat}

theorem State.atCap_iff : s.atCap c n = true ↔ c < 30 ∧ 16 ≤ s.stolen n := by simp [State.atCap]

theorem State.atCap_eq_false (h : c < 30 → s.stolen n < 16) : s.atCap c n = false :=
  Bool.eq_false_iff.mpr (fun hc => by
    obtain ⟨hlt, hstolen⟩ := State.atCap_iff.mp hc
    exact absurd (h hlt) (Nat.not_lt.mpr hstolen))

/-- An update joins those that wait for its bank. -/
def State.holdUpdate (c n : Nat) (u : BerylUpdate) (capped : Bool) (s : State) : State :=
  s.onBer (fun g => { g with heldUpdate := g.heldUpdate ++ [⟨c, n, u, capped⟩] })

variable {u : BerylUpdate}

theorem State.waitIn_uncapped (h : (s.bankBusy n || s.queuedIn n) = true ∨ s.atCap c n = false) :
    s.waitIn c n u = s.holdUpdate c n u false := by
  have hcap : (!s.bankBusy n && !s.queuedIn n && s.atCap c n) = false := by
    rcases h with h | h
    · rw [← Bool.not_or, h, Bool.not_true, Bool.false_and]
    · rw [h, Bool.and_false]
  simp only [State.waitIn, hcap, Bool.false_eq_true, if_false, State.holdUpdate]

theorem State.updateOrWait_busy (h : (s.bankBusy n || s.queuedIn n) = true) : s.updateOrWait c n u = s.holdUpdate c n u false := by
  simp only [State.updateOrWait, State.mustWait, h, Bool.true_or, if_true, State.waitIn_uncapped (.inl h)]

variable (h : (s.bankBusy n || s.queuedIn n) = false)
include h

/-- An update that the cap alone delays counts as a cap wait. -/
theorem State.updateOrWait_capped (hc : s.atCap c n = true) :
    s.updateOrWait c n u = (s.logicalCount n 2 1).holdUpdate c n u true := by
  have hcap : (!s.bankBusy n && !s.queuedIn n && s.atCap c n) = true := by
    rw [← Bool.not_or, h, hc]
    rfl
  have hwait : s.mustWait c n = true := by rw [State.mustWait, h, hc, Bool.or_true]
  rw [State.updateOrWait, if_pos hwait]
  simp only [State.waitIn, hcap, if_true, State.holdUpdate]

theorem State.updateOrWait_free (hc : s.atCap c n = false) : s.updateOrWait c n u = s.update c n u := by
  simp only [State.updateOrWait, State.mustWait, h, hc, Bool.or_self, Bool.false_eq_true, if_false]

end

/-! ### SLOT_STEALING_UPDATE and THREE_STEP_UPDATE (R281, R295, R296) -/

section
variable {s b t : State} {dt channel bank : Nat} {update : BerylUpdate} (hb : s.elapse dt = b)
include hb

theorem execSlotStealingUpdate_idle (h : b.start.phase ≠ .run) : execSlotStealingUpdate dt channel bank update s = .next b := by
  simp only [execSlotStealingUpdate, hb, State.arraysUp_of_not_run h, Bool.not_false, if_true]

theorem execThreeStepUpdate_idle {whole : Bool} (h : b.start.phase ≠ .run) :
    execThreeStepUpdate dt channel bank ⟨update, whole⟩ s = .next b := by
  simp only [execThreeStepUpdate, hb, State.arraysUp_of_not_run h, Bool.not_false, if_true]

variable (h : b.start.phase = .run) (ht : t = b.drainBeryl)
include h ht

theorem execSlotStealingUpdate_notUse (hu : b.bankUse bank ∉ stealUses channel update) :
    execSlotStealingUpdate dt channel bank update s = .next t := by
  simp [execSlotStealingUpdate, hb, State.arraysUp_of_run h, hu, ht]

theorem execSlotStealingUpdate_use (hu : b.bankUse bank ∈ stealUses channel update) :
    execSlotStealingUpdate dt channel bank update s = .next (t.updateOrWait channel bank update) := by
  simp [execSlotStealingUpdate, hb, State.arraysUp_of_run h, hu, ht]

theorem execThreeStepUpdate_notUse {whole : Bool} (hu : t.bankUse bank ∉ stepUses channel) :
    execThreeStepUpdate dt channel bank ⟨update, whole⟩ s = .next t := by
  subst ht
  simp [execThreeStepUpdate, hb, State.arraysUp_of_run h, hu]

variable (hu : t.bankUse bank ∈ stepUses channel)
include hu

section
variable (hw : t.ber.windows.find? (fun w => w.bank == bank) = none)
include hw

theorem execThreeStepUpdate_whole :
    execThreeStepUpdate dt channel bank ⟨update, true⟩ s = .next (t.updateOrWait channel bank update) := by
  subst ht
  simp only [execThreeStepUpdate, hb, State.arraysUp_of_run h, List.contains_iff_mem.mpr hu, hw, Bool.not_true, Bool.true_or,
    Bool.false_eq_true, if_false, if_true]

theorem execThreeStepUpdate_busy (hbusy : (t.bankBusy bank || t.queuedIn bank) = true) {whole : Bool} :
    execThreeStepUpdate dt channel bank ⟨update, whole⟩ s = .next (t.updateOrWait channel bank update) := by
  subst ht
  simp only [execThreeStepUpdate, hb, State.arraysUp_of_run h, List.contains_iff_mem.mpr hu, hw, State.mustWait, hbusy, Bool.not_true,
    Bool.true_or, Bool.or_true, Bool.false_eq_true, if_false, if_true]

theorem execThreeStepUpdate_opens (hbusy : (t.bankBusy bank || t.queuedIn bank) = false) :
    execThreeStepUpdate dt channel bank ⟨update, false⟩ s = .next (t.openWindow channel bank update) := by
  have hcap : t.atCap channel bank = false := State.atCap_eq_false (fun hc => absurd hc (stepUses_channel hu))
  subst ht
  simp only [execThreeStepUpdate, hb, State.arraysUp_of_run h, List.contains_iff_mem.mpr hu, hw, State.mustWait, hbusy, hcap, Bool.not_true,
    Bool.or_self, Bool.false_eq_true, if_false]

end

section
variable {w : StepWin} (hw : t.ber.windows.find? (fun w => w.bank == bank) = some w)
include hw

/-- An update of a bank with another's window waits, without a cap. -/
theorem execThreeStepUpdate_waits {whole : Bool} (ho : w.channel ≠ channel ∨ w.update ≠ update ∨ bank ∈ t.ber.reloading) :
    execThreeStepUpdate dt channel bank ⟨update, whole⟩ s = .next (t.holdUpdate channel bank update false) := by
  have hcap : t.atCap channel bank = false := State.atCap_eq_false (fun hc => absurd hc (stepUses_channel hu))
  have hown : (w.channel == channel && w.update == update && !t.ber.reloading.contains bank) = false := by
    simpa [Classical.or_iff_not_imp_left] using ho
  rw [← State.waitIn_uncapped (.inr hcap)]
  subst ht
  simp only [execThreeStepUpdate, hb, State.arraysUp_of_run h, List.contains_iff_mem.mpr hu, hw, hown, Bool.not_true,
    Bool.false_eq_true, if_false]

theorem execThreeStepUpdate_steps {whole : Bool} (hc : w.channel = channel) (hup : w.update = update) (hr : bank ∉ t.ber.reloading) :
    execThreeStepUpdate dt channel bank ⟨update, whole⟩ s =
      .next (if whole && !w.wrote then (t.stepWindow w).stepWindow { w with wrote := true } else t.stepWindow w).drainBeryl := by
  subst ht hc hup
  simp [execThreeStepUpdate, hb, State.arraysUp_of_run h, hu, hw, hr]

end
end

/-! ### BERYL_MOVE_DONE (R292, R293) -/

section
variable {s b t : State} {dt bank : Nat} (hb : s.elapse dt = b)
include hb

theorem execBerylMoveDone_idle (h : b.start.phase ≠ .run) : execBerylMoveDone dt bank s = .next b := by
  simp only [execBerylMoveDone, hb, State.arraysUp_of_not_run h, Bool.not_false, if_true]

theorem execBerylMoveDone_nothing (h : b.start.phase = .run)
    (hm : b.ber.moves.find? (fun m => m.bank == bank && !m.ran) = none ∨ bank ∈ b.ber.reloading) :
    execBerylMoveDone dt bank s = .next b.drainBeryl := by
  cases hmove : b.ber.moves.find? (fun m => m.bank == bank && !m.ran) with
  | none => simp only [execBerylMoveDone, hb, State.arraysUp_of_run h, Bool.not_true, Bool.false_eq_true, if_false, hmove]
  | some m =>
    have hr : bank ∈ b.ber.reloading := hm.resolve_left (by simp [hmove])
    simp only [execBerylMoveDone, hb, State.arraysUp_of_run h, Bool.not_true, Bool.false_eq_true, if_false, hmove,
      List.contains_iff_mem.mpr hr, if_true]

theorem execBerylMoveDone_moves (h : b.start.phase = .run) {m : Move}
    (hm : b.ber.moves.find? (fun m => m.bank == bank && !m.ran) = some m) (hr : bank ∉ b.ber.reloading) :
    execBerylMoveDone dt bank s = .next ((b.moveRun bank m.lo m.hi m.down).onBer (fun g => { g with
      moves := g.moves.map (fun x => if x.bank == bank then { x with ran := true } else x)
      excluded := g.excluded.filter (fun x => x.1 != bank) ++ [(bank, m.hole)] })).drainBeryl := by
  simp only [execBerylMoveDone, hb, State.arraysUp_of_run h, Bool.not_true, Bool.false_eq_true, if_false, hm, mt List.contains_iff_mem.mp hr]

/-! ### COMPACTOR (R294) -/

theorem execCompactor_idle (h : b.start.phase ≠ .run) : execCompactor dt bank s = .next b := by
  simp only [execCompactor, hb, State.arraysUp_of_not_run h, Bool.not_false, if_true]

variable (h : b.start.phase = .run) (ht : t = b.drainBeryl)
include h ht

theorem execCompactor_busy (hbusy : (t.bankBusy bank || t.queuedIn bank) = true) : execCompactor dt bank s = .next t := by
  subst ht
  simp only [execCompactor, hb, State.arraysUp_of_run h, Bool.not_true, Bool.false_eq_true, if_false, hbusy, if_true]

variable (hbusy : (t.bankBusy bank || t.queuedIn bank) = false) {es : List (Nat × Nat)} (hes : es = t.validEntries bank)
  {hole : Nat} (hhole : hole = freeAbove es (es.length + 1) 0)
include hbusy hes hhole

theorem execCompactor_noHole (hno : ∀ e ∈ es, e.1 ≤ hole) : execCompactor dt bank s = .next t := by
  have hfind : es.find? (fun e => decide (hole < e.1)) = none := by simpa using hno
  subst hhole hes ht
  simp only [execCompactor, hb, State.arraysUp_of_run h, Bool.not_true, Bool.false_eq_true, if_false, hbusy, hfind]

theorem execCompactor_closes {e : Nat × Nat} {hi : Nat} (he : es.find? (fun e => decide (hole < e.1)) = some e)
    (hhi : hi + 1 = freeAbove es (es.length + 1) e.1) :
    execCompactor dt bank s = .next ((t.moveRun bank e.1 hi false).clearEntry bank hi) := by
  subst hhole hes ht
  simp only [execCompactor, hb, State.arraysUp_of_run h, Bool.not_true, Bool.false_eq_true, if_false, hbusy, he, ← hhi,
    Nat.add_sub_cancel, State.closeHole]

end

/-! ### What waits for a bank goes on (R292, R293, R295) -/

section
variable {b : State} {n k : Nat}

theorem State.drainBank_finishes {m : Move} (hm : b.ber.moves.find? (fun m => m.bank == n && m.ran) = some m)
    (hr : n ∉ b.ber.reloading) (hcap : m.channel < 30 → b.stolen n < 16) {t : State}
    (ht : t = (b.onBer (fun g => { g with
      moves := g.moves.filter (fun x => x.bank != n), excluded := g.excluded.filter (fun x => x.1 != n) })).writeEntry n m.hole m.entry) :
    b.drainBank n (k + 1) = (t.took m.channel n).drainBank n k := by
  obtain ⟨hbank, -⟩ : m.bank = n ∧ m.ran = true := by simpa using List.find?_some hm
  subst ht
  simp only [State.drainBank, hm, mt List.contains_iff_mem.mp hr, if_false, State.atCap_eq_false hcap, Bool.false_eq_true,
    State.finishMove, hbank]

theorem State.drainBank_updates (hm : b.ber.moves.find? (fun m => m.bank == n && m.ran) = none) (hbusy : b.bankBusy n = false)
    {u : HeldUpd} (hu : b.ber.heldUpdate.find? (fun u => u.bank == n) = some u) (hcap : u.channel < 30 → b.stolen n < 16) :
    b.drainBank n (k + 1) =
      ((b.onBer (fun g => { g with heldUpdate := g.heldUpdate.erase u })).update u.channel n u.update).drainBank n k := by
  simp only [State.drainBank, hm, hbusy, hu, Bool.false_eq_true, if_false, State.atCap_eq_false hcap]

end

/-! ### The statement on updates -/

/-- Settles O54: the two update commands by bank, channel, cap and window, the update itself, the place of an insert, a move that has run, the
compactor, and what waits (a window's steps whole or one by one: log 113; moves and cap waits: log 114; one hole for each COMPACTOR: log 115;
nothing outside RUN: log 118). -/
theorem berylUpdates : Obligations.BerylUpdates := by
  unfold Obligations.BerylUpdates
  refine ⟨fun dt channel bank update s => ?_, ?_, fun es c p => ?_, fun dt bank s => ?_, fun b n k => ⟨?_, ?_⟩, fun es i => ?_⟩
  · intro b
    refine ⟨fun hidle => ⟨execSlotStealingUpdate_idle rfl hidle, fun whole => execThreeStepUpdate_idle rfl hidle⟩, ?_⟩
    rintro hrun t ht busy hbusy held rfl
    have hwaits (h : busy) : (t.bankBusy bank || t.queuedIn bank) = true := State.busyOrQueued_iff.mpr (hbusy.mp h)
    have hfree (h : ¬busy) : (t.bankBusy bank || t.queuedIn bank) = false :=
      Bool.eq_false_iff.mpr (h ∘ hbusy.mpr ∘ State.busyOrQueued_iff.mp)
    refine ⟨execSlotStealingUpdate_notUse rfl hrun ht, fun hu => ?_, fun whole => execThreeStepUpdate_notUse rfl hrun ht, fun hu => ⟨fun hw =>
      ⟨fun whole h => ?_, fun h => ⟨?_, ?_⟩⟩, fun w hw => ⟨fun whole => ?_, fun hc hup hr => ⟨?_, ?_⟩⟩⟩⟩
    · have hsteals := execSlotStealingUpdate_use rfl hrun ht hu
      refine ⟨fun h => hsteals.trans ?_, fun h hcap => hsteals.trans ?_, fun h hcap => hsteals.trans ?_⟩
      · rw [State.updateOrWait_busy (hwaits h)]
        rfl
      · rw [State.updateOrWait_capped (hfree h) (State.atCap_iff.mpr ⟨stealUses_channel hu, hcap⟩)]
        rfl
      · rw [State.updateOrWait_free (hfree h) (State.atCap_eq_false (fun _ => hcap))]
    · refine (execThreeStepUpdate_busy rfl hrun ht hu hw (hwaits h)).trans ?_
      rw [State.updateOrWait_busy (hwaits h)]
      rfl
    · refine (execThreeStepUpdate_whole rfl hrun ht hu hw).trans ?_
      rw [State.updateOrWait_free (hfree h) (State.atCap_eq_false (fun hc => absurd hc (stepUses_channel hu)))]
    · exact execThreeStepUpdate_opens rfl hrun ht hu hw (hfree h)
    · exact execThreeStepUpdate_waits rfl hrun ht hu hw
    · exact execThreeStepUpdate_steps rfl hrun ht hu hw hc hup hr
    · refine (execThreeStepUpdate_steps rfl hrun ht hu hw hc hup hr).trans ?_
      cases w.wrote
      · simp only [Bool.not_false, Bool.and_self, if_true, Bool.false_eq_true, if_false]
      · simp only [Bool.not_true, Bool.and_false, Bool.false_eq_true, if_false, if_true]
  · rintro b c n slot rfl
    refine ⟨fun key tag i => State.update_remove, fun key tag i e hi hp => ⟨State.update_change hi hp, State.openWindow_change hi hp⟩,
      fun e0 e he => ⟨State.update_insert_full he, fun hole h => ⟨State.update_insert_target he h, State.openWindow_insert he h⟩,
      fun hole lo hi d => State.update_insert_move he⟩, ?_⟩
    rintro w hn k rfl
    exact ⟨State.stepWindow_writes hn, State.stepWindow_validates hn⟩
  · exact ⟨placeOf_none, fun hole => placeOf_target, fun hole lo hi => placeOf_down, fun hole lo hi => placeOf_up⟩
  · intro b
    refine ⟨fun hidle => ⟨execBerylMoveDone_idle rfl hidle, execCompactor_idle rfl hidle⟩, fun hrun => ⟨execBerylMoveDone_nothing rfl hrun,
      fun m => execBerylMoveDone_moves rfl hrun, fun t ht => ⟨fun h => ?_, fun hbusy hqueue es hes hole hhole => ?_⟩⟩⟩
    · exact execCompactor_busy rfl hrun ht (State.busyOrQueued_iff.mpr h)
    · have hfree : (t.bankBusy bank || t.queuedIn bank) = false := Bool.eq_false_iff.mpr (fun h => by
        rcases State.busyOrQueued_iff.mp h with h | ⟨u, hu, hn⟩
        · exact Bool.false_ne_true (hbusy.symm.trans h)
        · exact hqueue u hu hn)
      exact ⟨execCompactor_noHole rfl hrun ht hfree hes hhole, fun e hi => execCompactor_closes rfl hrun ht hfree hes hhole⟩
  · exact fun m hm hr hcap t ht => State.drainBank_finishes hm hr hcap ht
  · exact fun hm hbusy u hu hcap => State.drainBank_updates hm hbusy hu hcap
  · exact ⟨le_freeAbove, fun e he hf => freeAbove_free (Nat.lt_succ_self _) ⟨e, he, hf⟩, fun j => takenAt_below_freeAbove⟩

end Sys2Proof.Machine
end

section
/-! Beryl's scrubber, failed banks and reloads (R290, R299, R300, R475, R493): what CAM_SCRUB, BANK_RELOAD, BANK_RELOAD_DONE and CAM_CORR_CLEAR
answer, where a failed bank and its entries go, case by case, and the statement on them. -/
namespace Sys2Proof.Machine
open Sys2Proof

-- Elaborated in turn: the check of the whole text has no memory for more elaboration threads.
set_option Elab.async false

/-! ### A correction's record (R493) -/

theorem State.onBer_congr {s : State} {f g : Beryl → Beryl} (h : f s.ber = g s.ber) : s.onBer f = s.onBer g := by
  simp only [State.onBer, h]

section
variable {s : State} {bank row use last : Nat}

theorem State.recordCorrection_overrun (h : s.ber.corrValid = true) :
    s.recordCorrection bank row use last = s.onBer (fun g => { g with corrOver := satInc 6 g.corrOver }) :=
  State.onBer_congr (if_pos h)

theorem State.recordCorrection_free (h : s.ber.corrValid = false) :
    s.recordCorrection bank row use last = s.onBer (fun g => { g with
      corrValid := true, corrUse := use, corrBank := bank, corrRow := row, cleanTime := last, fixTime := s.aon.time }) :=
  State.onBer_congr (if_neg (Bool.eq_false_iff.mp h))

end

/-! ### CAM_SCRUB (R290) -/

/-- The scrubber passes on from a row of a bank; past the last row the bank's pass ends now. -/
def State.passRow (bank row : Nat) (s : State) : State :=
  s.onBer (fun g => { g with
    scrubPos := modifyAt g.scrubPos bank (fun r => (r + 1) % 8192),
    lastPass := if row == 8191 then modifyAt g.lastPass bank (fun _ => s.aon.time) else g.lastPass })

section
variable {s b t : State} {dt bank : Nat} {upsets : List Upset} {stuck : Bool} (hb : s.elapse dt = b)
include hb

theorem execCamScrub_idle (h : b.start.phase ≠ .run) : execCamScrub dt ⟨bank, upsets, stuck⟩ s = .next b := by
  simp only [execCamScrub, hb, State.arraysUp_of_not_run h, Bool.not_false, if_true]

variable (h : b.start.phase = .run) (ht : t = b.drainBeryl.upset upsets)
include h ht

theorem execCamScrub_unused (hn : t.logical bank = none) : execCamScrub dt ⟨bank, upsets, stuck⟩ s = .next t := by
  subst ht
  simp only [execCamScrub, hb, State.arraysUp_of_run h, Bool.not_true, Bool.false_eq_true, if_false, hn]

variable {n : Nat} (hn : t.logical bank = some n)
include hn

theorem execCamScrub_busy (hbusy : t.bankBusy n = true) : execCamScrub dt ⟨bank, upsets, stuck⟩ s = .next t := by
  subst ht
  simp only [execCamScrub, hb, State.arraysUp_of_run h, Bool.not_true, Bool.false_eq_true, if_false, hn, hbusy, if_true]

variable (hbusy : t.bankBusy n = false) {row : Nat} (hrow : row = t.ber.scrubPos.getD bank 0)
include hbusy hrow

theorem execCamScrub_equal (he : rowAt t.ber.rows bank row = t.shadowRow n row) :
    execCamScrub dt ⟨bank, upsets, stuck⟩ s = .next (t.passRow bank row) := by
  subst ht hrow
  simp only [execCamScrub, hb, State.arraysUp_of_run h, Bool.not_true, Bool.false_eq_true, if_false, hn, hbusy, he, beq_self_eq_true, if_true,
    State.passRow]

theorem execCamScrub_rewrites (he : rowAt t.ber.rows bank row ≠ t.shadowRow n row) {u v : State}
    (hu : u = ((t.writeRow n row (t.shadowRow n row)).bankCount bank 5 1).recordCorrection bank row (t.bankUse n) (t.ber.lastPass.getD bank 0))
    (hv : v = (if t.bankUse n = 2 ∨ t.bankUse n = 4 then u.raise cCamCorr else u).passRow bank row) :
    execCamScrub dt ⟨bank, upsets, stuck⟩ s = .next (if stuck = true then v.failBank bank else v) := by
  subst hv hu ht hrow
  simp only [execCamScrub, hb, State.arraysUp_of_run h, Bool.not_true, Bool.false_eq_true, if_false, hn, hbusy, beq_eq_false_iff_ne.mpr he,
    Bool.or_eq_true, beq_iff_eq, State.passRow]

end

/-! ### BANK_RELOAD and BANK_RELOAD_DONE (R299) -/

section
variable {s b : State} {dt : Nat} (hb : s.elapse dt = b)
include hb

theorem execBankReload_nothing {bank : Nat} (h : b.start.phase ≠ .run ∨ 34 ≤ bank ∨ bank ∈ b.ber.failed) :
    execBankReload dt bank s = .next b := by
  have hno : (b.arraysUp && decide (bank < 34) && !b.ber.failed.contains bank) = false := by
    rcases h with h | h | h
    · simp [State.arraysUp_of_not_run h]
    · simp [Nat.not_lt.mpr h]
    · simp [h]
  simp only [execBankReload, hb, hno, Bool.false_eq_true, if_false]

theorem execBankReload_fails {bank : Nat} (h : b.start.phase = .run) (hlt : bank < 34) (hf : bank ∉ b.ber.failed) :
    execBankReload dt bank s = .next (b.drainBeryl.failBank bank).drainBeryl := by
  simp [execBankReload, hb, State.arraysUp_of_run h, hlt, hf]

theorem execBankReloadDone_nothing {n : Nat} (h : b.start.phase ≠ .run ∨ n ∉ b.ber.reloading) : execBankReloadDone dt n s = .next b := by
  have hno : (!b.arraysUp || !b.ber.reloading.contains n) = true := by
    rcases h with h | h
    · simp [State.arraysUp_of_not_run h]
    · simp [h]
  simp only [execBankReloadDone, hb, hno, if_true]

theorem execBankReloadDone_fills {n p : Nat} (h : b.start.phase = .run) (hr : n ∈ b.ber.reloading) (hp : b.physical n = some p) :
    execBankReloadDone dt n s = .next ((b.onBer (fun g => { g with
      reloading := g.reloading.filter (· != n), rows := bankCopy g.rows g.shadow n p })).logicalCount n 9 1).drainBeryl := by
  have hno : (!b.arraysUp || !b.ber.reloading.contains n) = false := by simp [State.arraysUp_of_run h, hr]
  have hmap : b.ber.map.getD n none = some p := hp
  simp only [execBankReloadDone, hb, hno, Bool.false_eq_true, if_false]
  congr 3
  exact State.onBer_congr (by rw [hmap])

end

/-! ### A bank that fails (R299, R300) -/

/-- A logical bank moves from a failed bank to another, whose reload begins. -/
def State.moveBank (n bank q : Nat) (s : State) : State :=
  (s.mapEntry n (some q) 4).onBer (fun g => { g with
    map := modifyAt g.map n (fun _ => some q)
    reloading := if n ∈ g.reloading then g.reloading else g.reloading ++ [n]
    rows := g.rows.filter (fun r => r.bank != bank && r.bank != q) })

section
variable {b : State} {bank : Nat}

theorem State.failBank_unused (h : b.logical bank = none) : b.failBank bank = b.bankFailed bank := by
  simp only [State.failBank, h]

variable {n : Nat} (h : b.logical bank = some n) {t : State} (ht : t = (b.bankFailed bank).eventFull evCapacity 0 bank 4 1 0)
include h ht

theorem State.failBank_spare {q : Nat} (hq : t.spares.head? = some q) : b.failBank bank = t.moveBank n bank q := by
  subst ht
  simp only [State.failBank, h, hq, State.moveBank, List.contains_iff_mem]

variable (hq : t.spares.head? = none)
include hq

/-- Without a spare the bank moves to its replacement, whose handles are dropped when its use is theirs. -/
theorem State.failBank_replaced {m : Nat} (hm : t.replacement n = some m) {u : State}
    (hu : u = if t.bankUse m = 1 then t.dropRecords (t.handlesIn m) else t) :
    b.failBank bank = (u.deadBank m).moveBank n bank ((u.physical m).getD 0) := by
  subst hu ht
  simp only [State.failBank, h, hq, hm, State.moveBank, List.contains_iff_mem, beq_iff_eq]

theorem State.failBank_prefixLost (hm : t.replacement n = none) (hu : t.bankUse n = 1) :
    b.failBank bank = (t.dropRecords (t.handlesIn n)).deadBank n := by
  subst ht
  simp only [State.failBank, h, hq, hm, hu, beq_self_eq_true, if_true]

theorem State.failBank_scatters (hm : t.replacement n = none) (hu : t.bankUse n ≠ 1) :
    b.failBank bank = (t.entriesOf n).foldl (fun u e => u.rehome (t.bankUse n) n e) ((t.deadBank n).raise cBerylLoss) := by
  subst ht
  simp only [State.failBank, h, hq, hm, beq_eq_false_iff_ne.mpr hu, Bool.false_eq_true, if_false, State.scatter]

end

/-! ### Where an entry of a lost bank goes (R280, R300) -/

section
variable {b : State} {use n : Nat} {e : BerylEntry} {home : Option Nat}
  (hhome : home = if use = 4 then b.literalBank else b.pickBank (candidates (b.useList use) e.key))
include hhome

theorem State.rehome_placed {m : Nat} (hm : home = some m) (hu : use ≠ 4) : b.rehome use n e = b.placeIn 30 m e := by
  rw [hm, if_neg hu] at hhome
  simp only [State.rehome, beq_iff_eq, hu, if_false, ← hhome]

theorem State.rehome_literal {m : Nat} (hm : home = some m) (hu : use = 4) :
    b.rehome use n e = (b.placeIn 30 m e).remapLiteral e.tag n m := by
  rw [hm, if_pos hu] at hhome
  simp only [State.rehome, beq_iff_eq, hu, if_true, ← hhome]

theorem State.rehome_lost (hm : home = none) : b.rehome use n e = (b.onStr (fun g => { g with
    tab := g.tab.map (fun t => if b.namesEntry use e t then { t with cancelPending := true } else t) })).onBer (fun g => { g with
      lost := g.lost ++ [(use, e)] }) := by
  rw [hm] at hhome
  simp only [State.rehome, beq_iff_eq, ← hhome]

end

/-! ### The replacement of a failed bank (R300) -/

/-- The last bank of those that pass a test is the highest. -/
theorem getLast?_filter_range {p : Nat → Bool} {k m : Nat} (h : ((List.range k).filter p).getLast? = some m) :
    (m < k ∧ p m = true) ∧ ∀ j < k, m < j → p j = false := by
  obtain ⟨hne, rfl⟩ := List.mem_getLast?_eq_getLast h
  refine ⟨by simpa using List.getLast_mem hne, fun j hj hlt => Bool.eq_false_iff.mpr (fun hpj => ?_)⟩
  have hle : ((List.range k).filter p).Pairwise (· ≤ ·) := List.pairwise_le_range.filter _
  have := hle.rel_getLast (List.mem_filter.mpr ⟨List.mem_range.mpr hj, hpj⟩)
  omega

section
variable {b : State} {n : Nat}

/-- The unused bank that replaces a failed one. -/
def State.unusedBank (b : State) (n : Nat) : Option Nat :=
  (List.range 32).find? (fun m => m != n && b.bankUse m == 0 && (b.physical m).isSome)

theorem State.unusedBank_some {m : Nat} (h : b.unusedBank n = some m) :
    m < 32 ∧ m ≠ n ∧ b.bankUse m = 0 ∧ (b.physical m).isSome = true := by
  obtain ⟨⟨hne, huse⟩, hphys⟩ : (m ≠ n ∧ b.bankUse m = 0) ∧ (b.physical m).isSome = true := by simpa using List.find?_some h
  exact ⟨List.mem_range.mp (List.mem_of_find?_eq_some h), hne, huse, hphys⟩

theorem State.unusedBank_none (h : b.unusedBank n = none) : ∀ k < 32, k ≠ n → b.bankUse k = 0 → b.physical k = none := by
  simpa [State.unusedBank] using h

/-- The last bank of the handles. -/
def State.lastPrefixBank (b : State) : Option Nat :=
  ((List.range 32).filter (fun m => b.bankUse m == 1 && (b.physical m).isSome)).getLast?

theorem State.lastPrefixBank_some {m : Nat} (h : b.lastPrefixBank = some m) :
    m < 32 ∧ b.bankUse m = 1 ∧ (b.physical m).isSome = true ∧ ∀ k < 32, m < k → b.bankUse k = 1 → b.physical k = none := by
  obtain ⟨⟨hm, hp⟩, hlast⟩ := getLast?_filter_range h
  obtain ⟨huse, hphys⟩ : b.bankUse m = 1 ∧ (b.physical m).isSome = true := by simpa using hp
  exact ⟨hm, huse, hphys, fun k hk hmk hu => by simpa [hu] using hlast k hk hmk⟩

theorem State.lastPrefixBank_none (h : b.lastPrefixBank = none) : ∀ k < 32, b.bankUse k = 1 → b.physical k = none := by
  simpa [State.lastPrefixBank] using h

theorem State.replacement_of_unused {m : Nat} (h : b.unusedBank n = some m) : b.replacement n = some m := by
  rw [State.unusedBank] at h
  simp only [State.replacement, h]

theorem State.replacement_of_noUnused (h : b.unusedBank n = none) :
    b.replacement n = if b.bankUse n = 1 then none else b.lastPrefixBank := by
  rw [State.unusedBank] at h
  simp only [State.replacement, h, beq_iff_eq, State.lastPrefixBank]

theorem State.replacement_some {m : Nat} (h : b.replacement n = some m) :
    m < 32 ∧ m ≠ n ∧ (b.physical m).isSome = true ∧ (b.bankUse m = 0 ∨ b.bankUse m = 1 ∧ b.bankUse n ≠ 1 ∧
      (∀ k < 32, k ≠ n → b.bankUse k = 0 → b.physical k = none) ∧ ∀ k < 32, m < k → b.bankUse k = 1 → b.physical k = none) := by
  cases hfree : b.unusedBank n with
  | some k =>
    obtain rfl : k = m := Option.some.inj ((State.replacement_of_unused hfree).symm.trans h)
    obtain ⟨hk, hne, huse, hphys⟩ := State.unusedBank_some hfree
    exact ⟨hk, hne, hphys, .inl huse⟩
  | none =>
    rw [State.replacement_of_noUnused hfree, Option.ite_none_left_eq_some] at h
    obtain ⟨hn, hlast⟩ := h
    obtain ⟨hm, huse, hphys, hhigh⟩ := State.lastPrefixBank_some hlast
    refine ⟨hm, ?_, hphys, .inr ⟨huse, hn, State.unusedBank_none hfree, hhigh⟩⟩
    rintro rfl
    exact hn huse

theorem State.replacement_none (h : b.replacement n = none) :
    ∀ m < 32, m ≠ n → (b.physical m).isSome = true → b.bankUse m ≠ 0 ∧ (b.bankUse n ≠ 1 → b.bankUse m ≠ 1) := by
  intro m hm hne hphys
  cases hfree : b.unusedBank n with
  | some k =>
    rw [State.replacement_of_unused hfree] at h
    cases h
  | none =>
    rw [State.replacement_of_noUnused hfree] at h
    refine ⟨fun h0 => ?_, fun hn h1 => ?_⟩
    · simp [State.unusedBank_none hfree m hm hne h0] at hphys
    · rw [if_neg hn] at h
      simp [State.lastPrefixBank_none h m hm h1] at hphys

end

/-! ### CAM_CORR_CLEAR (R475, R493) -/

section
variable {s b : State} {dt : Nat} (hb : (s.elapse dt).wakeCause = b)
include hb

theorem execCamCorrClear_isolated {hardware : Bool} (h : b.isolated = true) : execCamCorrClear dt hardware s = .next b := by
  simp only [execCamCorrClear, hb, h, if_true]

theorem execCamCorrClear_clears {hardware : Bool} (h : b.isolated = false) : execCamCorrClear dt hardware s = .next (b.clearCorr hardware) := by
  simp only [execCamCorrClear, hb, h, Bool.false_eq_true, if_false]

end

/-! ### The statement on the scrubber and failed banks -/

/-- Settles O55: CAM_SCRUB by its row, the correction's record, a bank that fails by what takes its place (never its own logical bank: log 117), its
entries, the two reload commands, and CAM_CORR_CLEAR (nothing outside RUN: log 118; no rewrite in a bank that is being reloaded: log 116). -/
theorem banksReplaced : Obligations.BanksReplaced := by
  unfold Obligations.BanksReplaced
  refine ⟨fun dt bank upsets stuck s => ?_, fun b bank row use last => ⟨State.recordCorrection_overrun, State.recordCorrection_free⟩,
    fun dt bank s => ⟨execBankReload_nothing rfl, execBankReload_fails rfl⟩, fun b bank => ⟨State.failBank_unused, ?_⟩,
    fun b n => ⟨rfl, fun use e home hhome => ⟨fun m => State.rehome_placed hhome, fun m => State.rehome_literal hhome,
      State.rehome_lost hhome⟩⟩, fun b n => ⟨fun m => State.replacement_some, State.replacement_none⟩,
    fun dt n s => ⟨execBankReloadDone_nothing rfl, fun hrun hr p => execBankReloadDone_fills rfl hrun hr⟩, fun dt s => ?_⟩
  · intro b
    refine ⟨execCamScrub_idle rfl, fun hrun t ht => ⟨execCamScrub_unused rfl hrun ht, fun n hn => ⟨execCamScrub_busy rfl hrun ht hn, ?_⟩⟩⟩
    rintro hbusy row hrow pass rfl
    refine ⟨execCamScrub_equal rfl hrun ht hn hbusy hrow, fun he u hu v hv => ?_⟩
    exact execCamScrub_rewrites rfl hrun ht hn hbusy hrow he hu hv
  · rintro n hn t ht move rfl
    refine ⟨fun q => State.failBank_spare hn ht, fun hq => ⟨fun m hm u => State.failBank_replaced hn ht hq hm,
      fun hm => ⟨State.failBank_prefixLost hn ht hq hm, State.failBank_scatters hn ht hq hm⟩⟩⟩
  · intro b
    refine ⟨fun hardware => execCamCorrClear_isolated rfl, fun hi => ⟨execCamCorrClear_clears rfl hi, execCamCorrClear_clears rfl hi⟩⟩

end Sys2Proof.Machine
end

section
/-! Budgets (R325, R326, R441): what bud.set, BUD_FWD and BUD_DONE answer, case by case, and the statement on them. -/
namespace Sys2Proof.Machine
open Sys2Proof

-- Elaborated in turn: the check of the whole text has no memory for more elaboration threads.
set_option Elab.async false

/-! ### A due packet that uses Beryl runs its work -/

/-- A due packet command that reads or updates Beryl's banks answers the work's result on the packet at work. -/
theorem exec_of_due_beryl {i : Instr} {form : Pkt → Bool} {uses : Pkt → List Nat} {ap pos : Nat} {work : Pkt → State → State} {s : State}
    {p : Pkt} (hi : packetOf i = some (ap, pos, form)) (hb : berylUses i = some uses)
    (he : exec i s = .next ((s.elapse i.dt).runBeryl form uses ap pos work)) (hd : s.due i p) : exec i s = .next (work p (s.atWork i p)) := by
  have found : s.found i = (s.elapse i.dt).settleBeryl := by simp [State.found, hb]
  have ht : (s.elapse i.dt).settleBeryl.takesUp (fun p => form p && (s.elapse i.dt).settleBeryl.quiet (uses p)) ap pos p := by
    simpa [State.due, hi, found, State.formFor, hb] using hd
  rw [he, State.runBeryl_takesUp ht, State.atWork, found]

/-! ### A record after a bud.set (R326) -/

theorem Budget.refill_tenant (now : Nat) (b : Budget) : (b.refill now).tenant = b.tenant := by
  unfold Budget.refill
  dsimp only
  split <;> rfl

theorem State.fresh_tenant (s : State) (b : Budget) : (s.fresh b).tenant = b.tenant := by
  unfold State.fresh
  split
  · rfl
  · exact Budget.refill_tenant _ _

section
variable (b : Budget) (r : BudSet)

theorem Budget.change_params : (b.change r).rate = r.rate ∧ (b.change r).burst = r.burst ∧ (b.change r).wPrompt = r.wPrompt ∧
    (b.change r).wGen = r.wGen ∧ (b.change r).tenant = b.tenant := by
  cases hf : r.fill <;> simp [Budget.change, hf]

theorem Budget.change_level :
    (b.change r).level = if r.fill = true then (r.burst : Int) * 256 else min b.level ((r.burst : Int) * 256) := by
  cases hf : r.fill <;> simp [Budget.change, Budget.cap, hf]

theorem Budget.new_level (num now : Nat) : (Budget.new num now r).level = if r.fill = true then (r.burst : Int) * 256 else 0 := by
  rw [Budget.new, Budget.change_level, min_eq_left (by positivity)]

end

theorem levelWord_zero : levelWord 0 = 0 := by simp [levelWord]

/-! ### The local record (R325, R326) -/

section
variable {s x : State} {c : Nat} {r : BudSet} (hx : x = s.lookup c 3 [r.tenant])
include hx

section
variable {b : Budget} (hb : x.budget? r.tenant = some b)
include hb

theorem State.setLocal_removes (hr : r.remove = true) :
    s.setLocal c r = some ((x.onSto (fun g => { g with
      budgets := g.budgets.filter (fun y => y.tenant != r.tenant) })).removeUse c 3 [r.tenant], (x.fresh b).level) := by
  subst hx
  simp only [State.setLocal, hb, hr, if_true]

theorem State.setLocal_replaces (hr : r.remove = false) {n : Budget}
    (hn : n = { (x.fresh b).change r with tie := some ((x.fresh b).tieAt x.aon.time r) }) :
    s.setLocal c r = some (x.putBudget n, n.level) := by
  subst hn hx
  simp only [State.setLocal, hb, hr, Bool.false_eq_true, if_false]

end

variable (hb : x.budget? r.tenant = none)
include hb

theorem State.setLocal_nothing (hr : r.remove = true) : s.setLocal c r = some (x, 0) := by
  subst hx
  simp only [State.setLocal, hb, hr, if_true]

variable (hr : r.remove = false)
include hr

theorem State.setLocal_noIndex (hi : freeIndex x.sto.budgets = none) : s.setLocal c r = none := by
  subst hx
  simp only [State.setLocal, hb, hr, Bool.false_eq_true, if_false, hi]

variable {i : Nat} (hi : freeIndex x.sto.budgets = some i)
include hi

theorem State.setLocal_noEntry (he : x.insertUse c 3 (tenantEntry r.tenant i) = none) : s.setLocal c r = none := by
  subst hx
  simp only [State.setLocal, hb, hr, Bool.false_eq_true, if_false, hi, he]

theorem State.setLocal_creates {u : State} (he : x.insertUse c 3 (tenantEntry r.tenant i) = some u) {n : Budget}
    (hn : n = { Budget.new i u.aon.time r with tie := some { at_ := u.aon.time, level := 0, wPrompt := 0, wGen := 0, kept := false } }) :
    s.setLocal c r = some (u.putBudget n, n.level) := by
  subst hn hx
  simp only [State.setLocal, hb, hr, Bool.false_eq_true, if_false, hi, he]

end

/-! ### The group record (R441) -/

section
variable {s : State} {r : BudSet} {owed : Int → Owed} {now : Int → State → State} {full : State → State}

theorem State.masterSet_full (h : s.setGroup r = none) : s.masterSet r owed now full = full s := by
  simp only [State.masterSet, h]

variable {u : State} {l : Int} (h : s.setGroup r = some (u, l))
include h

theorem State.masterSet_alone (hm : (u.tellMembers r).mirror = none) :
    s.masterSet r owed now full = ((now l (u.tellMembers r)).askSpent r.tenant).unholdTenant r.tenant := by
  simp only [State.masterSet, h, State.mirrored, hm, State.settleOwn]

/-- With a live deputy the answer waits for its acknowledgement of the change. -/
theorem State.masterSet_mirrored {d : Nat} (hm : (u.tellMembers r).mirror = some d) :
    s.masterSet r owed now full = ((((u.tellMembers r).onCas (fun g => { g with owed := g.owed ++ [[owed l]] })).send d
      (.ledger (if r.remove then .remove r.tenant else .put r l))).askSpent r.tenant).unholdTenant r.tenant := by
  simp only [State.masterSet, h, State.mirrored, hm, State.settleOwn]

end

/-! ### bud.set (R325, R326, R441) -/

section
variable {s : State} {p : Pkt} {r : BudSet} (hr : budSetOf p.payload = some r)
include hr

theorem budSetWork_conflict (h : s.cas.st = .forming ∨ s.cas.st = .orphan) : budSetWork p s = s.refuse p stStateConflict := by
  rcases h with h | h <;> simp only [budSetWork, hr, h]

theorem budSetWork_forwards (h : s.cas.st = .member ∨ s.cas.st = .deputy) :
    budSetWork p s = (s.onCas (fun g => { g with fwd := g.fwd ++ [(p.tag, p, r)] })).send s.cas.master (.budFwd r p.tag) := by
  rcases h with h | h <;> simp only [budSetWork, hr, h]

theorem budSetWork_master (h : s.cas.st = .master) :
    budSetWork p s = s.masterSet r (fun l => .localDone p stOk l) (fun l s => s.done p 0 (some (levelWord l)) none none)
      (fun s => s.refuse p stNoSpace) := by
  simp only [budSetWork, hr, h]

variable (h : s.cas.st = .alone ∨ s.cas.st = .left)
include h

theorem budSetWork_local_full (hs : s.setLocal 20 r = none) : budSetWork p s = s.refuse p stNoSpace := by
  rcases h with h | h <;> simp only [budSetWork, hr, h, hs]

theorem budSetWork_local_done {u : State} {l : Int} (hs : s.setLocal 20 r = some (u, l)) :
    budSetWork p s = (u.unholdTenant r.tenant).done p 0 (some (levelWord l)) none none := by
  rcases h with h | h <;> simp only [budSetWork, hr, h, hs]

end

/-! ### BUD_FWD and BUD_DONE (R441) -/

section
variable {s b : State} {dt tag : Nat} {hdr : MsgHdr} (hb : s.elapse dt = b) (hh : b.hears hdr true)
include hb hh

theorem execBudFwd_elsewhere {r : BudSet} (h : b.cas.st ≠ .master) : execBudFwd dt hdr r tag s = .next b := by
  simp [execBudFwd, hb, State.hear_of_hears hh, h]

theorem execBudFwd_master {r : BudSet} (h : b.cas.st = .master) :
    execBudFwd dt hdr r tag s = .next (b.masterSet r (fun l => .budDone hdr.source tag stOk l)
      (fun l s => s.send hdr.source (.budDone tag stOk l)) (fun s => s.send hdr.source (.budDone tag stNoSpace 0))) := by
  simp only [execBudFwd, hb, State.hear_of_hears hh, h, beq_self_eq_true, if_true]

variable {status : Nat} {level : Int}

theorem execBudDone_unknown (h : b.cas.fwd.find? (fun f => f.1 == tag) = none) : execBudDone dt hdr tag status level s = .next b := by
  simp only [execBudDone, hb, State.hear_of_hears hh, h]

theorem execBudDone_ends {f : Nat × Pkt × BudSet} (h : b.cas.fwd.find? (fun f => f.1 == tag) = some f) {u : State}
    (hu : u = b.onCas (fun g => { g with fwd := g.fwd.erase f })) :
    execBudDone dt hdr tag status level s = .next (if status = stOk then u.done f.2.1 0 (some (levelWord level)) none none
      else u.refuse f.2.1 status) := by
  simp only [execBudDone, hb, State.hear_of_hears hh, h, beq_iff_eq, hu]

end

/-! ### The statement on budgets -/

/-- Settles O37: bud.set by the block's role and by what its local or group record was (a block that has left its group sets its own record:
log 28), and the two messages that carry it to the master and back (a record that is spent asks at once: log 140). -/
theorem budgetsSet : Obligations.BudgetsSet := by
  unfold Obligations.BudgetsSet
  refine ⟨fun dt ap pos s p hd => ?_, fun dt tag s hdr r => ?_, fun dt tag status level s hdr => ?_⟩
  · intro w r hr
    have hrun (t : State) (h : budSetWork p w = t) : exec (.budSet dt ap pos) s = .next t := h ▸ exec_of_due_beryl rfl rfl rfl hd
    refine ⟨fun h => hrun _ (budSetWork_conflict hr h), fun h => hrun _ (budSetWork_forwards hr h),
      fun h => ⟨fun hg => hrun _ ?_, fun u l hg hm => hrun _ ?_⟩, fun h u l d hg hm => hrun _ ?_,
      fun h x hx => ⟨fun b hb => ?_, fun hb => ?_⟩⟩
    · rw [budSetWork_master hr h, State.masterSet_full hg]
    · rw [budSetWork_master hr h, State.masterSet_alone hg hm]
    · rw [budSetWork_master hr h, State.masterSet_mirrored hg hm]
    · refine ⟨fun hrem => hrun _ (budSetWork_local_done hr h (State.setLocal_removes hx hb hrem)), fun hrem n hn => ?_⟩
      have hset := hrun _ (budSetWork_local_done hr h (State.setLocal_replaces hx hb hrem hn))
      obtain ⟨hrate, hburst, hprompt, hgen, htenant⟩ := Budget.change_params (x.fresh b) r
      subst hn
      exact ⟨hrate, hburst, hprompt, hgen, htenant.trans (x.fresh_tenant b), Budget.change_level _ r, hset⟩
    · refine ⟨fun hrem => hrun _ ?_, fun hrem => ⟨fun hi => ?_,
        fun i hi => ⟨fun he => ?_, fun u he n hn => ?_⟩⟩⟩
      · rw [budSetWork_local_done hr h (State.setLocal_nothing hx hb hrem), levelWord_zero]
      · exact hrun _ (budSetWork_local_full hr h (State.setLocal_noIndex hx hb hrem hi))
      · exact hrun _ (budSetWork_local_full hr h (State.setLocal_noEntry hx hb hrem hi he))
      · have hset := hrun _ (budSetWork_local_done hr h (State.setLocal_creates hx hb hrem hi he hn))
        subst hn
        exact ⟨Budget.new_level r i _, hset⟩
  · intro b hh
    have hmaster (h : b.cas.st = .master) {t : State} (ht : b.masterSet r (fun l => .budDone hdr.source tag stOk l)
        (fun l s => s.send hdr.source (.budDone tag stOk l)) (fun s => s.send hdr.source (.budDone tag stNoSpace 0)) = t) :
        exec (.budFwd dt hdr r tag) s = .next t := ht ▸ execBudFwd_master rfl hh h
    exact ⟨execBudFwd_elsewhere rfl hh, fun h hg => hmaster h (State.masterSet_full hg),
      fun h u l hg hm => hmaster h (State.masterSet_alone hg hm), fun h u l d hg hm => hmaster h (State.masterSet_mirrored hg hm)⟩
  · intro b hh
    refine ⟨execBudDone_unknown rfl hh, fun f hf => ?_⟩
    intro u
    have hends : exec (.budDone dt hdr tag status level) s = _ := execBudDone_ends rfl hh hf rfl
    exact ⟨fun h => hends.trans (by rw [if_pos h]), fun h => hends.trans (by rw [if_neg h])⟩

end Sys2Proof.Machine
end

section
/-! The lintel (R352 to R354): what lintel.raise and lintel.lower answer, case by case, and the statement on them. -/
namespace Sys2Proof.Machine
open Sys2Proof

-- Elaborated in turn: the check of the whole text has no memory for more elaboration threads.
set_option Elab.async false

section
variable {s : State} {p : Pkt}

/-! ### lintel.raise (R352) -/

theorem raiseWork_conflict (h : s.sch.raised = true) : raiseWork p s = s.refuse p stStateConflict := by
  simp only [raiseWork, h, if_true]

theorem raiseWork_asks (h : s.sch.raised = false) :
    raiseWork p s = s.onSch (fun g => { g with raised := true, closing := some p, closingMask := bits p.arg 15 0 }) := by
  simp only [raiseWork, h, Bool.false_eq_true, if_false]

/-! ### lintel.lower (R353, R354) -/

theorem lowerWork_waits (h : s.sch.closing ≠ none) :
    lowerWork p s = s.onSch (fun g => { g with waitingLower := g.waitingLower ++ [p] }) := by
  simp only [lowerWork, Option.isSome_iff_ne_none.mpr h, if_true]

theorem lowerWork_now (h : s.sch.closing = none) : lowerWork p s = lowerNow p s := by
  simp only [lowerWork, h, Option.isSome_none, Bool.false_eq_true, if_false]

theorem State.lowerRefusal_eq (r : LowerReq) : s.lowerRefusal r =
    if s.sch.raised = false ∨ s.img.frame.inGroup = true ∧ s.cas.welcomed = false ∨
      s.sch.lowered = true ∧ r.tokensPerPage ≠ s.sch.tokensPerPage ∧ s.pagesHeld = true then some stStateConflict else none := by
  simp [State.lowerRefusal, or_assoc, and_assoc]

section
variable {r : LowerReq} (hr : lowerReq p.payload = some r)
include hr

theorem lowerNow_refused {st : Nat} (h : s.lowerRefusal r = some st) : lowerNow p s = s.refuse p st := by
  simp only [lowerNow, hr, h]

/-- The streams that do not fit the model are paused at once (now) or marked (later); then the other summaries go (x), and admission opens. -/
theorem lowerNow_lowers (h : s.lowerRefusal r = none) {u v x : State} (hu : u = s.recordModel r) {now later : List Stream}
    (hnow : now = (u.str.tab.filter u.mismatched).filter (fun t => !u.pausesLater t))
    (hlater : later = (u.str.tab.filter u.mismatched).filter u.pausesLater)
    (hv : v = later.foldl (fun s t => (s.refusePending t.id.slot).onStream t.id.slot (fun t => { t with lpause := true }))
      (now.foldl (fun s t => (s.refusePending t.id.slot).lintelPause t.id.slot) u))
    (hx : x = (v.str.tab.filter (fun t => t.lintelSum.isSome && t.state != .paused && !t.lpause && t.wait != .summaryEvent)).foldl
      (fun s t => s.dropLintelSum t.id.slot) v) :
    lowerNow p s = ((((x.onSch (fun g => { g with raised := false, shut := false, sumLintel := [] })).onStr
      (fun g => { g with tab := g.tab.map (fun t => { t with lat := t.lat.endLintel s.aon.time }) })).event evLintel 0 r.modelGen
        now.length).done p 0 none none none) := by
  subst hx hv hlater hnow hu
  simp only [lowerNow, hr, h, List.partition_eq_filter_filter, Function.comp_def]

end

end

/-! ### The statement on the lintel -/

/-- Settles O39: a raise by whether the lintel is raised, a lowering by what it finds (the streams marked for a later pause, which ARG2 leaves
out: log 64; a str.pause that is pending is refused: log 43). -/
theorem lintelMoves : Obligations.LintelMoves := by
  unfold Obligations.LintelMoves
  refine ⟨fun dt ap pos s p hd => ?_, fun dt ap pos s p hd => ?_⟩
  · intro w
    have hrun (t : State) (h : raiseWork p w = t) : exec (.lintelRaise dt ap pos) s = .next t := h ▸ exec_of_due rfl rfl rfl hd
    exact ⟨fun h => hrun _ (raiseWork_conflict h), fun h => hrun _ (raiseWork_asks h)⟩
  · intro w
    have hrun (t : State) (h : lowerWork p w = t) : exec (.lintelLower dt ap pos) s = .next t := h ▸ exec_of_due rfl rfl rfl hd
    refine ⟨fun h => hrun _ (lowerWork_waits h), fun hc r hr => ?_⟩
    intro bad
    refine ⟨fun hbad => hrun _ ?_, fun hbad u hu => ?_⟩
    · exact (lowerWork_now hc).trans (lowerNow_refused hr ((w.lowerRefusal_eq r).trans (if_pos hbad)))
    · refine ⟨by rw [hu]; rfl, by rw [hu]; rfl, by rw [hu]; rfl, fun now later hnow hlater v hv x hx => hrun _ ?_⟩
      exact (lowerWork_now hc).trans (lowerNow_lowers hr ((w.lowerRefusal_eq r).trans (if_neg hbad)) hu hnow hlater hv hx)

end Sys2Proof.Machine
end

section
/-! str.open (R162, R308 to R311): what it answers by what it names, what the entry that it builds is, and the statement on it. -/
namespace Sys2Proof.Machine
open Sys2Proof

-- Elaborated in turn: the check of the whole text has no memory for more elaboration threads.
set_option Elab.async false

/-! ### What a str.open names (R309, R310) -/

section
variable {s : State} {p : Pkt} {found : Option (Option (Nat × ChainRec))}

theorem State.openWith_badForm (h : openReq p.payload = none) : s.openWith p found = s.refuse p stBadPacket := by
  simp only [State.openWith, h]

variable {o : OpenReq} (ho : openReq p.payload = some o) {b : State} (hb : b = if o.hasPrefix then s.lookup 16 1 [o.pfx, o.tenant] else s)
include ho hb

theorem State.openWith_notResident (h : b.committed o.profile = none ∨ b.openGram o = none) :
    s.openWith p found = b.refuse p stNotResident := by
  subst hb
  simp only [State.openWith, ho]
  split
  next v g hv hg => exact absurd h (by simp [hv, hg])
  next => rfl

variable {v : Version} {g : Option Gram} (hv : b.committed o.profile = some v) (hg : b.openGram o = some g)
include hv hg

/-- Without a record on this block a str.open asks the other members, when there are any to ask (R444). -/
theorem State.openWith_noRecord (hp : o.hasPrefix = true) (hr : b.findPfx o.pfx o.tenant = none) :
    s.openWith p none = if b.chains then b.startChain p o.pfx o.tenant true else b.refuse p stNotResident := by
  rw [hp, if_pos rfl] at hb
  subst hb
  simp only [State.openWith, ho, hp, if_true, hv, hg, hr, Bool.not_true, Bool.false_eq_true, if_false]

theorem State.openWith_local {r : Option PfxRec}
    (hr : if o.hasPrefix then b.findPfx o.pfx o.tenant = r ∧ r ≠ none else r = none) : s.openWith p found = b.openLocal p o v g r := by
  cases hp : o.hasPrefix with
  | false =>
    rw [hp, if_neg Bool.false_ne_true] at hr hb
    subst hr hb
    simp only [State.openWith, ho, hp, Bool.false_eq_true, if_false, hv, hg, Bool.not_false, if_true]
  | true =>
    rw [hp, if_pos rfl] at hr hb
    obtain ⟨hfind, hne⟩ := hr
    obtain ⟨rec, rfl⟩ := Option.ne_none_iff_exists'.mp hne
    subst hb
    simp only [State.openWith, ho, hp, if_true, hv, hg, hfind, Bool.not_true, Bool.false_eq_true, if_false]

end

section
variable {s : State} {p : Pkt} {o : OpenReq} {v : Version} {g : Option Gram} {r : Option PfxRec}

theorem State.openLocal_refused {st : Nat} (h : s.openRefusal o v (r.map PfxRec.view) = some st) :
    s.openLocal p o v g r = s.refuse p st := by
  simp only [State.openLocal, h]

variable (h : s.openRefusal o v (r.map PfxRec.view) = none)
include h

theorem State.openLocal_noSpace (he : s.buildEntry p o v g = none) : s.openLocal p o v g r = s.refuse p stNoSpace := by
  simp only [State.openLocal, h, he]

theorem State.openLocal_opens {slot : Nat} {u : State} (he : s.buildEntry p o v g = some (slot, u)) :
    s.openLocal p o v g r = (match r with | some r => u.attachPrefix slot r.num | none => u).finishOpen p slot := by
  cases r <;> simp only [State.openLocal, h, he]

end

/-! ### What only moves blocks and stack chunks (R173, R212, R256) -/

/-- The stream table up to where blocks and stack chunks lie, with the slots' generations: what stowing, spilling and refilling keep. -/
def State.coreTable (s : State) : List Stream × List (Nat × Nat) := (s.str.tab.map Stream.core, s.str.gens)

theorem Stream.spill_core (t : Stream) : t.spill.core = t.core := by
  unfold Stream.spill
  split <;> rfl

section
variable {s : State} {slot : Nat}

theorem State.onStream_coreTable {f : Stream → Stream} (hf : ∀ t, (f t).core = t.core) : (s.onStream slot f).coreTable = s.coreTable := by
  have h (t : Stream) : Stream.core (if t.id.slot == slot then f t else t) = t.core := by
    split
    · exact hf t
    · rfl
  simp only [State.coreTable, State.onStream, State.onStr_str, List.map_map, Function.comp_def, h]

theorem State.stow_coreTable : (s.stow slot).coreTable = s.coreTable := by
  unfold State.stow
  split
  · rfl
  · exact State.onStream_coreTable fun _ => rfl

theorem State.spillLow_coreTable (n : Nat) (s : State) : (s.spillLow n).coreTable = s.coreTable := by
  induction n generalizing s with
  | zero => rfl
  | succ n ih =>
    unfold State.spillLow
    split
    · split
      · rfl
      · exact (ih _).trans (State.onStream_coreTable Stream.spill_core)
    · rfl

theorem State.takeStack_coreTable {u : State} (h : s.takeStack slot = some u) : u.coreTable = s.coreTable := by
  unfold State.takeStack at h
  split at h
  · cases h
  · split at h
    · cases h
      exact State.onStream_coreTable fun _ => rfl
    · dsimp only at h
      split at h
      · cases h
      · cases h
        rw [State.spillLow_coreTable, State.onStream_coreTable, State.onStream_coreTable, State.spillLow_coreTable] <;>
          exact fun _ => rfl

theorem State.settleNew_coreTable : (s.settleNew slot).coreTable = s.coreTable := by
  unfold State.settleNew
  split
  next h => exact State.takeStack_coreTable h
  next => exact State.onStream_coreTable fun _ => rfl

end

/-! ### The entry that a str.open builds (R304, R311) -/

theorem State.takeSlot_tab {s u : State} {n : Nat} (h : s.takeSlot = some (n, u)) : u.str.tab = s.str.tab := by
  unfold State.takeSlot at h
  dsimp only at h
  split at h
  · cases h
    rfl
  · split at h
    · cases h
    · cases h
      rfl

/-- A new stream joins the stream table behind the others; its blocks are taken, and the stack of its grammar its chunks. -/
def State.enterStream (slot : Nat) (t : Stream) (g : Option Gram) (s : State) : State :=
  let s1 := (s.onStr (fun x => { x with tab := x.tab ++ [t] })).stow slot
  if g.isSome then s1.settleNew slot else s1

theorem State.enterStream_coreTable (slot : Nat) (t : Stream) (g : Option Gram) (s : State) :
    (s.enterStream slot t g).coreTable = (s.str.tab.map Stream.core ++ [t.core], s.str.gens) := by
  have hstow : ((s.onStr (fun x => { x with tab := x.tab ++ [t] })).stow slot).coreTable =
      (s.str.tab.map Stream.core ++ [t.core], s.str.gens) := by
    rw [State.stow_coreTable]
    simp [State.coreTable]
  unfold State.enterStream
  dsimp only
  split
  · rw [State.settleNew_coreTable, hstow]
  · exact hstow

/-- The entry shows what the packet gives: its identity, its targets and its input; it holds no pages and has generated nothing. -/
theorem newStream_shows (p : Pkt) (o : OpenReq) (v : Version) (g : Option Gram) (slot gen modelGen now : Nat) (stops : List (Nat × Nat)) :
    let t := newStream p o v g slot gen modelGen now stops
    t.id.slot = slot ∧ t.state = .opening ∧ t.id.gen = gen ∧ t.id.tenant = o.tenant ∧ t.id.priority = bits o.dset 5 4 ∧
      t.id.policy = bits o.dset 7 6 ∧ t.id.profile = o.profile ∧ t.id.vuid = v.uid ∧ t.id.ap = p.ap ∧ t.id.ring = p.ring ∧
      t.id.modelGen = modelGen ∧ t.id.pin = o.pin ∧ t.id.maxGen = o.maxGen ∧ t.queue = v.prof.toCanon o.input ∧ t.lat.ttft = o.ttft ∧
      t.lat.tbt = o.tbt ∧ t.kv = [] ∧ t.length = 0 ∧ t.generated = 0 := by
  unfold newStream
  cases v.prof.toCanon o.input <;> simp [Stream.enqueue]

section
variable {b : State} {p : Pkt} {o : OpenReq} {v : Version} {g : Option Gram}

/-- Slot, lost entries, bias blocks, text staging and stop strings decide, in that order, whether the entry is built. -/
theorem State.buildEntry_eq_some {slot : Nat} {u : State} :
    b.buildEntry p o v g = some (slot, u) ↔ ∃ c stops d, b.takeSlot = some (slot, c) ∧
      (c.lostFor o v = false ∧ c.biasFits o.shape.bias = true ∧
        c.unitsFree (textUnits o.input.length (!(o.stopList v).isEmpty) false) = true) ∧
      State.takeStops (o.stopList v) c = some (stops, d) ∧
      u = d.enterStream slot (newStream p o v g slot (d.genAt slot) d.sch.modelGen d.aon.time stops) g := by
  constructor
  · intro h
    unfold State.buildEntry at h
    split at h
    next => cases h
    next n c hslot =>
      split at h
      next => cases h
      next hfits =>
        simp only [Bool.or_eq_true, Bool.not_eq_true', not_or, Bool.not_eq_true, Bool.not_eq_false] at hfits
        obtain ⟨⟨hlost, hbias⟩, htext⟩ := hfits
        split at h
        next => cases h
        next stops d hstops =>
          cases h
          exact ⟨c, stops, d, hslot, ⟨hlost, hbias, htext⟩, hstops, rfl⟩
  · rintro ⟨c, stops, d, hslot, ⟨hlost, hbias, htext⟩, hstops, rfl⟩
    simp only [State.buildEntry, hslot, hlost, hbias, htext, hstops, Bool.not_true, Bool.or_self, Bool.false_eq_true, if_false]
    rfl

theorem State.buildEntry_isSome :
    (b.buildEntry p o v g).isSome = true ↔ ∃ slot c, b.takeSlot = some (slot, c) ∧ c.lostFor o v = false ∧ c.biasFits o.shape.bias = true ∧
      c.unitsFree (textUnits o.input.length (!(o.stopList v).isEmpty) false) = true ∧ (State.takeStops (o.stopList v) c).isSome = true := by
  simp only [Option.isSome_iff_exists, Prod.exists, State.buildEntry_eq_some]
  constructor
  · rintro ⟨slot, u, c, stops, d, hslot, ⟨hlost, hbias, htext⟩, hstops, -⟩
    exact ⟨slot, c, hslot, hlost, hbias, htext, stops, d, hstops⟩
  · rintro ⟨slot, c, hslot, hlost, hbias, htext, stops, d, hstops⟩
    exact ⟨slot, _, c, stops, d, hslot, ⟨hlost, hbias, htext⟩, hstops, rfl⟩

/-- Neither the slot taken nor the stop strings change another stream or the model, so the entry is the new stream behind the others. -/
theorem State.buildEntry_enters {slot : Nat} {u : State} (h : b.buildEntry p o v g = some (slot, u)) :
    ∃ now stops, u.str.tab.map Stream.core =
      b.str.tab.map Stream.core ++ [(newStream p o v g slot (u.genAt slot) b.sch.modelGen now stops).core] := by
  obtain ⟨c, stops, d, hslot, -, hstops, rfl⟩ := State.buildEntry_eq_some.mp h
  have hstr : d.str = c.str := (State.takeStops_within hstops).same .str rfl
  have hsch : d.sch = b.sch := ((State.takeStops_within hstops).same .sch rfl).trans ((State.takeSlot_within hslot).same .sch rfl)
  refine ⟨d.aon.time, stops, ?_⟩
  generalize newStream p o v g slot = new
  obtain ⟨htab, hgens⟩ := Prod.ext_iff.mp (d.enterStream_coreTable slot (new (d.genAt slot) d.sch.modelGen d.aon.time stops) g)
  have hgen : (d.enterStream slot (new (d.genAt slot) d.sch.modelGen d.aon.time stops) g).genAt slot = d.genAt slot :=
    congrArg (fun l => (assoc l slot).getD 0) hgens
  rw [hgen, ← hsch, ← State.takeSlot_tab hslot, ← hstr]
  exact htab

end

/-! ### The statement on str.open -/

/-- Settles O26: a str.open by what it names (a profile and a grammar of the committed set: log 35) and by what fits, when its entry is built, and
what the entry is. -/
theorem streamOpened : Obligations.StreamOpened := by
  unfold Obligations.StreamOpened
  refine ⟨fun dt ap pos s p hd => ?_, fun p o v g b => ⟨State.buildEntry_isSome, fun slot u h => ?_⟩⟩
  · intro w
    have hrun (t : State) (h : w.openWith p none = t) : exec (.strOpen dt ap pos) s = .next t := h ▸ exec_of_due_beryl rfl rfl rfl hd
    refine ⟨fun h => hrun _ (State.openWith_badForm h), fun o ho => ?_⟩
    intro b
    refine ⟨fun h => hrun _ (State.openWith_notResident ho rfl h),
      fun v g hv hg => ⟨fun hp hr => hrun _ (State.openWith_noRecord ho rfl hv hg hp hr), fun r hr => ?_⟩⟩
    have hlocal : w.openWith p none = b.openLocal p o v g r := State.openWith_local ho rfl hv hg hr
    refine ⟨fun st hst => hrun _ (hlocal.trans (State.openLocal_refused hst)), fun hok hno => hrun _ ?_, fun hok hsome => ?_⟩
    · exact hlocal.trans (State.openLocal_noSpace hok (by simpa using hno))
    · obtain ⟨⟨slot, u⟩, he⟩ := Option.isSome_iff_exists.mp hsome
      exact ⟨slot, u, he, hrun _ (hlocal.trans (State.openLocal_opens hok he))⟩
  · obtain ⟨now, stops, htab⟩ := State.buildEntry_enters h
    exact ⟨_, htab, newStream_shows ..⟩

end Sys2Proof.Machine
end

section
/-! Pauses (R334 to R337, R372): what str.pause, PAUSE_TAKES_EFFECT, KV_TIER_PAUSE_COMPLETE and PAUSE_EXPIRED answer, case by case, what a paused
stream holds, and the statement on them. -/
namespace Sys2Proof.Machine
open Sys2Proof

-- Elaborated in turn: the check of the whole text has no memory for more elaboration threads.
set_option Elab.async false

/-! ### str.pause (R334) -/

/-- Whether a str.pause moves its stream to the KV tier: it says so, or leaves it to the stream's own mode. -/
def pausesToTier (p : Pkt) (t : Stream) : Bool := rd p.payload 0 1 == 2 || (rd p.payload 0 1 == 0 && t.id.pmode == 1)

theorem pausesToTier_iff {p : Pkt} {t : Stream} :
    pausesToTier p t = true ↔ rd p.payload 0 1 = 2 ∨ (rd p.payload 0 1 = 0 ∧ t.id.pmode = 1) := by
  simp [pausesToTier]

/-- Only a summary pause that gives an address or a length is out of form. -/
theorem pauseForm_ok {p : Pkt} {t : Stream} (h : pausesToTier p t = true ∨ ¬(rd p.payload 16 8 ≠ 0 ∨ rd p.payload 24 8 ≠ 0)) :
    ¬(!pausesToTier p t && (rd p.payload 16 8 != 0 || rd p.payload 24 8 != 0)) = true := by
  simpa [or_iff_not_imp_left] using h

section
variable {s w : State} {p : Pkt} {clash : Option Nat} {areaOk : Bool} {t : Stream} (hw : s.collide (slotOf p.stream) clash = w)
  (ht : w.live? p.stream = some t)
include hw ht

theorem pauseWork_eq : pauseWork areaOk clash p s =
    if (!pausesToTier p t && (rd p.payload 16 8 != 0 || rd p.payload 24 8 != 0)) = true then w.refuse p stBadPacket
    else if t.pausePending.isSome = true then w.refuse p stStateConflict
    else if (pausesToTier p t && decide (rd p.payload 24 8 < t.kv.length * 262144) || !areaOk) = true then w.refuse p stNoSpace
    else w.onStream t.id.slot (fun t' => { t' with pausePending := some (some p,
      if pausesToTier p t = true then .tier (rd p.payload 8 4) (rd p.payload 16 8) (rd p.payload 24 8) else .summary (rd p.payload 8 4)) }) := by
  simp only [pauseWork, hw, ht]
  rfl

theorem pauseWork_badForm (hmode : ¬pausesToTier p t = true) (hbad : rd p.payload 16 8 ≠ 0 ∨ rd p.payload 24 8 ≠ 0) :
    pauseWork areaOk clash p s = w.refuse p stBadPacket := by
  rw [pauseWork_eq hw ht, if_pos (by simpa [hmode] using hbad)]

variable (hform : pausesToTier p t = true ∨ ¬(rd p.payload 16 8 ≠ 0 ∨ rd p.payload 24 8 ≠ 0))
include hform

theorem pauseWork_conflict (hp : t.pausePending ≠ none) : pauseWork areaOk clash p s = w.refuse p stStateConflict := by
  rw [pauseWork_eq hw ht, if_neg (pauseForm_ok hform), if_pos (Option.isSome_iff_ne_none.mpr hp)]

variable (hp : t.pausePending = none)
include hp

theorem pauseWork_noSpace (hfull : pausesToTier p t = true ∧ rd p.payload 24 8 < t.kv.length * 262144 ∨ areaOk = false) :
    pauseWork areaOk clash p s = w.refuse p stNoSpace := by
  rw [pauseWork_eq hw ht, if_neg (pauseForm_ok hform), if_neg (by simp [hp]), if_pos (by simpa using hfull)]

theorem pauseWork_pends (hroom : pausesToTier p t = true → t.kv.length * 262144 ≤ rd p.payload 24 8) (harea : areaOk = true) :
    pauseWork areaOk clash p s = w.onStream t.id.slot (fun t' => { t' with pausePending := some (some p,
      if pausesToTier p t = true then .tier (rd p.payload 8 4) (rd p.payload 16 8) (rd p.payload 24 8) else .summary (rd p.payload 8 4)) }) := by
  rw [pauseWork_eq hw ht, if_neg (pauseForm_ok hform), if_neg (by simp [hp]), if_neg (by simpa [harea] using hroom)]

end

/-! ### PAUSE_TAKES_EFFECT (R335, R372) -/

section
variable {s b : State} {dt slot : Nat} {t : Stream} (hb : s.elapse dt = b) (ht : b.stream? slot = some t)
include hb ht

theorem execPauseTakesEffect_early (h : b.pauseDue t = false) : execPauseTakesEffect dt slot s = .next b := by
  simp only [execPauseTakesEffect, hb, ht, h, Bool.false_eq_true, if_false]

section
variable (h : b.pauseDue t = true) {q : Option Pkt} {ttl : Nat}
include h

theorem execPauseTakesEffect_summary (hp : t.pausePending = some (q, .summary ttl)) :
    execPauseTakesEffect dt slot s = .next (((b.dropTree slot true).onStream slot (fun t =>
      { t with wait := .summaryStep, lintelSum := none })).onSch (fun g => { g with sumWanted := g.sumWanted ++ [slot] })) := by
  simp only [execPauseTakesEffect, hb, ht, h, if_true, State.takePause, hp]

theorem execPauseTakesEffect_tier {addr len : Nat} (hp : t.pausePending = some (q, .tier ttl addr len)) :
    execPauseTakesEffect dt slot s = .next ((((b.dropTree slot true).transit slot).onStream slot (fun t =>
      { t with wait := .tierWrites })).emit (.tierWrite slot addr t.kv)) := by
  simp only [execPauseTakesEffect, hb, ht, h, if_true, State.takePause, hp]

end

/-! ### KV_TIER_PAUSE_COMPLETE (R335) -/

theorem execKvTierPauseComplete_pauses {q : Option Pkt} {ttl addr len : Nat} (hp : t.pausePending = some (q, .tier ttl addr len))
    (hw : t.wait = .tierWrites) {r : PauseRec} (hr : r = {
      pmode := 1, ret := t.state, sumSize := 0, sumHandle := 0, sumLoc := 0, expiry := b.aon.time + ttl * 1000000000,
      tierAddr := addr, tierPages := t.kv.length }) :
    execKvTierPauseComplete dt slot s = .next ((((b.setPaused slot r).freePages t.kv).onStream slot
      (fun t => { t with kv := [] })).pauseDone q slot (t.kv.length * 262144) r.expiry) := by
  subst hr
  simp only [execKvTierPauseComplete, hb, ht, hp, hw, bne_self_eq_false, Bool.false_eq_true, if_false]

theorem execKvTierPauseComplete_idle (hw : t.wait ≠ .tierWrites) : execKvTierPauseComplete dt slot s = .next b := by
  simp only [execKvTierPauseComplete, hb, ht, bne_iff_ne.mpr hw, if_true]
  split <;> rfl

/-! ### PAUSE_EXPIRED (R337) -/

theorem execPauseExpired_closes {r : PauseRec} (hr : t.pause = some r) (hs : t.state = .paused) (he : r.expiry ≠ 2 ^ 64 - 1)
    (hle : r.expiry ≤ b.aon.time) :
    execPauseExpired dt slot s = .next ((b.eventFull evPauseExpired t.handle 0xFFFF t.handle r.pmode 0).closeStream slot none) := by
  simp only [execPauseExpired, hb, ht, hr, hs, beq_self_eq_true, allOnes64, bne_iff_ne.mpr he, decide_eq_true hle, Bool.and_self, if_true]

theorem execPauseExpired_idle (h : t.state ≠ .paused ∨ ∀ r, t.pause = some r → r.expiry = 2 ^ 64 - 1 ∨ b.aon.time < r.expiry) :
    execPauseExpired dt slot s = .next b := by
  simp only [execPauseExpired, hb, ht]
  split
  next r hs hr =>
    have hlate : (r.expiry != allOnes64 && decide (r.expiry ≤ b.aon.time)) = false := by
      have hno := h.resolve_left (not_not.mpr (eq_of_beq hs)) r hr
      rcases hno with hno | hno
      · simp [allOnes64, hno]
      · simp [Nat.not_le.mpr hno]
    rw [hlate, if_neg Bool.false_ne_true]
  next => rfl

end

/-! ### A paused stream (R213, R256, R335, R336) -/

/-- Stowing finds the stream of the slot with its blocks brought to what it needs. -/
theorem State.stream?_stow {s : State} {slot : Nat} {t : Stream} (h : s.stream? slot = some t) :
    (s.stow slot).stream? slot = some { t with blocks := s.fit t } := by
  have hslot := State.stream?_slot h
  simp only [State.stow, h]
  exact State.stream?_onStream (f := fun t' => { t' with blocks := s.fit t }) h hslot

/-- The stream that a pause sets PAUSED under a record, at a time, before its blocks are brought to what it still needs. -/
def Stream.paused (t : Stream) (now : Nat) (r : PauseRec) : Stream :=
  { t.giveText with
    state := .paused, pause := some (t.recordText r), pausePending := none, wait := .none, lintelSum := none,
    parse := { t.parse.spillAll with refill := false }, shutter := { kind := .pending, guid := t.parse.guid },
    id := { t.id with biasHeld := false }, lat := t.lat.endAll now }

theorem State.stream?_setPaused {s : State} {slot : Nat} {t : Stream} (r : PauseRec) (h : s.stream? slot = some t) :
    ∃ blocks, (s.setPaused slot r).stream? slot = some { t.paused s.aon.time (s.recordShape t r) with blocks := blocks } := by
  have hslot := State.stream?_slot h
  exact ⟨_, State.stream?_stow (State.stream?_onStream (s := s.dropBuilds slot)
    (f := fun t => t.paused s.aon.time (s.recordShape t r)) h hslot)⟩

/-! ### The statement on pauses -/

/-- Settles O28: str.pause by its form, what is pending and what fits (a second pause: log 43), the commands that carry it out (the expiry
counts from the completion: log 45), what a paused stream holds, and its expiry. -/
theorem streamPauses : Obligations.StreamPauses := by
  unfold Obligations.StreamPauses
  refine ⟨fun dt ap pos areaOk clash s p hd => ?_, fun dt slot s t ht => ?_, fun slot s t r ht => ?_⟩
  · intro w b bad t ht tier
    have hrun (u : State) (h : pauseWork areaOk clash p (s.atWork (.strPause dt ap ⟨pos, areaOk, clash⟩) p) = u) :
        exec (.strPause dt ap ⟨pos, areaOk, clash⟩) s = .next u := h ▸ exec_of_due rfl rfl rfl hd
    have htier : pausesToTier p t = true ↔ tier := pausesToTier_iff
    refine ⟨fun hmode hbad => hrun _ ?_, fun hform hp => hrun _ ?_, fun hform hp hfull => hrun _ ?_, fun hmode hp hroom harea => hrun _ ?_,
      fun hmode hgood hp harea => hrun _ ?_⟩
    · exact pauseWork_badForm rfl ht (htier.not.mpr hmode) hbad
    · exact pauseWork_conflict rfl ht (hform.imp_left htier.mpr) hp
    · exact pauseWork_noSpace rfl ht (hform.imp_left htier.mpr) hp (hfull.imp_left (And.imp_left htier.mpr))
    · rw [pauseWork_pends rfl ht (.inl (htier.mpr hmode)) hp (fun _ => hroom) harea, if_pos (htier.mpr hmode)]
    · rw [pauseWork_pends rfl ht (.inr hgood) hp (fun h => absurd (htier.mp h) hmode) harea, if_neg (htier.not.mpr hmode)]
  · intro b
    exact ⟨execPauseTakesEffect_early rfl ht, fun h q ttl => execPauseTakesEffect_summary rfl ht h,
      fun h q ttl addr len => execPauseTakesEffect_tier rfl ht h, fun q ttl addr len hp hw r => execKvTierPauseComplete_pauses rfl ht hp hw,
      execKvTierPauseComplete_idle rfl ht, fun r => execPauseExpired_closes rfl ht, execPauseExpired_idle rfl ht⟩
  · obtain ⟨blocks, hx⟩ := State.stream?_setPaused r ht
    refine ⟨_, _, hx, rfl, ?_⟩
    and_intros <;> rfl

end Sys2Proof.Machine
end

section
/-! Resuming and pinning (R324, R338, R339, R355): what str.resume, PAGE_RESTORED, PAGE_SUMMARY and str.pin answer, case by case, and the
statement on them. -/
namespace Sys2Proof.Machine
open Sys2Proof

-- Elaborated in turn: the check of the whole text has no memory for more elaboration threads.
set_option Elab.async false

/-! ### A resume on this block (R339) -/

/-- A stream paused in the KV tier takes pages again: its text staging and bias blocks are back, and its KV is asked for. -/
def State.readPages (slot addr : Nat) (p : Option Pkt) (pages : List Nat) (s : State) : State :=
  ((State.stow slot (s.onStream slot (fun t => { t.stopClock.takeText with
    kv := pages, wait := .restored, waitPkt := p, id := { t.id with biasHeld := true } }))).setChain .transit pages).emit
      (.tierRead slot addr pages)

section
variable {s : State} {slot : Nat} {p : Option Pkt} {t : Stream} {r : PauseRec} (ht : s.stream? slot = some t) (hr : t.pause = some r)
include ht hr

theorem State.resumeHere_full (hf : s.resumeFits t = false) : s.resumeHere slot p = none := by
  simp only [State.resumeHere, ht, hr, hf, Bool.not_false, if_true]

variable (hf : s.resumeFits t = true)
include hf

theorem State.resumeHere_summary (hm : r.pmode ≠ 1) :
    s.resumeHere slot p = some ((s.onStream slot Stream.stopClock).finishResume slot p) := by
  simp only [State.resumeHere, ht, hr, hf, Bool.not_true, Bool.false_eq_true, if_false, bne_iff_ne.mpr hm, if_true]

variable (hm : r.pmode = 1)
include hm

/-- A stream that was received to be resumed here has its pages already. -/
theorem State.resumeHere_ownPages (hk : t.kv.length = r.tierPages) :
    s.resumeHere slot p = some (s.readPages slot r.tierAddr p t.kv) := by
  simp only [State.resumeHere, ht, hr, hf, hm, hk, Bool.not_true, bne_self_eq_false, beq_self_eq_true, Bool.false_eq_true, if_false, if_true,
    State.readPages]

variable (hk : t.kv.length ≠ r.tierPages)
include hk

theorem State.resumeHere_noPages (hp : s.takePages r.tierPages = none) : s.resumeHere slot p = none := by
  simp only [State.resumeHere, ht, hr, hf, hm, Bool.not_true, bne_self_eq_false, beq_eq_false_iff_ne.mpr hk, Bool.false_eq_true, if_false, hp]

theorem State.resumeHere_takesPages {pages : List Nat} {u : State} (hp : s.takePages r.tierPages = some (pages, u)) :
    s.resumeHere slot p = some (u.readPages slot r.tierAddr p pages) := by
  simp only [State.resumeHere, ht, hr, hf, hm, Bool.not_true, bne_self_eq_false, beq_eq_false_iff_ne.mpr hk, Bool.false_eq_true, if_false, hp,
    State.readPages]

end

/-! ### str.resume (R338) -/

section
variable {s : State} {p : Pkt} {t : Stream} (ht : s.live? p.stream = some t)
include ht

theorem resumeWork_noDest (ha : p.arg.testBit 6 = true) (hd : s.validDest (bits p.arg 5 0) = false) :
    resumeWork p s = s.refuse p stBadPacket := by
  simp [resumeWork, ht, bit, ha, hd]

variable (hd : p.arg.testBit 6 = false ∨ s.validDest (bits p.arg 5 0) = true) (hp : t.pausePending = none) (hw : t.wait = .none)
include hd hp hw

theorem resumeWork_eq : resumeWork p s =
    if ((t.id.pin && t.id.modelGen != s.sch.modelGen) || !s.canonAgrees t || (!p.arg.testBit 6 && s.cacheOnly)) = true
    then s.refuse p stStateConflict
    else if p.arg.testBit 6 = true
    then s.onStream t.id.slot (fun t => { t.stopClock with pausePending := some (some p, .migrate (bits p.arg 5 0)) })
    else (s.resumeHere t.id.slot (some p)).getD (s.refuse p stNoSpace) := by
  have hdest : (p.arg.testBit 6 && !s.validDest (bits p.arg 5 0)) = false := by
    rcases hd with h | h <;> simp [h]
  simp only [resumeWork, ht, bit, hdest, hp, hw, Option.isSome_none, bne_self_eq_false, Bool.or_self, Bool.false_eq_true, if_false]
  rfl

theorem resumeWork_conflict (h : t.id.pin = true ∧ t.id.modelGen ≠ s.sch.modelGen ∨ s.canonAgrees t = false ∨
    p.arg.testBit 6 = false ∧ s.cacheOnly = true) : resumeWork p s = s.refuse p stStateConflict := by
  rw [resumeWork_eq ht hd hp hw, if_pos (by simpa [or_assoc] using h)]

variable (hg : t.id.pin = false ∨ t.id.modelGen = s.sch.modelGen) (hc : s.canonAgrees t = true)
include hg hc

theorem resumeWork_away (ha : p.arg.testBit 6 = true) :
    resumeWork p s = s.onStream t.id.slot (fun t => { t.stopClock with pausePending := some (some p, .migrate (bits p.arg 5 0)) }) := by
  rw [resumeWork_eq ht hd hp hw, if_neg (by rcases hg with h | h <;> simp [h, hc, ha]), if_pos ha]

theorem resumeWork_here (ha : p.arg.testBit 6 = false) (ho : s.cacheOnly = false) :
    resumeWork p s = (s.resumeHere t.id.slot (some p)).getD (s.refuse p stNoSpace) := by
  rw [resumeWork_eq ht hd hp hw, if_neg (by rcases hg with h | h <;> simp [h, hc, ha, ho]), if_neg (by simp [ha])]

end

/-! ### PAGE_RESTORED and PAGE_SUMMARY (R324) -/

section
variable {s b : State} {dt slot : Nat} {t : Stream} (hb : s.elapse dt = b) (ht : b.stream? slot = some t)
include hb ht

theorem execPageRestored_resumes (h : t.wait = .restored) :
    execPageRestored dt slot s = .next ((b.setChain .stream t.kv).finishResume slot t.waitPkt) := by
  simp only [execPageRestored, hb, ht, h, beq_self_eq_true, if_true]

theorem execPageRestored_idle (h : t.wait ≠ .restored) : execPageRestored dt slot s = .next b := by
  simp only [execPageRestored, hb, ht, beq_eq_false_iff_ne.mpr h, Bool.false_eq_true, if_false]

/-- A summary that a pause waits for is a result of its step and ends the pause, at once or when the step has passed the fence. -/
theorem execPageSummary_awaited (hw : t.wait = .summaryEvent) (hs : t.state ≠ .closed) {handle size loc : Nat} {u : State}
    (hu : u = b.onSch (fun g => { g with steps := g.steps.map (fun x =>
      if x.desc.entries.any (fun e => e.slot == slot && e.kind == 3) && !x.reported.contains slot then
        { x with reported := x.reported ++ [slot], lastResult := some b.aon.time, verdict := if x.verdict == .replaying then .waiting else x.verdict }
      else x) })) :
    execPageSummary dt slot handle size loc s =
      .next ((u.onStream slot (fun t => { t with lintelSum := some (size, handle, loc) })).finishSummary slot) := by
  have htu : u.stream? slot = some t := by
    subst hu
    exact ht
  simp only [execPageSummary, hb, ← hu, htu, hw, bne_iff_ne.mpr hs, beq_self_eq_true, Bool.true_or, Bool.and_self, if_true]

end

/-! ### str.pin (R355) -/

section
variable {s w : State} {p : Pkt} {clash : Option Nat} (hw : s.collide (slotOf p.stream) clash = w)
include hw

theorem pinWork_pins (h : p.arg.testBit 0 = true) : pinWork clash p s = (w.onHandle p.stream (fun t =>
    { t with id := { t.id with pin := true, modelGen := w.sch.modelGen }, lat := t.lat.endLintel w.aon.time })).done p 0 none none none := by
  simp only [pinWork, hw, bit, h, if_true]

theorem pinWork_unpins (h : p.arg.testBit 0 = false) : pinWork clash p s = (w.onHandle p.stream (fun t =>
    { t with
      id := { t.id with pin := false },
      lat := { t.lat with
        lintelSince := if w.closed = true ∧ t.state = .ready then some (t.lat.lintelSince.getD w.aon.time) else t.lat.lintelSince } })).done
          p 0 none none none := by
  simp only [pinWork, hw, bit, h, Bool.false_eq_true, if_false, Bool.and_eq_true, beq_iff_eq]

end

/-! ### The statement on resuming and pinning -/

/-- Settles O29: str.resume by its destination, the model and what fits, the two page events that end a resume and a summary pause, and
str.pin. -/
theorem streamResumes : Obligations.StreamResumes := by
  unfold Obligations.StreamResumes
  refine ⟨fun dt ap pos s p hd => ?_, fun dt slot s t ht => ?_, fun dt ap pos clash s p hd => ?_⟩
  · intro w t ht hslot away dest
    have hrun (u : State) (h : resumeWork p w = u) : exec (.strResume dt ap pos) s = .next u := h ▸ exec_of_due rfl rfl rfl hd
    refine ⟨fun ha hv => hrun _ (resumeWork_noDest ht ha hv), fun hv hp hw => ⟨fun h => hrun _ (resumeWork_conflict ht hv hp hw h),
      fun hg hc => ⟨fun ha => hrun _ (resumeWork_away ht hv hp hw hg hc ha), fun ha ho r hr => ?_⟩⟩⟩
    have hhere (o : Option State) (h : w.resumeHere t.id.slot (some p) = o) :
        exec (.strResume dt ap pos) s = .next (o.getD (w.refuse p stNoSpace)) :=
      hrun _ (h ▸ resumeWork_here ht hv hp hw hg hc ha ho)
    intro taken
    refine ⟨fun hf => hhere none (State.resumeHere_full hslot hr hf), fun hf hm hk hno => hhere none ?_, fun hf hm hk hsome => ?_,
      fun hf hm hk => hhere (some _) (State.resumeHere_ownPages hslot hr hf hm hk),
      fun hf hm => hhere (some _) (State.resumeHere_summary hslot hr hf hm)⟩
    · exact State.resumeHere_noPages hslot hr hf hm hk (by simpa using hno)
    · obtain ⟨⟨pages, u⟩, hpages⟩ := Option.isSome_iff_exists.mp hsome
      exact ⟨pages, u, hpages, hhere (some _) (State.resumeHere_takesPages hslot hr hf hm hk hpages)⟩
  · intro b
    exact ⟨execPageRestored_resumes rfl ht, execPageRestored_idle rfl ht, fun hw hs handle size loc u => execPageSummary_awaited rfl ht hw hs⟩
  · intro w
    have hrun (u : State) (h : pinWork clash p (s.atWork (.strPin dt ap ⟨pos, clash⟩) p) = u) :
        exec (.strPin dt ap ⟨pos, clash⟩) s = .next u := h ▸ exec_of_due rfl rfl rfl hd
    exact ⟨fun h => hrun _ (pinWork_pins rfl h), fun h => hrun _ (pinWork_unpins rfl h)⟩

end Sys2Proof.Machine
end

section
/-! Migration (R305, R345 to R351, R377, R378): what str.migrate, MIGRATION_SEND, MIGRATION_ANSWER, PACKAGE, SEAL_NOTICE and PAGE_MOVED answer,
case by case, and the statement on them. -/
namespace Sys2Proof.Machine
open Sys2Proof

-- Elaborated in turn: the check of the whole text has no memory for more elaboration threads.
set_option Elab.async false

/-! ### str.migrate (R345) -/

section
variable {s w : State} {p : Pkt} {clash : Option Nat} {t : Stream} (hw : s.collide (slotOf p.stream) clash = w)
  (ht : w.live? p.stream = some t)
include hw ht

theorem migrateWork_noDest (hd : w.validDest (bits p.arg 5 0) = false) : migrateWork clash p s = w.refuse p stBadPacket := by
  simp only [migrateWork, hw, ht, hd, Bool.not_false, if_true]

variable (hd : w.validDest (bits p.arg 5 0) = true)
include hd

theorem migrateWork_conflict (h : t.pausePending ≠ none ∨ t.wait ≠ .none) : migrateWork clash p s = w.refuse p stStateConflict := by
  have hbusy : (t.pausePending.isSome || t.wait != .none) = true := by
    simpa [Option.isSome_iff_ne_none] using h
  simp only [migrateWork, hw, ht, hd, hbusy, Bool.not_true, Bool.false_eq_true, if_false, if_true]

theorem migrateWork_pends (hp : t.pausePending = none) (hwait : t.wait = .none) :
    migrateWork clash p s = w.onStream t.id.slot (fun t => { t with pausePending := some (some p, .migrate (bits p.arg 5 0)) }) := by
  simp only [migrateWork, hw, ht, hd, hp, hwait, Option.isSome_none, bne_self_eq_false, Bool.or_self, Bool.not_true, Bool.false_eq_true, if_false]

end

section
variable {s b : State} {dt slot : Nat} {t : Stream} (hb : s.elapse dt = b) (ht : b.stream? slot = some t)
include hb ht

/-! ### MIGRATION_SEND (R346) -/

theorem execMigrationSend_sends {q : Option Pkt} {d : Nat} {resume : Bool}
    (hr : resume = match q with | some q => q.opcode == 0x0305 | none => false) (hp : t.pausePending = some (q, .migrate d)) :
    execMigrationSend dt slot s = .next (if b.pauseDue t then b.sendPackage slot d false resume .migAnswer else b) := by
  subst hr
  cases q <;> simp only [execMigrationSend, hb, ht, hp]

theorem execMigrationSend_idle (hp : t.pausePending = none) : execMigrationSend dt slot s = .next b := by
  simp only [execMigrationSend, hb, ht, hp]

/-! ### MIGRATION_ANSWER (R305, R349) -/

variable (hs : t.state ≠ .opening)
include hs

theorem execMigrationAnswer_refused (hw : t.wait = .migAnswer ∨ t.wait = .sealedKv) {st : Nat} {u : State}
    (hu : u = (b.onStream slot (fun x => { x with
      pausePending := none, wait := .none, migDest := if x.wait = .sealedKv then x.migDest else none })).setChain .stream t.kv) :
    execMigrationAnswer dt slot (.refused st) s =
      .next ((match t.migPkt with | some p => u.refuse p st | none => u).pauseDeferred slot) := by
  have hwaits : (t.state != .opening && (t.wait == .migAnswer || t.wait == .sealedKv)) = true := by
    simpa [hs] using hw
  subst hu
  cases hq : t.migPkt <;>
    simp only [execMigrationAnswer, hb, ht, hwaits, Bool.not_true, Bool.false_eq_true, if_false, State.migRefused, hq, beq_iff_eq]

theorem execMigrationAnswer_accepted (hw : t.wait = .migAnswer) {h : Nat} {u : State}
    (hu : u = (b.releaseStream slot).onStr (fun g => { g with
      forwards := g.forwards ++ [{ slot := slot, gen := t.id.gen, dest := t.migDest.getD 0, newHandle := h }] })) :
    execMigrationAnswer dt slot (.accepted h) s = .next (match t.migPkt with
      | some p => u.done p 0 (some (t.migDest.getD 0 + h * 2 ^ 32)) none none | none => u) := by
  have hwaits : (t.state != .opening && (t.wait == .migAnswer || t.wait == .sealedKv)) = true := by
    simp [hs, hw]
  have hany : b.str.tab.any (fun t => t.id.slot == slot && t.wait == .migAnswer) = true :=
    List.any_eq_true.mpr ⟨t, List.mem_of_find?_eq_some ht, by simp [State.stream?_slot ht, hw]⟩
  subst hu
  cases hq : t.migPkt <;>
    simp only [execMigrationAnswer, hb, ht, hwaits, hany, Bool.not_true, Bool.false_eq_true, if_false, if_true, State.migAccepted, hq]

end

/-! ### PACKAGE and SEAL_NOTICE (R346, R347, R351, R377, R378) -/

section
variable {s b : State} {dt : Nat} {hdr : MsgHdr} (hb : s.elapse dt = b) (hh : b.hears hdr false)
include hb hh

theorem execPackage_received {body : PkgBody} (ha : body.abandon = false) :
    execPackage dt hdr body s = .next (b.receivePackage hdr.source body) := by
  simp only [execPackage, hb, State.hear_of_hears hh, ha, Bool.false_eq_true, if_false]

theorem execPackage_abandoned {body : PkgBody} (ha : body.abandon = true) :
    execPackage dt hdr body s = .next ((b.cas.held.filter (fun p => p.source == hdr.source && p.body.oldHandle == body.oldHandle)).foldl
      (fun s p => s.voidHeld p) b) := by
  simp only [execPackage, hb, State.hear_of_hears hh, ha, if_true, State.abandonHeld]

theorem execSealNotice_settles (sealId kind : Nat) : execSealNotice dt hdr sealId kind s =
    .next ((b.cas.held.filter (fun p => p.isHeld && p.source == hdr.source && p.body.sealId == sealId)).foldl
      (fun s p => if kind = 1 then s.clearHeld p else if kind = 2 then s.voidHeld p else s) b) := by
  simp only [execSealNotice, hb, State.hear_of_hears hh, beq_iff_eq]

end

/-! ### PAGE_MOVED (R324) -/

section
variable {s b : State} {dt slot : Nat} (hb : s.elapse dt = b)
include hb

theorem execPageMoved_idle (h : b.cas.held.find? (fun p => p.slot == slot && !p.arrived) = none) :
    execPageMoved dt slot s = .next b := by
  simp only [execPageMoved, hb, h]

theorem execPageMoved_settles {p : Sealed} (h : b.cas.held.find? (fun p => p.slot == slot && !p.arrived) = some p) :
    execPageMoved dt slot s = .next ((b.onCas (fun c => { c with held := c.held.map (fun x =>
      if x.slot = slot then { p with arrived := true } else x) })).settleHeld { p with arrived := true }) := by
  simp only [execPageMoved, hb, h, beq_iff_eq]

end

/-! ### The statement on migration -/

/-- Settles O30: str.migrate by its destination and what is pending, the package sent and the answer to it at the source, and the messages and
the KV that settle a package at the destination (a source's word that it abandons one: log 52). -/
theorem streamMoves : Obligations.StreamMoves := by
  unfold Obligations.StreamMoves
  refine ⟨fun dt ap pos clash s p hd => ?_, fun dt slot s t ht => ?_, fun dt s hdr => ?_⟩
  · intro w d t ht
    have hrun (u : State) (h : migrateWork clash p (s.atWork (.strMigrate dt ap ⟨pos, clash⟩) p) = u) :
        exec (.strMigrate dt ap ⟨pos, clash⟩) s = .next u := h ▸ exec_of_due rfl rfl rfl hd
    exact ⟨fun hv => hrun _ (migrateWork_noDest rfl ht hv), fun hv h => hrun _ (migrateWork_conflict rfl ht hv h),
      fun hv hp hw => hrun _ (migrateWork_pends rfl ht hv hp hw)⟩
  · intro b
    exact ⟨fun q d => execMigrationSend_sends rfl ht rfl, execMigrationSend_idle rfl ht,
      fun hs hw st u => execMigrationAnswer_refused rfl ht hs hw, fun hs hw h u => execMigrationAnswer_accepted rfl ht hs hw⟩
  · intro b
    exact ⟨fun hh => ⟨fun body => execPackage_received rfl hh, fun body => execPackage_abandoned rfl hh, execSealNotice_settles rfl hh⟩,
      fun slot => execPageMoved_idle rfl, fun slot p => execPageMoved_settles rfl⟩

end Sys2Proof.Machine
end

section
/-! Draft trees (R356 to R371): what spec.tree, its REPLY and TREE_RESOLVE_ACK answer, case by case, and the statement on them. -/
namespace Sys2Proof.Machine
open Sys2Proof

-- Elaborated in turn: the check of the whole text has no memory for more elaboration threads.
set_option Elab.async false

/-! ### A tree whose tokens may be forked (R213, R357 to R359) -/

theorem treeChunks_eq (u : Stream) (n : Nat) : treeChunks u n = if u.parse.gstate = .active then 4 * n else 0 := by
  simp only [treeChunks, beq_iff_eq]

section
variable {p : Pkt} {t : Stream} {ns : List (Nat × Nat)} {s : State}

theorem treeEntered_noStack (h0 : s.treeStart t = none) : treeEntered p t ns s = s.refuse p stNoSpace := by
  simp only [treeEntered, h0]

variable {s0 : State} (h0 : s.treeStart t = some s0) {u : Stream} (hu : s0.stream? t.id.slot = some u)
include h0 hu

theorem treeEntered_noRoom (h : s0.freeTree = none ∨ s0.chunksFree < treeChunks u ns.length) :
    treeEntered p t ns s = s.refuse p stNoSpace := by
  simp only [treeEntered, h0, hu]
  cases hr : s0.freeTree with
  | none => rfl
  | some record =>
    have hc : s0.chunksFree < treeChunks u ns.length := h.resolve_left (by simp [hr])
    simp only [treePlaced, List.length_map, hc, if_true]

theorem treeEntered_forks {record : Nat} (hr : s0.freeTree = some record) (hc : treeChunks u ns.length ≤ s0.chunksFree) :
    treeEntered p t ns s = treeForked p u record s0
      (s0.fork u record (ns.map (fun n => (n.1, (s.vocabOf t).prof.m2c.getD n.2 0))) []) := by
  simp only [treeEntered, h0, hu, hr, treePlaced, List.length_map, Nat.not_lt.mpr hc, if_false]

end

/-! ### spec.tree (R356, R357) -/

section
variable {p : Pkt} {s : State} {t : Stream} (ht : s.live? p.stream = some t)
include ht

theorem treeWork_conflict (h : t.tree ≠ none) : treeWork p s = s.refuse p stStateConflict := by
  simp only [treeWork, ht, Option.isSome_iff_ne_none.mpr h, if_true]

variable (h : t.tree = none)
include h

theorem treeWork_noToken (hn : ∃ n ∈ treeNodes p.payload, (s.vocabOf t).prof.vocab ≤ n.2) : treeWork p s = s.refuse p stBadPacket := by
  have hany : (treeNodes p.payload).any (fun n => decide ((s.vocabOf t).prof.vocab ≤ n.2)) = true := by
    simpa only [List.any_eq_true, decide_eq_true_eq] using hn
  simp only [treeWork, ht, h, Option.isSome_none, Bool.false_eq_true, if_false, hany, if_true]

theorem treeWork_enters (hn : ∀ n ∈ treeNodes p.payload, n.2 < (s.vocabOf t).prof.vocab) :
    treeWork p s = treeEntered p t (treeNodes p.payload) s := by
  have hany : (treeNodes p.payload).any (fun n => decide ((s.vocabOf t).prof.vocab ≤ n.2)) = false := by
    simpa only [List.any_eq_false, decide_eq_true_eq, Nat.not_le] using hn
  simp only [treeWork, ht, h, Option.isSome_none, Bool.false_eq_true, if_false, hany]

end

/-! ### The reply (R365 to R368) -/

section
variable {p : Pkt} {s : State} {t : Stream} (ht : s.live? p.stream = some t)
include ht

theorem replyWork_noTree (h : t.tree = none) : replyWork p s = s.refuse p stStateConflict := by
  simp only [replyWork, ht, h]

variable {tr : Tree} (htr : t.tree = some tr)
include htr

theorem replyWork_conflict (h : tr.inStep = false ∨ t.choosing = true) : replyWork p s = s.refuse p stStateConflict := by
  simp [replyWork, ht, htr, h]

variable (hin : tr.inStep = true) (hc : t.choosing = false) {voc bonus node : Nat} (hvoc : voc = (s.vocabOf t).prof.vocab)
  (hbonus : bonus = bits p.arg 39 20) (hnode : node = bits p.arg 13 8)
include hin hc hvoc hbonus hnode

theorem replyWork_noNode (h : voc ≤ bonus ∨ tr.nodes.length < node) : replyWork p s = s.refuse p stBadPacket := by
  subst hvoc hbonus hnode
  simp [replyWork, ht, htr, hin, hc, h]

/-- What is left of a reply whose BONUS and node are there: its step, its shutter, and the choice held (R366, R368). -/
theorem replyWork_judges (hb : bonus < voc) (hn : node ≤ tr.nodes.length) {tok : Nat} (htok : tok = (s.vocabOf t).prof.m2c.getD bonus 0)
    {c : Choice} (hch : c = { pkt := p, token := tok, node := node, reply := true, outside := s.outside t node tok, arrived := s.aon.time })
    {u : State} (hu : u = s.onStream t.id.slot (fun x => { x with choice := some c })) :
    replyWork p s = if t.voided then s.refuse p stVoided
      else if s.outside t node tok && !t.id.force then s.cmp p stDisallowed (flag t.replayed 1) none none none
      else if s.passed t.lastStep then u.grantOrWait State.commitHeld t.id.slot else u := by
  subst hu hch htok hvoc hbonus hnode
  simp only [replyWork, ht, htr, hin, hc, Nat.not_le.mpr hb, Nat.not_lt.mpr hn, Bool.not_true, Bool.or_self, Bool.false_eq_true,
    decide_false, if_false]
  -- what differs still: whether the step has passed is asked of u, whose steps are those of s
  rfl

end

/-! ### The statement on draft trees -/

/-- Settles O34: spec.tree by its tokens, by what its fork needs and by what the fork comes to, a reply by its tree, its BONUS and node, its step
and its shutter, and the resolve's acknowledgement. -/
theorem treesAndReplies : Obligations.TreesAndReplies := by
  unfold Obligations.TreesAndReplies
  refine ⟨fun dt ap pos s p hd => ?_, fun dt ap pos s p hd => ?_, fun dt slot s => rfl⟩
  · intro w t ht canon
    have hrun (u : State) (h : treeWork p w = u) : exec (.specTree dt ap pos) s = .next u := h ▸ exec_of_due rfl rfl rfl hd
    refine ⟨fun h => hrun _ (treeWork_conflict ht h), fun h hn => hrun _ (treeWork_noToken ht h hn), fun h hn => ?_⟩
    have henter := treeWork_enters ht h hn
    refine ⟨fun h0 => hrun _ (henter.trans (treeEntered_noStack h0)), fun w0 h0 u hu chunks hchunks => ?_⟩
    have hneeds : treeChunks u (treeNodes p.payload).length = chunks := by rw [hchunks, treeChunks_eq]
    refine ⟨fun hroom => hrun _ (henter.trans (treeEntered_noRoom h0 hu (hneeds.symm ▸ hroom))), fun record hr hc => ?_⟩
    have hfork : treeWork p w = treeForked p u record w0 (w0.fork u record canon []) :=
      henter.trans (treeEntered_forks h0 hu hr (hneeds.symm ▸ hc))
    refine ⟨fun k hk => hrun _ ?_, fun nodes hnodes => hrun _ ?_⟩
    · rw [hfork, hk]
      rfl
    · rw [hfork, hnodes]
      rfl
  · intro w bonus node t ht voc hvoc tok htok
    have hrun (u : State) (h : replyWork p w = u) : exec (.specTreeReply dt ap pos) s = .next u := h ▸ exec_of_due rfl rfl rfl hd
    refine ⟨fun h => hrun _ (replyWork_noTree ht h), fun tr htr => ⟨fun h => hrun _ (replyWork_conflict ht htr h), fun hin hc =>
      ⟨fun h => hrun _ (replyWork_noNode ht htr hin hc hvoc rfl rfl h), fun hb hn => ?_⟩⟩⟩
    have hjudge := replyWork_judges ht htr hin hc hvoc rfl rfl hb hn htok rfl rfl
    refine ⟨fun hvoid => hrun _ ?_, fun hvoid ho hf => hrun _ ?_, fun hvoid ho c hch u hu => hrun _ ?_⟩
    · rw [hjudge, hvoid, if_pos rfl]
    · rw [hjudge, hvoid, ho, hf]
      rfl
    · have hallowed : ¬(w.outside t node tok && !t.id.force) = true := by
        rcases ho with ho | ho <;> simp [ho]
      subst hch hu
      rw [hjudge, hvoid, if_neg Bool.false_ne_true, if_neg hallowed]

end Sys2Proof.Machine
end

section
/-! Verdicts (R374 to R377): what VERDICT_PASS, VERDICT_FAIL, VERDICT_TIMEOUT and CHUNK_KV_WRITTEN answer, case by case, and the statement on
them. -/
namespace Sys2Proof.Machine
open Sys2Proof

-- Elaborated in turn: the check of the whole text has no memory for more elaboration threads.
set_option Elab.async false

/-! ### A step that is not in the fabric -/

section
variable {s b : State} {dt step : Nat} (hb : s.elapse dt = b)
include hb

section
variable (hx : b.step? step = none)
include hx

theorem execVerdictPass_unknown : execVerdictPass dt step s = .next b := by
  simp only [execVerdictPass, hb, hx]

theorem execVerdictFail_unknown : execVerdictFail dt step s = .next b := by
  simp only [execVerdictFail, hb, hx]

theorem execVerdictTimeout_unknown : execVerdictTimeout dt step s = .next b := by
  simp only [execVerdictTimeout, hb, hx]

theorem execChunkKvWritten_unknown (what : KvReport) : execChunkKvWritten dt step what s = .next b := by
  simp only [execChunkKvWritten, hb, hx]

end

variable {x : Step} (hx : b.step? step = some x)
include hx

/-! ### VERDICT_PASS and VERDICT_FAIL (R374, R375) -/

theorem execVerdictPass_late (hv : x.verdict ≠ .waiting) : execVerdictPass dt step s = .next b := by
  simp only [execVerdictPass, hb, hx, bne_iff_ne.mpr hv, if_true]

theorem execVerdictPass_passes (hv : x.verdict = .waiting) {u : State}
    (hu : u = b.onStep step (fun x => { x with verdict := .passed })) :
    execVerdictPass dt step s = .next (((x.desc.entries.foldl State.passEntry
      ((u.heldChoices step).foldl (fun s n => s.grantOrWait State.commitHeld n) u)).sealVerdict step true).sweepSteps) := by
  subst hu
  simp only [execVerdictPass, hb, hx, hv, bne_self_eq_false, Bool.false_eq_true, if_false]

theorem execVerdictFail_late (hv : x.verdict ≠ .waiting) : execVerdictFail dt step s = .next b := by
  simp only [execVerdictFail, hb, hx, beq_iff_eq, hv, if_false]

theorem execVerdictFail_voids (hv : x.verdict = .waiting) : execVerdictFail dt step s = .next (b.voidStep false step) := by
  simp only [execVerdictFail, hb, hx, hv, beq_self_eq_true, if_true]

/-! ### VERDICT_TIMEOUT (R374) -/

theorem execVerdictTimeout_voids (hv : x.verdict = .waiting) {at_ : Nat} (hl : x.lastResult = some at_) (hr : b.resultsIn x = true)
    (h : at_ + 1000000 ≤ b.aon.time) : execVerdictTimeout dt step s = .next ((b.raise cFabricProto).voidStep true step) := by
  simp only [execVerdictTimeout, hb, hx, hl, hv, hr, h, beq_self_eq_true, decide_true, Bool.and_self, if_true]

/-- The timeout does nothing for a step that has its verdict, has a result to come, or had its last result less than 1 ms ago. -/
theorem execVerdictTimeout_idle (h : x.verdict ≠ .waiting ∨ x.lastResult = none ∨ b.resultsIn x = false ∨
    ∀ at_, x.lastResult = some at_ → b.aon.time < at_ + 1000000) : execVerdictTimeout dt step s = .next b := by
  cases hl : x.lastResult with
  | none => simp only [execVerdictTimeout, hb, hx, hl]
  | some at_ =>
    have hearly : ¬(x.verdict == .waiting && b.resultsIn x && decide (at_ + 1000000 ≤ b.aon.time)) = true := by
      rcases h with h | h | h | h
      · simp [h]
      · simp [hl] at h
      · simp [h]
      · simp [Nat.not_le.mpr (h at_ hl)]
    simp only [execVerdictTimeout, hb, hx, hl, hearly, Bool.false_eq_true, if_false]

/-! ### CHUNK_KV_WRITTEN (R374, R376) -/

theorem execChunkKvWritten_release (slot h : Nat) : execChunkKvWritten dt step ⟨slot, some h⟩ s =
    .next (b.onStep step (Step.reportRelease b.aon.time h)) := by
  simp only [execChunkKvWritten, hb, hx]

variable {slot : Nat}

theorem execChunkKvWritten_noEntry
    (h : x.desc.entries.find? (fun e => e.slot == slot && e.kind == 1) = none ∨ b.stream? slot = none) :
    execChunkKvWritten dt step ⟨slot, none⟩ s = .next b := by
  cases he : x.desc.entries.find? (fun e => e.slot == slot && e.kind == 1) with
  | none => simp only [execChunkKvWritten, hb, hx, he]
  | some e =>
    have ht : b.stream? slot = none := h.resolve_left (by simp [he])
    simp only [execChunkKvWritten, hb, hx, he, ht]

theorem execChunkKvWritten_prompt {e : StepEntry} (he : x.desc.entries.find? (fun e => e.slot == slot && e.kind == 1) = some e)
    {t : Stream} (ht : b.stream? slot = some t) {u : State}
    (hu : u = b.onStep step (fun x => { x.report b.aon.time with
      reported := x.reported ++ (if x.reported.contains slot then [] else [slot]) })) {last : Bool}
    (hlast : last = (t.state == .prompt && u.handsOff t && x.verdict != .passed && t.handle == e.handle && !t.enc.docOpen &&
      t.enc.promptDone && t.queue.length == 1 && t.lastStep == step && t.pausePending.isNone && t.wait == .none && t.migDest.isNone &&
      !t.cancelPending)) :
    execChunkKvWritten dt step ⟨slot, none⟩ s = .next (if last then
      (u.onStream slot (fun t => { t with pausePending := some (none, .migrate t.id.dest) })).sendPackage slot t.id.dest true false .sealedKv
      else u) := by
  subst hlast hu
  simp only [execChunkKvWritten, hb, hx, he, ht]

end

/-! ### The statement on verdicts -/

/-- Settles O43: the three verdict commands by the step and its verdict so far (held choices of one arrival keep the table's order: log 69), and a
report by what it is of (that a summary release is reported by CHUNK_KV_WRITTEN is log 34). -/
theorem verdicts : Obligations.Verdicts := by
  unfold Obligations.Verdicts
  intro dt step s b
  refine ⟨fun hx => ⟨execVerdictPass_unknown rfl hx, execVerdictFail_unknown rfl hx, execVerdictTimeout_unknown rfl hx,
    fun slot release => execChunkKvWritten_unknown rfl hx ⟨slot, release⟩⟩, fun x hx => ⟨fun hv => ?_, fun hv => ?_, ?_, ?_, ?_⟩⟩
  · exact ⟨execVerdictPass_late rfl hx hv, execVerdictFail_late rfl hx hv, execVerdictTimeout_idle rfl hx (.inl hv)⟩
  · exact ⟨fun u => execVerdictPass_passes rfl hx hv, execVerdictFail_voids rfl hx hv, fun at_ => execVerdictTimeout_voids rfl hx hv,
      fun h => execVerdictTimeout_idle rfl hx (.inr h)⟩
  · exact execChunkKvWritten_release rfl hx
  · exact fun slot => execChunkKvWritten_noEntry rfl hx
  · exact fun slot e t he ht u hu last => execChunkKvWritten_prompt rfl hx he ht hu

end Sys2Proof.Machine
end

section
/-! A march that begins (R389, R390, R394, R395, R485): what test.march and BX_MARCH_CTL answer, case by case, a destructive march's wait for its
arrays, and the statement on them. -/
namespace Sys2Proof.Machine
open Sys2Proof

-- Elaborated in turn: the check of the whole text has no memory for more elaboration threads.
set_option Elab.async false

/-! ### What is asked of a state or a packet -/

theorem State.wakeCause_of_run {s : State} (h : s.start.phase = .run) : s.wakeCause = s := by simp [State.wakeCause, h]

theorem State.isolated_of_run {s : State} (h : s.start.phase = .run) : s.isolated = false := by simp [State.isolated, h]

/-- A due packet that uses no Beryl bank has the form of its command. -/
theorem State.due.isForm {i : Instr} {form : Pkt → Bool} {ap pos : Nat} {s : State} {p : Pkt} (hi : packetOf i = some (ap, pos, form))
    (hb : berylUses i = none) (hd : s.due i p) : form p = true := by
  have ht : (s.found i).takesUp form ap pos p := by simpa [State.due, hi, State.formFor, hb] using hd
  exact ht.isForm

/-! ### The refusals (R389, R390, R395) -/

section
variable {s : State} {mode first last : Nat} {target : Bool}

theorem State.marchRefusal_running (h : s.mem.march.running = true) : s.marchRefusal mode target first last = some stStateConflict := by
  simp only [State.marchRefusal, h, if_true]

variable (h : s.mem.march.running = false)
include h

section
variable (ht : target = false)
include ht

theorem State.marchRefusal_arrays_preserving (hmode : mode = 0) : s.marchRefusal mode target first last = none := by
  simp [State.marchRefusal, h, ht, hmode]

theorem State.marchRefusal_arrays_notAllowed (hmode : mode = 1) (ha : ∃ a ∈ unitRange first last, s.mayDestroy a = false) :
    s.marchRefusal mode target first last = some stStateConflict := by
  simp [State.marchRefusal, h, ht, hmode, ha]

theorem State.marchRefusal_arrays_allowed (hmode : mode = 1) (ha : ∀ a ∈ unitRange first last, s.mayDestroy a = true) :
    s.marchRefusal mode target first last = none := by
  simp [State.marchRefusal, h, ht, hmode, List.all_eq_true.mpr ha]

end

section
variable (ht : target = true)
include ht

theorem State.marchRefusal_banks_inUse (hmode : mode = 1) (hb : ∃ b ∈ unitRange first last, b ∉ s.spares) :
    s.marchRefusal mode target first last = some stStateConflict := by
  simp [State.marchRefusal, h, ht, hmode, hb]

theorem State.marchRefusal_banks_noSpare (hmode : mode = 0) (hmap : ∃ b ∈ unitRange first last, (s.logical b).isSome = true)
    (hs : s.spares = []) : s.marchRefusal mode target first last = some stNoSpace := by
  simp [State.marchRefusal, h, ht, hmode, hs, List.any_eq_true.mpr hmap]

end

end

/-! ### The first units (R389, R390) -/

section
variable (s : State) (pkt : Option Pkt) (first last : Nat)

theorem State.beginMarch_preserving_march : (s.beginMarch pkt 0 false first last).mem.march.pos =
    ((unitRange first last).take 8).map (fun a => (a, 0)) ∧
    (s.beginMarch pkt 0 false first last).mem.march.running = true ∧ (s.beginMarch pkt 0 false first last).mem.march.pkt = pkt :=
  ⟨rfl, rfl, rfl⟩

theorem State.beginMarch_destructive_march : (s.beginMarch pkt 1 false first last).mem.noAlloc = unitRange first last ∧
    (s.beginMarch pkt 1 false first last).mem.march.waiting = (unitRange first last).filter (fun a => decide (32 ≤ a)) ∧
    (s.beginMarch pkt 1 false first last).mem.march.running = true :=
  ⟨rfl, rfl, rfl⟩

end

/-! ### test.march (R389, R394) -/

section
variable {s : State} {p : Pkt}

section
variable {mode first last : Nat} {target : Bool} (hmode : bits p.arg 1 0 = mode) (ht : p.arg.testBit 2 = target)
  (hf : bits p.arg 10 4 = first) (hl : bits p.arg 17 11 = last)
include hmode ht hf hl

theorem marchWork_refused {st : Nat} (h : s.marchRefusal mode target first last = some st) :
    marchWork p s = (s.marchStatus st).refuse p st := by
  simp only [marchWork, bit, hmode, ht, hf, hl, h]

theorem marchWork_begins (h : s.marchRefusal mode target first last = none) :
    marchWork p s = s.beginMarch (some p) mode target first last := by
  simp only [marchWork, bit, hmode, ht, hf, hl, h]

end

/-- The abort's own packet completes at once, before the march that it ends (log 75). -/
theorem marchAbortWork_ends (h : s.mem.march.running = true) :
    marchAbortWork p s = (s.onMarch (fun m => { m with aborting := true })).done p 0 none none none := by
  simp only [marchAbortWork, h, if_true]

theorem marchAbortWork_conflict (h : s.mem.march.running = false) :
    marchAbortWork p s = (s.marchStatus stStateConflict).refuse p stStateConflict := by
  simp only [marchAbortWork, h, Bool.false_eq_true, if_false]

end

/-! ### BX_MARCH_CTL (R485) -/

section
variable {s : State} {mode first last arg : Nat} {target : Bool} (hrun : s.start.phase = .run)
  (harg : arg = mode + (if target then 4 else 0) + first * 2 ^ 4 + last * 2 ^ 11)
include hrun harg

theorem State.marchCtl_badForm (hf : marchForm arg = false) : s.wakeCause.marchCtl mode target first last = s.marchStatus stBadPacket := by
  subst harg
  rw [State.wakeCause_of_run hrun, State.marchCtl, State.isolated_of_run hrun]
  exact if_pos (congrArg not hf)

variable (hf : marchForm arg = true)
include hf

/-- A value of a right form is taken as test.march takes its ARG. -/
theorem State.marchCtl_eq : s.wakeCause.marchCtl mode target first last =
    if mode = 2 then
      if s.mem.march.running = true then (s.onMarch (fun m => { m with aborting := true })).marchStatus stOk
      else s.marchStatus stStateConflict
    else (s.marchRefusal mode target first last).elim (s.beginMarch none mode target first last) s.marchStatus := by
  subst harg
  rw [State.wakeCause_of_run hrun, State.marchCtl, State.isolated_of_run hrun, if_neg Bool.false_ne_true, if_neg (by simpa [flag] using hf)]
  simp only [beq_iff_eq]
  cases s.marchRefusal mode target first last <;> rfl

section
variable (hmode : mode ≠ 2)
include hmode

theorem State.marchCtl_refused {st : Nat} (h : s.marchRefusal mode target first last = some st) :
    s.wakeCause.marchCtl mode target first last = s.marchStatus st := by
  rw [State.marchCtl_eq hrun harg hf, if_neg hmode, h]
  rfl

theorem State.marchCtl_begins (h : s.marchRefusal mode target first last = none) :
    s.wakeCause.marchCtl mode target first last = s.beginMarch none mode target first last := by
  rw [State.marchCtl_eq hrun harg hf, if_neg hmode, h]
  rfl

end

section
variable (hmode : mode = 2)
include hmode

theorem State.marchCtl_ends (h : s.mem.march.running = true) :
    s.wakeCause.marchCtl mode target first last = (s.onMarch (fun m => { m with aborting := true })).marchStatus stOk := by
  rw [State.marchCtl_eq hrun harg hf, if_pos hmode, if_pos h]

theorem State.marchCtl_conflict (h : s.mem.march.running = false) :
    s.wakeCause.marchCtl mode target first last = s.marchStatus stStateConflict := by
  rw [State.marchCtl_eq hrun harg hf, if_pos hmode, h, if_neg Bool.false_ne_true]

end

end

/-! ### A destructive march that waits for its arrays (R390) -/

section
variable {s b : State} {dt array : Nat} (hb : s.elapse dt = b)
include hb

theorem execDestructiveMarchStart_starts (hrun : b.start.phase = .run) (hw : array ∈ b.mem.march.waiting) (hi : b.arrayIdle array = true) :
    execDestructiveMarchStart dt array s = .next (b.onMarch (fun m => { m with waiting := m.waiting.filter (· != array) })) := by
  simp [execDestructiveMarchStart, hb, State.arraysUp_of_run hrun, hw, hi]

theorem execDestructiveMarchStart_idle (h : array ∉ b.mem.march.waiting ∨ b.arrayIdle array = false ∨ b.start.phase ≠ .run) :
    execDestructiveMarchStart dt array s = .next b := by
  rcases h with h | h | h
  · simp [execDestructiveMarchStart, hb, h]
  · simp [execDestructiveMarchStart, hb, h]
  · simp [execDestructiveMarchStart, hb, State.arraysUp_of_not_run h]

theorem execDestructiveMarchTimeout_givesUp (hw : array ∈ b.mem.march.waiting) (ht : b.mem.march.requested + 100000000 ≤ b.aon.time) :
    execDestructiveMarchTimeout dt array s = .next (b.failMarch stStateConflict) := by
  simp [execDestructiveMarchTimeout, hb, hw, ht]

theorem execDestructiveMarchTimeout_idle (h : array ∉ b.mem.march.waiting ∨ b.aon.time < b.mem.march.requested + 100000000) :
    execDestructiveMarchTimeout dt array s = .next b := by
  rcases h with h | h
  · simp [execDestructiveMarchTimeout, hb, h]
  · simp [execDestructiveMarchTimeout, hb, Nat.not_le.mpr h]

end

/-! ### The statement on marches that begin -/

/-- Settles O49: test.march and the register by what refuses a march (an abort's own packet completes at once: log 75), the first units of one that
begins, and the two commands that end the wait of a destructive one. -/
theorem marchesBegin : Obligations.MarchesBegin := by
  unfold Obligations.MarchesBegin
  refine ⟨fun dt ap pos s p hd => ?_, fun dt ap pos s p hd => ?_, fun dt ap pos s p hd => ?_, fun s mode first last target => ?_,
    fun dt first last target s => ?_, fun dt array s => ?_⟩
  · intro w
    have hrun (u : State) (h : marchWork p w = u) : exec (.testMarchPreserving dt ap pos) s = .next u := h ▸ exec_of_due rfl rfl rfl hd
    have hmode : bits p.arg 1 0 = 0 := eq_of_beq (Bool.and_eq_true_iff.mp (State.due.isForm rfl rfl hd)).2
    exact ⟨hmode, fun st h => hrun _ (marchWork_refused hmode rfl rfl rfl h), fun h => hrun _ (marchWork_begins hmode rfl rfl rfl h)⟩
  · intro w
    have hrun (u : State) (h : marchWork p w = u) : exec (.testMarchDestructive dt ap pos) s = .next u := h ▸ exec_of_due rfl rfl rfl hd
    have hmode : bits p.arg 1 0 = 1 := eq_of_beq (Bool.and_eq_true_iff.mp (State.due.isForm rfl rfl hd)).2
    exact ⟨hmode, fun st h => hrun _ (marchWork_refused hmode rfl rfl rfl h), fun h => hrun _ (marchWork_begins hmode rfl rfl rfl h)⟩
  · intro w
    have hrun (u : State) (h : marchAbortWork p w = u) : exec (.testMarchAbort dt ap pos) s = .next u := h ▸ exec_of_due rfl rfl rfl hd
    exact ⟨fun h => hrun _ (marchAbortWork_ends h), fun h => hrun _ (marchAbortWork_conflict h)⟩
  · intro units
    exact ⟨State.marchRefusal_running, fun h => ⟨State.marchRefusal_arrays_preserving h, State.marchRefusal_arrays_notAllowed h,
      State.marchRefusal_arrays_allowed h, State.marchRefusal_banks_inUse h, State.marchRefusal_banks_noSpare h,
      fun _ _ pkt => State.beginMarch_preserving_march s pkt first last, fun _ _ pkt => State.beginMarch_destructive_march s pkt first last⟩⟩
  · intro b hrun arg harg
    have harg (mode : Nat) : arg mode = mode + (if target then 4 else 0) + first * 2 ^ 4 + last * 2 ^ 11 := congrFun harg mode
    have hnext {u v : State} (h : u = v) : (.next u : Res) = .next v := h ▸ rfl
    exact ⟨fun hf => hnext (State.marchCtl_badForm hrun (harg 0) hf),
      fun hf => ⟨fun st h => hnext (State.marchCtl_refused hrun (harg 0) hf (by decide) h),
        fun h => hnext (State.marchCtl_begins hrun (harg 0) hf (by decide) h)⟩,
      fun hf => hnext (State.marchCtl_badForm hrun (harg 1) hf),
      fun hf => ⟨fun st h => hnext (State.marchCtl_refused hrun (harg 1) hf (by decide) h),
        fun h => hnext (State.marchCtl_begins hrun (harg 1) hf (by decide) h)⟩,
      fun hf => hnext (State.marchCtl_badForm hrun (harg 2) hf),
      fun hf h => hnext (State.marchCtl_ends hrun (harg 2) hf rfl h), fun hf h => hnext (State.marchCtl_conflict hrun (harg 2) hf rfl h)⟩
  · intro b
    exact ⟨execDestructiveMarchStart_starts rfl,
      fun hw => ⟨execDestructiveMarchStart_idle rfl (.inl hw), execDestructiveMarchTimeout_idle rfl (.inl hw)⟩,
      fun h => execDestructiveMarchStart_idle rfl (.inr h), execDestructiveMarchTimeout_givesUp rfl,
      fun h => execDestructiveMarchTimeout_idle rfl (.inr h)⟩

end Sys2Proof.Machine
end

section
/-! The repairs of repair_bank (R398): what each of its passes keeps, and that the spares it answers cover every fail. -/
namespace Sys2Proof.Machine
open Sys2Proof

-- Elaborated in turn: the check of the whole text has no memory for more elaboration threads.
set_option Elab.async false

/-! ### Sorting keeps the elements -/

section
variable {α : Type} {lt : α → α → Bool}

theorem mem_insertBy {x y : α} {l : List α} : y ∈ insertBy lt x l ↔ y = x ∨ y ∈ l := by
  induction l with
  | nil => simp [insertBy]
  | cons z zs ih =>
    rw [insertBy]
    split
    · rw [List.mem_cons, ih, List.mem_cons, or_left_comm]
    · exact List.mem_cons

theorem mem_sortBy {y : α} {l : List α} : y ∈ sortBy lt l ↔ y ∈ l := by
  induction l with
  | nil => rfl
  | cons x xs ih => exact mem_insertBy.trans ((or_congr_right ih).trans List.mem_cons.symm)

theorem mem_ascendingOf {n : Nat} {l : List Nat} : n ∈ ascendingOf l ↔ n ∈ l := mem_sortBy.trans List.mem_eraseDups

end

/-! ### The spares grow, and never beyond the working ones -/

/-- From a to b spares were only added, never more than there are working ones. -/
structure Spared.Extends (a b : Spared) : Prop where
  rows : a.rows ⊆ b.rows
  cols : a.cols ⊆ b.cols
  workRows : b.workRows = a.workRows
  workCols : b.workCols = a.workCols
  rowsFit : a.rows.length ≤ a.workRows → b.rows.length ≤ b.workRows
  colsFit : a.cols.length ≤ a.workCols → b.cols.length ≤ b.workCols

theorem Spared.Extends.refl (a : Spared) : a.Extends a := ⟨List.Subset.refl _, List.Subset.refl _, rfl, rfl, id, id⟩

theorem Spared.Extends.trans {a b c : Spared} (h : a.Extends b) (k : b.Extends c) : a.Extends c :=
  ⟨List.Subset.trans h.rows k.rows, List.Subset.trans h.cols k.cols, k.workRows.trans h.workRows, k.workCols.trans h.workCols,
    k.rowsFit ∘ h.rowsFit, k.colsFit ∘ h.colsFit⟩

section
variable {a : Spared}

theorem Spared.extends_addRow {r : Nat} (h : a.rows.length < a.workRows) : a.Extends { a with rows := a.rows ++ [r] } :=
  ⟨List.subset_append_left .., List.Subset.refl _, rfl, rfl, fun _ => by simpa using h, id⟩

theorem Spared.extends_addCol {c : Nat} (h : a.cols.length < a.workCols) : a.Extends { a with cols := a.cols ++ [c] } :=
  ⟨List.Subset.refl _, List.subset_append_left .., rfl, rfl, id, fun _ => by simpa using h⟩

variable {fails : List Cell} {b : Spared}

theorem mustCols_extends {l : List Nat} (h : mustCols fails l a = some b) : a.Extends b := by
  induction l generalizing a with
  | nil => exact Option.some.inj h ▸ .refl a
  | cons c cs ih =>
    rw [mustCols] at h
    split at h
    next => exact ih h
    next =>
      split at h
      next => cases h
      next hc => exact (Spared.extends_addCol (Nat.lt_of_not_le hc)).trans (ih h)

theorem mustRows_extends {l : List Nat} (h : mustRows fails l a = some b) : a.Extends b := by
  induction l generalizing a with
  | nil => exact Option.some.inj h ▸ .refl a
  | cons r rs ih =>
    rw [mustRows] at h
    split at h
    next => exact ih h
    next =>
      split at h
      next => cases h
      next hr => exact (Spared.extends_addRow (Nat.lt_of_not_le hr)).trans (ih h)

theorem mustLoop_extends {n : Nat} (h : mustLoop fails n a = some b) : a.Extends b := by
  induction n generalizing a with
  | zero => exact Option.some.inj h ▸ .refl a
  | succ n ih =>
    rw [mustLoop] at h
    split at h
    next => cases h
    next hcols =>
      split at h
      next => cases h
      next hrows =>
        have pass := (mustCols_extends hcols).trans (mustRows_extends hrows)
        split at h
        next => exact Option.some.inj h ▸ pass
        next => exact pass.trans (ih h)

/-- Where a row's columns all get spare columns, each of them is spared. -/
theorem sparingCols_spares {l : List Nat} (h : sparingCols l a = some b) : a.Extends b ∧ l ⊆ b.cols := by
  induction l generalizing a with
  | nil => exact ⟨Option.some.inj h ▸ .refl a, List.nil_subset _⟩
  | cons c cs ih =>
    rw [sparingCols] at h
    split at h
    next hc =>
      obtain ⟨hext, hcs⟩ := ih h
      exact ⟨hext, List.cons_subset.mpr ⟨hext.cols (List.contains_iff_mem.mp hc), hcs⟩⟩
    next =>
      split at h
      next => cases h
      next hc =>
        obtain ⟨hext, hcs⟩ := ih h
        exact ⟨(Spared.extends_addCol (Nat.lt_of_not_le hc)).trans hext, List.cons_subset.mpr ⟨hext.cols (by simp), hcs⟩⟩

/-! ### Every fail is covered -/

/-- A cell whose row or column is spared. -/
def Spared.covers (a : Spared) (c : Cell) : Prop := c.row ∈ a.rows ∨ c.column ∈ a.cols

theorem Spared.Extends.covers {c : Cell} (h : a.Extends b) : a.covers c → b.covers c := Or.imp (@h.rows _) (@h.cols _)

theorem Spared.mem_left {c : Cell} : c ∈ a.left fails ↔ c ∈ fails ∧ ¬a.covers c := by
  simp [Spared.left, Spared.covers, not_or]

/-- The last part of repair_bank covers the fails of the rows it goes through: a row is spared, or each column in which it fails. -/
theorem sparingRest_covers {l : List Nat} (h : sparingRest fails l a = some b) :
    a.Extends b ∧ ∀ c ∈ fails, c.row ∈ l → b.covers c := by
  induction l generalizing a with
  | nil => exact ⟨Option.some.inj h ▸ .refl a, fun c _ hc => absurd hc List.not_mem_nil⟩
  | cons r rs ih =>
    -- after a step to a' that covers the fails of row r, the rest covers those of the other rows
    have step {a' : Spared} (hext : a.Extends a') (hr : ∀ c ∈ fails, c.row = r → a'.covers c) (hrest : sparingRest fails rs a' = some b) :
        a.Extends b ∧ ∀ c ∈ fails, c.row ∈ r :: rs → b.covers c := by
      obtain ⟨hb, hrs⟩ := ih hrest
      refine ⟨hext.trans hb, fun c hc hrow => ?_⟩
      rcases List.mem_cons.mp hrow with hrow | hrow
      · exact hb.covers (hr c hc hrow)
      · exact hrs c hc hrow
    rw [sparingRest] at h
    split at h
    next hnone =>
      refine step (.refl a) (fun c hc hrow => ?_) h
      by_contra hno
      have hmem : c ∈ (a.left fails).filter (fun c => c.row == r) :=
        List.mem_filter.mpr ⟨Spared.mem_left.mpr ⟨hc, hno⟩, beq_iff_eq.mpr hrow⟩
      simp [List.isEmpty_iff.mp hnone] at hmem
    next =>
      split at h
      next hfree => exact step (Spared.extends_addRow hfree) (fun c _ hrow => .inl (by simp [hrow])) h
      next =>
        split at h
        next => cases h
        next a' hcols =>
          obtain ⟨hext, hall⟩ := sparingCols_spares hcols
          refine step hext (fun c hc hrow => ?_) h
          by_cases hcov : a.covers c
          · exact hext.covers hcov
          · exact .inr (hall (mem_ascendingOf.mpr (List.mem_map_of_mem
              (List.mem_filter.mpr ⟨Spared.mem_left.mpr ⟨hc, hcov⟩, beq_iff_eq.mpr hrow⟩))))

end

/-- The spares that repair_bank answers are within the working ones and cover every fail. -/
theorem repairBank_covers {workRows workCols : Nat} {fails : List Cell} {a : Spared} (h : repairBank workRows workCols fails = some a) :
    (∀ c ∈ fails, a.covers c) ∧ a.rows.length ≤ workRows ∧ a.cols.length ≤ workCols := by
  obtain ⟨m, hloop, hrest⟩ := Option.bind_eq_some_iff.mp h
  obtain ⟨hext, hcov⟩ := sparingRest_covers hrest
  have all := (mustLoop_extends hloop).trans hext
  exact ⟨fun c hc => hcov c hc (mem_ascendingOf.mpr (List.mem_map_of_mem hc)), (all.rowsFit (Nat.zero_le _)).trans_eq all.workRows,
    (all.colsFit (Nat.zero_le _)).trans_eq all.workCols⟩

end Sys2Proof.Machine
end

section
/-! Borrowed rows, the end of a march, the patrol scrubber and retired pages (R324, R383 to R385, R391 to R396): what their commands answer,
case by case, and the statement on them. -/
namespace Sys2Proof.Machine
open Sys2Proof

-- Elaborated in turn: the check of the whole text has no memory for more elaboration threads.
set_option Elab.async false

/-! ### MARCH_BORROW (R391 to R393) -/

/-- What a row of an array comes to that was borrowed, or was to be: m is the march with the row off its pass, k how often it was put off. -/
def State.borrow (array row k : Nat) (m : March) (s : State) : Borrow → State
  | .tested fails =>
    let mine := fails.filter (fun c => c.bank == row % 64 && c.row == row / 64)
    (((s.noteSpares (mine.map (fun c => (array, c)))).onMarch (fun _ => { m with rows := m.rows + 1 })).rowFails array
      (mine.filter (fun c => decide (c.column < 576)))).onMarch (March.settle array)
  | .yielded => s.onMarch (fun _ => ({ m with yields := m.yields + 1 }.putOff array row k).settle array)
  | .notBorrowed => s.onMarch (fun _ => (m.putOff array row k).settle array)

section
variable {s b : State} {dt array : Nat} (hb : s.elapse dt = b)
include hb

theorem execMarchBorrow_idle {f : Borrow} (h : b.start.phase ≠ .run ∨ b.mem.march.running = false ∨ b.mem.march.target ≠ 0 ∨
    b.mem.march.mode ≠ 0 ∨ b.mem.march.aborting = true ∨ b.mem.march.nextRow array = none) : execMarchBorrow dt array f s = .next b := by
  rw [execMarchBorrow, hb]
  dsimp only
  split
  next => rfl
  next hengine =>
    have hrow : b.mem.march.nextRow array = none := by
      simp only [State.arraysUp, Bool.or_eq_true, Bool.not_eq_true', bne_iff_ne, beq_eq_false_iff_ne, not_or] at hengine
      obtain ⟨⟨⟨⟨hrun, hm⟩, ht⟩, hmode⟩, ha⟩ := hengine
      simpa [hrun, hm, ht, hmode, ha] using h
    simp only [hrow]

variable (hrun : b.start.phase = .run) (hm : b.mem.march.running = true) (ht : b.mem.march.target = 0) (hmode : b.mem.march.mode = 0)
  (ha : b.mem.march.aborting = false) {row : Nat} (hrow : b.mem.march.nextRow array = some row) {m : March} {k : Nat}
  (htake : b.mem.march.take array row = (m, k))
include hrun hm ht hmode ha hrow htake

theorem execMarchBorrow_borrows (found : Borrow) : execMarchBorrow dt array found s = .next (b.borrow array row k m found) := by
  cases found <;> simp [execMarchBorrow, hb, State.arraysUp_of_run hrun, hm, ht, hmode, ha, hrow, htake, State.borrow]

end

/-! ### MARCH_END (R394, R396) -/

section
variable {s b : State} {dt : Nat} {fails : List (Nat × Cell)} (hb : s.elapse dt = b)
include hb

theorem execMarchEnd_idle (h : b.start.phase ≠ .run ∨ b.mem.march.running = false ∨ b.mem.sillHalted = true) :
    execMarchEnd dt fails s = .next b := by
  have hc : (!b.arraysUp || !b.mem.march.running || b.mem.sillHalted) = true := by
    simpa [State.arraysUp, or_assoc] using h
  simp only [execMarchEnd, hb, hc, if_true]

variable (hrun : b.start.phase = .run) (hm : b.mem.march.running = true) (hs : b.mem.sillHalted = false)
include hrun hm hs

/-- What MARCH_END answers while the engine can end a march: by its target and mode. -/
theorem execMarchEnd_eq : execMarchEnd dt fails s = .next (
    if b.mem.march.target = 1 then
      b.mem.march.camBank.elim b.endMarch (fun bank =>
        if ((List.range 32).any (fun n => b.ber.reloading.contains n) && !b.mem.march.aborting) = true then b else b.endCam bank fails)
    else if b.mem.march.mode = 1 then
      if (b.mem.march.waiting.isEmpty || b.mem.march.aborting) = true then b.endDestructive fails else b
    else if b.mem.march.aborting = true then (b.onMarch (fun m => { m with untested := m.untested + m.rowsLeft })).endMarch
    else if b.mem.march.pos.isEmpty = true then b.endMarch
    else b) := by
  have hc : (!b.arraysUp || !b.mem.march.running || b.mem.sillHalted) = false := by
    simp [State.arraysUp_of_run hrun, hm, hs]
  simp only [execMarchEnd, hb, hc, Bool.false_eq_true, if_false, beq_iff_eq]
  cases b.mem.march.camBank <;> rfl

section
variable (ht : b.mem.march.target = 0) (hmode : b.mem.march.mode = 1)
include ht hmode

theorem execMarchEnd_destructive (h : b.mem.march.waiting = [] ∨ b.mem.march.aborting = true) :
    execMarchEnd dt fails s = .next (b.endDestructive fails) := by
  rw [execMarchEnd_eq hb hrun hm hs]
  simp [ht, hmode, h]

theorem execMarchEnd_destructive_waits (hw : b.mem.march.waiting ≠ []) (ha : b.mem.march.aborting = false) :
    execMarchEnd dt fails s = .next b := by
  rw [execMarchEnd_eq hb hrun hm hs]
  simp [ht, hmode, hw, ha]

end

section
variable (ht : b.mem.march.target = 1)
include ht

theorem execMarchEnd_cam_noBank (hbank : b.mem.march.camBank = none) : execMarchEnd dt fails s = .next b.endMarch := by
  simp only [execMarchEnd_eq hb hrun hm hs, ht, hbank, Option.elim_none, if_true]

variable {bank : Nat} (hbank : b.mem.march.camBank = some bank)
include hbank

theorem execMarchEnd_cam_reloading (hr : ∃ n ∈ b.ber.reloading, n < 32) (ha : b.mem.march.aborting = false) :
    execMarchEnd dt fails s = .next b := by
  obtain ⟨n, hmem, hn⟩ := hr
  have hbusy : (List.range 32).any (fun n => b.ber.reloading.contains n) = true :=
    List.any_eq_true.mpr ⟨n, List.mem_range.mpr hn, List.contains_iff_mem.mpr hmem⟩
  simp only [execMarchEnd_eq hb hrun hm hs, ht, hbank, Option.elim_some, hbusy, ha, Bool.not_false, Bool.and_self, if_true]

theorem execMarchEnd_cam_marched (h : (∀ n ∈ b.ber.reloading, 32 ≤ n) ∨ b.mem.march.aborting = true) :
    execMarchEnd dt fails s = .next (b.endCam bank fails) := by
  have hc : ((List.range 32).any (fun n => b.ber.reloading.contains n) && !b.mem.march.aborting) = false := by
    rcases h with h | h
    · have hquiet : (List.range 32).any (fun n => b.ber.reloading.contains n) = false :=
        List.any_eq_false.mpr fun n hn hc => absurd (List.mem_range.mp hn) (Nat.not_lt.mpr (h n (List.contains_iff_mem.mp hc)))
      rw [hquiet, Bool.false_and]
    · rw [h, Bool.not_true, Bool.and_false]
  simp only [execMarchEnd_eq hb hrun hm hs, ht, hbank, Option.elim_some, hc, if_true, Bool.false_eq_true, if_false]

end

section
variable (ht : b.mem.march.target = 0) (hmode : b.mem.march.mode = 0)
include ht hmode

theorem execMarchEnd_preserving_aborted (ha : b.mem.march.aborting = true) : execMarchEnd dt fails s =
    .next ((b.onMarch (fun m => { m with untested := m.untested + b.mem.march.rowsLeft })).endMarch) := by
  have hleft : b.onMarch (fun m => { m with untested := m.untested + b.mem.march.rowsLeft }) =
      b.onMarch (fun m => { m with untested := m.untested + m.rowsLeft }) := by simp only [State.onMarch, State.onMem]
  rw [execMarchEnd_eq hb hrun hm hs, hleft]
  simp [ht, hmode, ha]

variable (ha : b.mem.march.aborting = false)
include ha

theorem execMarchEnd_preserving_done (hp : b.mem.march.pos = []) : execMarchEnd dt fails s = .next b.endMarch := by
  rw [execMarchEnd_eq hb hrun hm hs]
  simp [ht, hmode, ha, hp]

theorem execMarchEnd_preserving_early (hp : b.mem.march.pos ≠ []) : execMarchEnd dt fails s = .next b := by
  rw [execMarchEnd_eq hb hrun hm hs]
  simp [ht, hmode, ha, hp]

end

end

/-! ### The end of a march (R396) -/

/-- The march runs no longer and its arrays are back in their pools. -/
def State.marchOver (s : State) : State :=
  (s.onMarch (fun m => { m with
    running := false, byReg := false, waiting := [], pos := [], skipped := [], aborting := false, camBank := none, pkt := none,
    lastStatus := stOk })).onMem (fun g => { g with noAlloc := [] })

theorem State.endMarch_byReg {s : State} (h : s.mem.march.pkt = none) : s.endMarch = s.marchOver := by
  simp only [State.endMarch, h, State.marchOver]

theorem State.endMarch_completes {s : State} {p : Pkt} (h : s.mem.march.pkt = some p) : s.endMarch =
    s.marchOver.done p 0 (some s.mem.march.rows) (some (s.mem.march.fails + s.mem.march.spares * 2 ^ 32))
      (some (s.mem.march.yields + s.mem.march.untested * 2 ^ 32)) := by
  simp only [State.endMarch, h, State.marchOver]

/-! ### PATROL_SCRUB (R383 to R385) -/

section
variable {s b : State} {dt array : Nat} {read : Option Nat} {found : ReadFound} (hb : s.elapse dt = b)
include hb

theorem execPatrolScrub_idle (h : b.serving = false ∨ array ∈ b.mem.withdrawn) : execPatrolScrub dt array ⟨found, read⟩ s = .next b := by
  rcases h with h | h <;> simp [execPatrolScrub, hb, h]

/-- The word that an array's scrubber reads next, or that another master's read names, is read; only the scrubber moves on (log 76). -/
theorem execPatrolScrub_reads (hs : b.serving = true) (ha : array < 88) (hw : array ∉ b.mem.withdrawn) {w : Nat}
    (hword : w = read.getD (b.mem.patrolPos.getD array 0)) (hread : ∀ n, read = some n → n < 524288) {u : State}
    (hu : u = if read = none then b.onMem (fun m => { m with patrolPos := modifyAt m.patrolPos array (fun p => (p + 1) % 524288) }) else b)
    (hbit : ∀ bit recurring, found = .corrected bit recurring → bit < 72) :
    execPatrolScrub dt array ⟨found, read⟩ s = .next (u.scrubWord array w found) := by
  subst hword hu
  rw [execPatrolScrub, hb]
  dsimp only
  rw [if_pos]
  · cases read with
    | none => rfl
    | some n => simp [arrayWords, hread n rfl]
  · cases found with
    | corrected bit recurring => simp [hs, ha, hw, hbit bit recurring rfl]
    | clean | merged | uncorrectable owner => simp [hs, ha, hw]

end

/-! ### PAGE_RETIRE (R324) -/

section
variable {s b : State} {dt page : Nat} (hb : s.elapse dt = b)
include hb

theorem execPageRetire_idle (h : b.serving = false ∨ b.start.stackMap.kvCount ≤ page) : execPageRetire dt page s = .next b := by
  rw [execPageRetire, hb]
  rcases h with h | h <;> simp [h, State.retirePage]

theorem execPageRetire_retires (hs : b.serving = true) (hp : page < b.start.stackMap.kvCount) : execPageRetire dt page s =
    .next (((b.slotsWith (fun t => t.kv.contains page || (b.prefixPages t).contains page)).foldl (fun s n => s.cancelLater n)
      ((b.onSto (fun g => { g with ledger := ledgerSet g.ledger ⟨page, .retired, none⟩ })).locFails (pageLoc page))).dropRecords
        ((b.sto.pfx.filter (fun r => r.pages.contains page)).map (·.num))) := by
  simp only [execPageRetire, hb, hs, if_true, State.retirePage, Nat.not_le.mpr hp, if_false]

end

/-! ### The statement on borrowed rows, the end of a march and the patrol -/

/-- Settles O50: the two commands of a running march, the record of one that ends, the cover of repair_bank, the patrol scrubber by what a word
tells (the order of the words and the column: log 76, the class of a cell that recurs: log 77, the spare taken: log 71), and a retired page. -/
theorem rowsMarched : Obligations.RowsMarched := by
  unfold Obligations.RowsMarched
  refine ⟨fun dt array s => ?_, fun dt fails s => ?_, fun s => ⟨State.endMarch_byReg, fun p => State.endMarch_completes⟩,
    fun workRows workCols fails a => repairBank_covers, fun dt array read s => ?_,
    fun dt page s => ⟨execPageRetire_idle rfl, execPageRetire_retires rfl⟩⟩
  · intro b
    refine ⟨fun h f => execMarchBorrow_idle rfl h, fun hrun hm ht hmode ha row m k hrow htake => ?_⟩
    have borrows (found : Borrow) : exec (.marchBorrow dt array found) s = .next (b.borrow array row k m found) :=
      execMarchBorrow_borrows rfl hrun hm ht hmode ha hrow htake found
    exact ⟨fun fails mine hmine => hmine ▸ borrows (.tested fails), borrows .yielded, borrows .notBorrowed⟩
  · intro b
    refine ⟨execMarchEnd_idle rfl, fun hrun hm hs ht hmode => ⟨?_, ?_⟩, fun hrun hm hs ht => ⟨?_, fun bank hbank => ⟨?_, ?_⟩⟩,
      fun hrun hm hs ht hmode => ⟨?_, ?_, ?_⟩⟩
    · exact execMarchEnd_destructive rfl hrun hm hs ht hmode
    · exact execMarchEnd_destructive_waits rfl hrun hm hs ht hmode
    · exact execMarchEnd_cam_noBank rfl hrun hm hs ht
    · exact execMarchEnd_cam_reloading rfl hrun hm hs ht hbank
    · exact execMarchEnd_cam_marched rfl hrun hm hs ht hbank
    · exact execMarchEnd_preserving_aborted rfl hrun hm hs ht hmode
    · exact execMarchEnd_preserving_done rfl hrun hm hs ht hmode
    · exact execMarchEnd_preserving_early rfl hrun hm hs ht hmode
  · intro b
    refine ⟨fun h found => execPatrolScrub_idle rfl h, fun hs ha hw w hword hread u hu ue hue => ?_⟩
    have hreads (found : ReadFound) (hbit : ∀ bit recurring, found = .corrected bit recurring → bit < 72) :
        exec (.patrolScrub dt array ⟨found, read⟩) s = .next (u.scrubWord array w found) :=
      execPatrolScrub_reads rfl hs ha hw hword hread hu hbit
    subst hue
    refine ⟨hreads .clean nofun, fun bit hbit ce hce => ?_, hreads .merged nofun, fun owner => hreads (.uncorrectable owner) nofun⟩
    subst hce
    exact ⟨hreads (.corrected bit false) (by rintro _ _ ⟨⟩; exact hbit), hreads (.corrected bit true) (by rintro _ _ ⟨⟩; exact hbit)⟩

end Sys2Proof.Machine
end
